-- ==== Sys2Proof/Word.lean ====
section
/-! DEFINITION. The bit-vector names the manual's widths need, and the finite index types of the KX32D-M
(ports, pairs, timers, pattern definitions, dies, engines). -/

namespace Sys2Proof

/-- An octet. -/
abbrev Byte := BitVec 8

/-- A tick within a frame, 0 to 2047 (R42). -/
abbrev Tick := BitVec 11

/-- A port, P0 to P31 (R13). -/
abbrev Port := Fin 32

/-- A pair of ports P2p and P2p + 1 (R244). -/
abbrev PairId := Fin 16

/-- A position timer, PT0 to PT15 (R387). -/
abbrev TimerId := Fin 16

/-- A pattern definition (R103). -/
abbrev PatId := Fin 16

/-- One of the two fabric links between a line die and an engine ("In-package links"). -/
abbrev LinkId := Fin 2

/-- The two engines (R14). -/
inductive Eng where
  | ex
  | ey
  deriving DecidableEq, Repr

/-- The two line dies (R13). -/
inductive LineDie where
  | lda
  | ldb
  deriving DecidableEq, Repr

/-- Every die with a keeper link ("In-package links"). -/
inductive DieId where
  | line (d : LineDie)
  | engine (e : Eng)
  deriving DecidableEq, Repr

/-- The other engine. -/
def Eng.other : Eng → Eng
  | .ex => .ey
  | .ey => .ex

/-- R319's L: 0 for LDA, 1 for LDB. -/
def LineDie.num : LineDie → Nat
  | .lda => 0
  | .ldb => 1

/-- R210's ENG: 0 for EX, 1 for EY. -/
def Eng.num : Eng → Nat
  | .ex => 0
  | .ey => 1

end Sys2Proof
end

