-- ==== Sys2Proof/Syntax.lean ====
section
/-! DEFINITION. The commands of the block: one constructor of `Instr` for each row of spec/opcode_table.json, in the
table's order. The table gives its rows no operands and no bits; an operand here is what the event brings from
outside the digital state (which port, the tick within the frame, a reading of a key pin, the octets received). -/

namespace Sys2Proof

/-- The sense-current ranges of a key reader, by range factor m (R58). -/
inductive Range where
  | m8
  | m1
  | m1over8
  | m1over64
  deriving DecidableEq, Repr

/-- One sample of a key pin (R57, R58, R65), in microvolts: the voltages the pin went through since its reader's sample
before, those of the sampling frame, both in order, and the mean over ticks 1024 to 2047. The reader's range follows from
them. -/
structure KeyRaw where
  before     : List Nat
  during     : List Nat
  microvolts : Nat
  deriving DecidableEq, Repr

/-- A bit period on a receive or transmit pair (R164, R165): no pulse, or one of either polarity. On an NRZ port a one is a
pulse `pos`. -/
inductive Pulse where
  | none
  | pos
  | neg
  deriving DecidableEq, Repr

/-- What a receiver has seen of its line up to an event (R165, R171, R172): the latest bit periods in order, the last of
them just ended, and on an NRZ port the ticks since the latest rising edge of RXNn. -/
structure LineObs where
  pulses : List Pulse
  idle   : Nat
  deriving DecidableEq, Repr

/-- The bit periods of a received line frame, with as many before and after it as its decoder goes by: a substitution may reach into
the frame or out of it (R165). -/
structure RxPulses where
  before : List Pulse
  frame  : List Pulse
  after  : List Pulse
  deriving DecidableEq, Repr

/-- A reference candidate (R32). -/
inductive RefCand where
  | refin
  | port (p : Port)
  deriving DecidableEq, Repr

/-- What an engine reports at the end of a page load: page number and CRC received (R118). -/
structure LoadReport where
  page : Nat
  crc  : BitVec 32
  deriving DecidableEq, Repr

/-- What the analogue parts and the engines' self checks show over the turn that a turn boundary ends. -/
structure TurnObs where
  /-- Mean tick frequency held over the turn, in parts per billion of nominal (R48 averages 250 of these). -/
  freqPpb   : Int
  /-- The frequency stayed within 0.1 ppm of the reference over the turn (R39). -/
  inLock    : Bool
  /-- KREF was found outside 37.4 kOhm to 62.4 kOhm at some moment of the turn (R64). -/
  krefOut   : Bool
  /-- The bytes of each engine's active connection memory that are not as they were loaded: place in the page, and value. The
  engine recomputes the CRC-32 of its page from its memory (R326). -/
  scrubX    : List (Nat × Byte)
  scrubY    : List (Nat × Byte)
  /-- The keeper-crystal instant, in periods since RESET_N was last released (R381). -/
  keeper    : Nat
  deriving DecidableEq, Repr

/-- What is observed at a position frame boundary. -/
structure FrameObs where
  /-- Bit n set: ball HNGn reads below 1.0 V at this boundary (R347). -/
  hingeLow : BitVec 32
  /-- The bits of its state digest that each engine sends wrongly in its sync word; 0 while its digest circuit is sound (R325). -/
  digestX  : BitVec 32
  digestY  : BitVec 32
  /-- The line die sent KP a valid heartbeat word in the frame just ended (R506). -/
  hbLda    : Bool
  hbLdb    : Bool
  /-- Every edge of REFIN expected in the frame just ended, at the rate KEY_REF names, arrived (R35). -/
  refinOk  : Bool
  deriving DecidableEq, Repr

/-- What a start reads before it can run (R66, R415). -/
structure StartObs where
  /-- Samples of the eight boot keys in frames T0:0 and T0:1, KEY_G0 first. -/
  boot0        : Vector KeyRaw 8
  boot1        : Vector KeyRaw 8
  /-- A KREF fault exists at the boot sampling. -/
  krefFault    : Bool
  /-- Density of the capture PSRAM from its SFDP table, in bytes (R415). -/
  psramDensity : Nat
  /-- The flash gives an SFDP table naming 1-4-4 fast read (R114), and answers the reads of copy A and of copy B with what it
  holds (R113). -/
  sfdpOk       : Bool
  readA        : Bool
  readB        : Bool
  deriving DecidableEq, Repr

/-- The receivers of cells (R215), each with the sender that the link joins to it. -/
inductive Receiver where
  /-- An engine, from a line die over a fabric link. -/
  | engine (e : Eng) (d : LineDie)
  /-- An engine, from KP over its keeper link. -/
  | engineKeeper (e : Eng)
  /-- A line die, from an engine over a fabric link. -/
  | line (d : LineDie) (e : Eng)
  /-- KP, from an engine over its keeper link. -/
  | keeper (e : Eng)
  deriving DecidableEq, Repr

/-- The classes of cells (R210). -/
inductive CellClass where
  | rally
  | circuit
  | packet
  | beat
  deriving DecidableEq, Repr

/-- A flow kept in SEQ order (R215): by source for input cells, by destination for output cells, by both for packets. -/
structure Flow where
  cls  : CellClass
  src  : Nat
  dest : Nat
  deriving DecidableEq, Repr

/-- Where a rally cell is checked (R321). -/
inductive RallyStage where
  | atEngine
  | atDie
  deriving DecidableEq, Repr

/-- The memories that are lent (R416): the tally FRAM on LEND_T_REQ, the capture PSRAM on LEND_C_REQ. -/
inductive LendTarget where
  | tally
  | capture
  deriving DecidableEq, Repr

/-- The masters of the bus matrix (R408). -/
inductive Master where
  | loader
  | captureX
  | captureY
  | dump
  | proof
  | lendMonitor
  deriving DecidableEq, Repr

/-- The targets of the bus matrix (R95, R408). -/
inductive Target where
  | flash
  | psram
  | fram
  | sram
  deriving DecidableEq, Repr

/-- The functions of the masters (R409). -/
inductive MatrixFn where
  | pageRead
  | tallyRing
  | recordBuffer
  | captureRing
  | proofScratch
  | proofPage
  | lendCheckTally
  | lendCheckCapture
  deriving DecidableEq, Repr

/-- One request of a master (R409): which function's region, the offset in it, read or write with the bytes written,
and whether it is a record's commit word (R413). -/
structure BurstReq where
  master : Master
  fn     : MatrixFn
  offset : Nat
  len    : Nat
  write  : Bool
  bytes  : List Byte
  commit : Bool
  deriving DecidableEq, Repr

/-- The two lines of a protected pair (R244). -/
inductive PairLine where
  | working
  | protect
  deriving DecidableEq, Repr

/-- The two conditions that hold-off applies to (R254). -/
inductive FailCond where
  | sf
  | sd
  deriving DecidableEq, Repr

/-- A frame of the partner channel as the access point lifts it (R237, R364): its octets from ADDR to the FCS, and
whether it ended in an abort. -/
structure PartnerFrame where
  octets  : List Byte
  aborted : Bool
  deriving DecidableEq, Repr

/-- The commands: the events of spec/opcode_table.json. `k` is the tick within the present frame at which the event
falls. -/
inductive Instr where
  /-- TURN_BOUNDARY (R25). -/
  | turnBoundary (o : TurnObs)
  /-- FRAME_BOUNDARY (R217). -/
  | frameBoundary (o : FrameObs)
  /-- LATCH_AIS (R331). -/
  | latchAis (p : Port) (k : Tick)
  /-- LATCH_FAILOVER (R329). -/
  | latchFailover (p : Port) (k : Tick)
  /-- REFERENCE_LOSS (R48). -/
  | referenceLoss (k : Tick)
  /-- CANDIDATE_QUALIFIED (R34). -/
  | candidateQualified (p : Port)
  /-- REFIN_QUALIFIED (R35). -/
  | refinQualified
  /-- CANDIDATE_DISQUALIFIED (R34, R35); `outOfRange`: the DPLL reports it outside the pull-in range. -/
  | candidateDisqualified (c : RefCand) (outOfRange : Bool) (k : Tick)
  /-- XIN_STOPPED (R52). -/
  | xinStopped (k : Tick)
  /-- COUNTING_RESUME (R53); `n`: keeper-crystal periods counted since the first uncounted position. -/
  | countingResume (n : Nat)
  /-- ACTIVE_PAGE_RELOAD_DONE (R471), with what each powered engine reports. -/
  | activePageReloadDone (x y : Option LoadReport)
  /-- LIVE_KEY_SAMPLE (R67): KEY_MODE, KEY_PAGE, KEY_CMD, KEY_TALLY. -/
  | liveKeySample (mode page cmd tally : KeyRaw)
  /-- RESET_N_ASSERT (R83). -/
  | resetNAssert (k : Tick)
  /-- START_RECOGNISED (R467). -/
  | startRecognised (o : StartObs) (k : Tick)
  /-- VALIDATION_COMPLETE (R116). -/
  | validationComplete (k : Tick)
  /-- PAGE_LOAD_COMPLETE (R118), with what each powered engine reports. -/
  | pageLoadComplete (x y : Option LoadReport) (k : Tick)
  /-- DOZE_REQUEST (R148). -/
  | dozeRequest (k : Tick)
  /-- DOZE_ENTRY (R469), with what the turn that its boundary ends has shown. -/
  | dozeEntry (o : TurnObs)
  /-- DOZE_WAKE (R471). -/
  | dozeWake
  /-- LEND_REQUEST (R416). -/
  | lendRequest (m : LendTarget) (k : Tick)
  /-- LEND_GRANT (R416). -/
  | lendGrant (m : LendTarget) (k : Tick)
  /-- LEND_RELEASE (R416); `wrote`: the bytes (address, byte) the host changed in the memory while it held it. -/
  | lendRelease (m : LendTarget) (wrote : List (Nat × Byte)) (k : Tick)
  /-- LEND_CHECK (R420). -/
  | lendCheck (m : LendTarget) (k : Tick)
  /-- FOLLOW_DRIVE_START (R348). -/
  | followDriveStart (p : Port) (k : Tick)
  /-- HINGE_ENERGISE (R350). -/
  | hingeEnergise (p : Port) (k : Tick)
  /-- TERMINATION_ON (R155). -/
  | terminationOn (p : Port) (k : Tick)
  /-- TAKEOVER (R351). -/
  | takeover (p : Port) (k : Tick)
  /-- RELEASE_BEGIN (R354): boundary B of the port is reached. -/
  | releaseBegin (p : Port) (k : Tick)
  /-- TERMINATION_OFF (R354). -/
  | terminationOff (p : Port) (k : Tick)
  /-- RELEASE_COMPLETE (R354). -/
  | releaseComplete (p : Port) (k : Tick)
  /-- LOS_DECLARE (R171). -/
  | losDeclare (p : Port) (w : LineObs) (k : Tick)
  /-- LOS_CLEAR (R172). -/
  | losClear (p : Port) (w : LineObs) (k : Tick)
  /-- AIS_DECLARE (R173), with the bits received since those of the frames written before. -/
  | aisDeclare (p : Port) (bits : List Bool) (k : Tick)
  /-- AIS_CLEAR (R173), with the bits received since those of the frames written before. -/
  | aisClear (p : Port) (bits : List Bool) (k : Tick)
  /-- BIPOLAR_VIOLATION (R165): of the pulse in bit period `i` of those seen. -/
  | bipolarViolation (p : Port) (w : List Pulse) (i : Nat) (k : Tick)
  /-- EXCESS_ZEROS (R165): at the last of the bit periods seen. -/
  | excessZeros (p : Port) (w : List Pulse) (k : Tick)
  /-- TRANSMIT_CURRENT_LIMIT (R163). -/
  | transmitCurrentLimit (p : Port) (k : Tick)
  /-- VLINE_OUT_OF_RANGE (R161). -/
  | vlineOutOfRange (k : Tick)
  /-- FRAME_ALIGNMENT_GAINED (R181), with the bits received since those the framer has been given before. -/
  | frameAlignmentGained (p : Port) (bits : List Bool) (k : Tick)
  /-- T1_FRAME_ALIGNED (R189), with the bits received since those the framer has been given before. -/
  | t1FrameAligned (p : Port) (bits : List Bool) (k : Tick)
  /-- LOSS_OF_FRAME (R180); `head`: the first octet of the frame in receipt, on T1 its F bit in bit 7. -/
  | lossOfFrame (p : Port) (head : Byte) (k : Tick)
  /-- CRC4_MULTIFRAME_ALIGNED (R183); `bit1`: bit 1 of TS0 of the frame in receipt. -/
  | crc4MultiframeAligned (p : Port) (bit1 : Bool) (k : Tick)
  /-- CRC4_FALLBACK (R184). -/
  | crc4Fallback (p : Port) (k : Tick)
  /-- CRC4_FALLBACK_EXIT (R184); `bit1`: bit 1 of TS0 of the frame in receipt. -/
  | crc4FallbackExit (p : Port) (bit1 : Bool) (k : Tick)
  /-- CRC4_WINDOW_CLOSE (R186). -/
  | crc4WindowClose (p : Port) (k : Tick)
  /-- CRC_BLOCK_CHECKED (R206); `check`: the last check bit, in the frame in receipt. -/
  | crcBlockChecked (p : Port) (check : Bool) (k : Tick)
  /-- CAS_MULTIFRAME_ALIGNED (R187); `ts16`: TS16 of the frame in receipt. -/
  | casMultiframeAligned (p : Port) (ts16 : Byte) (k : Tick)
  /-- CAS_MULTIFRAME_LOST (R187); `ts16`: TS16 of the frame in receipt. -/
  | casMultiframeLost (p : Port) (ts16 : Byte) (k : Tick)
  /-- RAI_DECLARE (R192); `octets`: the frame in receipt as far as it has been received. -/
  | raiDeclare (p : Port) (octets : List Byte) (k : Tick)
  /-- RAI_CLEAR (R192); `octets`: the frame in receipt as far as it has been received. -/
  | raiClear (p : Port) (octets : List Byte) (k : Tick)
  /-- LINE_TIMED_FRAME_START (R135). -/
  | lineTimedFrameStart (p : Port) (k : Tick)
  /-- SELECTION_WORD_RECEIVED (R261). -/
  | selectionWordReceived (d : LineDie) (k : Tick)
  /-- HOLD_OFF_EXPIRY (R254). -/
  | holdOffExpiry (g : PairId) (l : PairLine) (c : FailCond)
  /-- WTR_EXPIRY (R259). -/
  | wtrExpiry (g : PairId)
  /-- OFFSET_CONFIRMED (R256); `d`: the differential delay in bits (R255). -/
  | offsetConfirmed (g : PairId) (d : Int) (k : Tick)
  /-- CONFIRMATION_LOST (R256); `d`: the delay measured now. -/
  | confirmationLost (g : PairId) (d : Int) (k : Tick)
  /-- ANALYSER_SYNC (R278). -/
  | analyserSync (i : PatId)
  /-- ANALYSER_SYNC_LOSS (R279). -/
  | analyserSyncLoss (i : PatId)
  /-- CELL_ARRIVAL (R215): header word and payload as received. -/
  | cellArrival (r : Receiver) (l : LinkId) (hdr : BitVec 64) (payload : List Byte) (k : Tick)
  /-- RESEQUENCER_TIMEOUT (R215). -/
  | resequencerTimeout (r : Receiver) (w : Flow) (k : Tick)
  /-- LANE_LOCK_LOSS (R214). -/
  | laneLockLoss (d : LineDie) (e : Eng) (l : LinkId) (k : Tick)
  /-- BEAT_RECEIVED (R314): header word and payload as received. -/
  | beatReceived (d : LineDie) (e : Eng) (l : LinkId) (hdr : BitVec 64) (payload : List Byte) (k : Tick)
  /-- BEAT_TIMEOUT (R314). -/
  | beatTimeout (d : LineDie) (e : Eng) (k : Tick)
  /-- RALLY_LAUNCH (R319): rally cell r of line die d in the present frame. -/
  | rallyLaunch (d : LineDie) (r : Fin 2)
  /-- RALLY_DEADLINE (R321): of rally cell r of line die d through engine e, at one of its two checks. -/
  | rallyDeadline (d : LineDie) (r : Fin 2) (e : Eng) (st : RallyStage) (k : Tick)
  /-- RALLY_FAILURE_REPORT (R323). -/
  | rallyFailureReport (d : LineDie) (e : Eng) (k : Tick)
  /-- HEARTBEAT_WORD (R311), carrying the engine's present claim. -/
  | heartbeatWord (e : Eng) (claim : BitVec 4) (k : Tick)
  /-- INCUMBENCY_GRANT (R311). -/
  | incumbencyGrant (k : Tick)
  /-- DIE_LOST (R336). -/
  | dieLost (d : DieId) (k : Tick)
  /-- MIRROR_RECEIVED (R377). -/
  | mirrorReceived (w : PartnerFrame) (k : Tick)
  /-- ACK_RECEIVED (R376). -/
  | ackReceived (w : PartnerFrame) (k : Tick)
  /-- TIME_RECEIVED (R370). -/
  | timeReceived (w : PartnerFrame) (k : Tick)
  /-- MEET_RECEIVED (R382); `a`: the keeper-crystal instant of arrival, in periods since RESET_N was last released, as
  every such instant. -/
  | meetReceived (w : PartnerFrame) (a : Nat) (k : Tick)
  /-- PARTNER_FRAME_SENT (R373). -/
  | partnerFrameSent (k : Tick)
  /-- PARTNER_LOST (R380). -/
  | partnerLost
  /-- MEETING_INSTANT (R381); `a`: the keeper-crystal instant. -/
  | meetingInstant (a : Nat)
  /-- LISTENING_WINDOW_OPEN (R383); `a`: the keeper-crystal instant. -/
  | listeningWindowOpen (a : Nat)
  /-- LISTENING_WINDOW_END (R384); `a`: the keeper-crystal instant. -/
  | listeningWindowEnd (a : Nat)
  /-- TIMER_MATCH (R393). -/
  | timerMatch (i : TimerId) (k : Tick)
  /-- TIMER_OVERFLOW (R394). -/
  | timerOverflow (i : TimerId) (k : Tick)
  /-- ALARM_PULSE_END (R398). -/
  | alarmPulseEnd (k : Tick)
  /-- MATRIX_REQUEST (R409). -/
  | matrixRequest (q : BurstReq) (k : Tick)
  /-- BURST_COMPLETE (R410). -/
  | burstComplete (t : Target) (k : Tick)
  /-- TALLY_COMMIT (R423). -/
  | tallyCommit (k : Tick)
  /-- MAIN_FAIL (R457); `vcell`: VCELL in millivolts; `n`: while position is not counted, the keeper-crystal periods since the first
  position not counted. -/
  | mainFail (vcell n : Nat) (k : Tick)
  /-- ENGINES_POWER_DOWN (R457). -/
  | enginesPowerDown
  /-- LINE_DIES_POWER_DOWN (R457), with what the turn has shown where its boundary is the end of a turn. -/
  | lineDiesPowerDown (o : TurnObs)
  /-- LAST_ENTRY (R454); `n`: keeper-crystal periods counted since the first uncounted position. -/
  | lastEntry (n : Nat)
  /-- LAST_WORDS_WRITE_DONE (R462). -/
  | lastWordsWriteDone
  /-- DARK_ENTRY (R456). -/
  | darkEntry
  /-- MAIN_STABLE (R455). -/
  | mainStable
  /-- COLD_START (R464). -/
  | coldStart
  /-- RAILS_IN_RANGE (R448, R449): `core`: VCORE and VIO, `vline`: VLINE have been in range for 64 keeper-crystal periods. -/
  | railsInRange (core vline : Bool)
  /-- CORE_RAIL_OUT_OF_RANGE (R449). -/
  | coreRailOutOfRange (k : Tick)
  /-- EXTEST (R490), with the bits of a data scan and the levels that the board has on the scanned balls. -/
  | extest (bits seen : List Bool)
  /-- SAMPLE_PRELOAD (R490), with the bits shifted in and the levels that the board has on the scanned balls. -/
  | samplePreload (bits seen : List Bool)
  /-- IDCODE (R490). -/
  | idcode
  /-- HIGHZ (R490). -/
  | highz
  /-- CLAMP (R490). -/
  | clamp
  /-- HALT_SET (R491). -/
  | haltSet (k : Tick)
  /-- HALT_CLR (R491). -/
  | haltClr (k : Tick)
  /-- BYPASS (R490), with the 4-bit code loaded, 0b1111 or a code the table of R490 does not list, and the bits of a data scan. -/
  | bypass (code : BitVec 4) (bits : List Bool)
  /-- TEST_LOGIC_RESET (R491). -/
  | testLogicReset (k : Tick)
  /-- FRAME_WRITTEN_IN_LINE_TIME (R201): octets of the frame; on T1 the first holds the F bit in bit 7. -/
  | frameWrittenInLineTime (p : Port) (w : RxPulses) (k : Tick)
  /-- LIFTED_FRAME (R237), with the carriage bits of the frame in receipt up to the closing flag. -/
  | liftedFrame (p : Port) (bits : List Bool) (k : Tick)
  /-- LINK_REGAINS_LOCK (R214). -/
  | linkRegainsLock (d : LineDie) (e : Eng) (l : LinkId) (k : Tick)
  /-- VKEEP_COLLAPSES (R456). -/
  | vkeepCollapses
  /-- ALARM_CONDITION_MINIMUM_END (R398). -/
  | alarmConditionMinimumEnd (k : Tick)
  deriving DecidableEq, Repr

end Sys2Proof
end

