-- ==== Sys2Proof/Decode.lean ====
section
/-! DEFINITION. Words that spell commands: spec/opcode_table.json gives its rows no bits, so no word spells one. -/

namespace Sys2Proof

/-- The command that a word spells by the table's bits: none of the table's rows has any. -/
def decodeTableWord (_nbits _w : Nat) : Option Instr := none

end Sys2Proof
end

