-- ==== Sys2Proof/Config.lean ====
section
/-! DEFINITION. The free values: constants without a body, so that no proof can rest on a number the manual does not give. -/

namespace Sys2Proof.Config

/-- Values the manual leaves open, by the count of those used before (`State.freeIdx`). -/
opaque freeByte : Nat → Byte

end Sys2Proof.Config
end

