-- ==== Sys2Proof/Machine/Bits.lean ====
section
/-! DEFINITION. Bit fields, byte order (R11), the three cyclic codes (R92, R211, R365) and the tally float (R299,
R300). -/

namespace Sys2Proof.Machine

/-- Bit `i` of a natural number. -/
def bitOf (w i : Nat) : Bool := w.testBit i

/-- The field of `len` bits of `w` whose lowest bit is `lo`. -/
def fieldOf (w lo len : Nat) : Nat := (w >>> lo) % 2 ^ len

/-- A Boolean as a number. -/
def b2n (b : Bool) : Nat := if b then 1 else 0

/-- `len` bytes of a number, little-endian (R11). -/
def leBytes : Nat → Nat → List Byte
  | 0, _ => []
  | len + 1, v => BitVec.ofNat 8 v :: leBytes len (v / 256)

/-- The number that little-endian bytes stand for (R11). -/
def leNat : List Byte → Nat
  | [] => 0
  | b :: bs => b.toNat + 256 * leNat bs

/-- `n` zero bytes. -/
def zeros (n : Nat) : List Byte := List.replicate n 0

/-- Cut or fill with zeros to exactly `n` bytes. -/
def fitTo (n : Nat) (l : List Byte) : List Byte := l.take n ++ zeros (n - l.length)

/-- Byte `i` of a list, 0 past its end. -/
def byteAt (l : List Byte) (i : Nat) : Byte := l.getD i 0

/-- The natural number in bytes `i` to `i + len - 1`, little-endian. -/
def leField (l : List Byte) (i len : Nat) : Nat := leNat ((l.drop i).take len)

/-- The bits of an octet in the order sent: bit 7 first (R106). -/
def octetBits (b : Byte) : List Bool := (List.range 8).map (fun i => bitOf b.toNat (7 - i))

/-- The octet with these bits, the first in bit 7; missing bits are 0. -/
def bitsOctet (l : List Bool) : Byte :=
  BitVec.ofNat 8 ((List.range 8).foldl (fun a i => 2 * a + b2n (l.getD i false)) 0)

/-- Replace element `i` of a list; past its end nothing changes. -/
def putAt {α : Type} (l : List α) (i : Nat) (a : α) : List α := l.set i a

/-- Replace bytes of a list at an offset. -/
def replaceAt (l : List Byte) (off : Nat) (v : List Byte) : List Byte := l.take off ++ v ++ l.drop (off + v.length)

/-- Apply `f` at index `i` of a vector. -/
def updV {α : Type} {n : Nat} (v : Vector α n) (i : Fin n) (f : α → α) : Vector α n := v.set i (f v[i])

/-- One bit of the reflected CRC-32 of polynomial 0x04C11DB7. -/
def crc32Bit (c : BitVec 32) : BitVec 32 :=
  if c.getLsbD 0 then (c >>> 1) ^^^ 0xEDB88320#32 else c >>> 1

/-- One byte of CRC-32. -/
def crc32Byte (c : BitVec 32) (b : Byte) : BitVec 32 :=
  let x := c ^^^ b.zeroExtend 32
  crc32Bit (crc32Bit (crc32Bit (crc32Bit (crc32Bit (crc32Bit (crc32Bit (crc32Bit x)))))))

/-- CRC-32 (R92). -/
def crc32 (l : List Byte) : BitVec 32 := (l.foldl crc32Byte 0xFFFFFFFF#32) ^^^ 0xFFFFFFFF#32

/-- CRC-32 register carried over `len` bytes that `rd` gives from address `a` on. -/
def crc32Range (rd : Nat → Byte) : Nat → Nat → BitVec 32 → BitVec 32
  | 0, _, c => c
  | len + 1, a, c => crc32Range rd len (a + 1) (crc32Byte c (rd a))

/-- One bit of CRC-8 with x^8 + x^2 + x + 1, no reflection. -/
def crc8Bit (c : BitVec 8) : BitVec 8 :=
  if c.getLsbD 7 then (c <<< 1) ^^^ 0x07#8 else c <<< 1

/-- One byte of the header check. -/
def crc8Byte (c b : Byte) : BitVec 8 :=
  crc8Bit (crc8Bit (crc8Bit (crc8Bit (crc8Bit (crc8Bit (crc8Bit (crc8Bit (c ^^^ b))))))))

/-- CRC-8 of the header check (R211). -/
def crc8 (l : List Byte) : Byte := l.foldl crc8Byte 0#8

/-- Bits 63 to 8 of a header, bit 63 first, as seven bytes. -/
def headerBytes (h : BitVec 64) : List Byte :=
  (List.range 7).map (fun i => (h >>> (56 - 8 * i)).truncate 8)

/-- The HEC a header must carry (R211). -/
def hecOf (h : BitVec 64) : Byte := crc8 (headerBytes h)

/-- The header's own HEC field agrees (R211). -/
def hecGood (h : BitVec 64) : Bool := h.truncate 8 == hecOf h

/-- One bit of the reflected FCS-16, polynomial x^16 + x^12 + x^5 + 1. -/
def fcs16Bit (c : BitVec 16) : BitVec 16 :=
  if c.getLsbD 0 then (c >>> 1) ^^^ 0x8408#16 else c >>> 1

/-- One octet of FCS-16. -/
def fcs16Byte (c : BitVec 16) (b : Byte) : BitVec 16 :=
  let x := c ^^^ b.zeroExtend 16
  fcs16Bit (fcs16Bit (fcs16Bit (fcs16Bit (fcs16Bit (fcs16Bit (fcs16Bit (fcs16Bit x)))))))

/-- FCS-16 (R365). -/
def fcs16 (l : List Byte) : BitVec 16 := (l.foldl fcs16Byte 0xFFFF#16) ^^^ 0xFFFF#16

/-- A frame of octets ends in its FCS, little-endian (R364, R365). -/
def fcsGood (l : List Byte) : Bool :=
  decide (2 ≤ l.length) && (leField l (l.length - 2) 2 == (fcs16 (l.take (l.length - 2))).toNat)

/-- Octets with their FCS appended. -/
def withFcs (l : List Byte) : List Byte := l ++ leBytes 2 (fcs16 l).toNat

/-- A count held at `top` (R208). -/
def satAdd (top a n : Nat) : Nat := if a + n ≤ top then a + n else top

/-- A 32-bit counter that holds at 0xFFFF_FFFF (R208). -/
def sat32 (c : BitVec 32) (n : Nat) : BitVec 32 := BitVec.ofNat 32 (satAdd 0xFFFFFFFF c.toNat n)

/-- A 16-bit counter that holds at 0xFFFF. -/
def sat16 (c : BitVec 16) (n : Nat) : BitVec 16 := BitVec.ofNat 16 (satAdd 0xFFFF c.toNat n)

/-- The tally float of a count (R300). -/
def tallyFloat (v : Nat) : Nat :=
  if v < 4096 then v
  else if 134217728 ≤ v then 0xFFFF
  else
    let e := Nat.log2 v - 11
    e * 4096 + ((v >>> (e - 1)) - 4096)

/-- The count a tally float stands for (R299). -/
def tallyFloatValue (x : Nat) : Nat :=
  let e := x / 4096 % 16
  let m := x % 4096
  if e = 0 then m else (m + 4096) * 2 ^ (e - 1)

/-- Round to the nearest whole multiple, halves upward (R53). -/
def roundDiv (a b : Nat) : Nat := (2 * a + b) / (2 * b)

/-- Division rounded up. -/
def ceilDiv (a b : Nat) : Nat := (a + (b - 1)) / b

/-- Set or clear bit `i` of a mask. -/
def setBit {w : Nat} (m : BitVec w) (i : Nat) (b : Bool) : BitVec w :=
  if b then m ||| (1#w <<< i) else m &&& ~~~ (1#w <<< i)

/-- A mask with bit `i` set where `f i` holds. -/
def maskOf (w : Nat) (f : Nat → Bool) : BitVec w :=
  BitVec.ofNat w ((List.range w).foldl (fun a i => a + b2n (f i) * 2 ^ i) 0)

/-- All 32 ports in ascending order. -/
def allPorts : List Port := List.finRange 32

/-- All 16 pairs, timers or pattern definitions in ascending order. -/
def all16 : List (Fin 16) := List.finRange 16

end Sys2Proof.Machine
end

