-- ==== Sys2Proof/Machine/State.lean ====
section
/-! DEFINITION. The state of the KX32D-M as plain data, the two outcome types, and the state after first power. -/

namespace Sys2Proof.Machine

/-- No command of this block stops: the spec gives every event of its table an effect, so no meaning raises a fault
(safe: there is none to raise). -/
inductive Fault where
  deriving DecidableEq, Repr

/-- Why a command is turned away. -/
inductive Refusal where
  /-- Raised by an arm of `exec` whose command has no meaning in the model yet (safe: the run ends there). -/
  | notModelled (mnemonic : String)
  deriving DecidableEq, Repr

/-- A byte-addressed memory: address and byte pairs, strictly rising, none equal to what an unlisted address reads as. -/
abbrev Mem := List Host.Cell

/-! ### Position and reference (02_position_time) -/

/-- A position T:F:K (R7, R42). -/
structure Pos where
  t : BitVec 48
  f : BitVec 5
  k : BitVec 11
  deriving DecidableEq, Repr

/-- How ticks are being generated (R38, R48, R49, R51): from a locked reference, while slewing to a reference taken
from holdover or from free-run with the lock criterion not yet met, in holdover, or in free-run. -/
inductive TickMode where
  | locked
  | slewFromHold
  | slewFromFree
  | holdover
  | freeRun
  deriving DecidableEq, Repr

/-- The position engine: counters, stamp quality, reference and DPLL (R32 to R55, R500 to R502). -/
structure Timebase where
  /-- Position is being counted. -/
  counting      : Bool
  /-- R45: EST, GAP and COLD as they stand. -/
  est           : Bool
  gap           : Bool
  cold          : Bool
  /-- R45 SWITCH: the reference changed, or was lost or regained, in the present turn. -/
  switched      : Bool
  /-- SWITCH of the turn before, as the last of its positions had it. -/
  switchedOld   : Bool
  /-- Level of KEY_REF whose candidate list is in force (R32). -/
  refLevel      : BitVec 4
  /-- Level read at a start, in force from (T0 + 1):0:0 (R500). -/
  newRefLevel   : Option (BitVec 4)
  /-- The present reference. -/
  present       : Option RefCand
  mode          : TickMode
  /-- Consecutive turns within 0.1 ppm of the reference, up to 8 (R39). -/
  inLockTurns   : Nat
  /-- Turns for which the lock criterion has been met continuously, up to 252 (R48). -/
  lockedTurns   : Nat
  /-- Mean tick frequency of the latest turns, latest first, at most 252 (R48). -/
  freqs         : List Int
  /-- 250 times the frequency held in holdover, or recorded where counting stopped (R48, R501). -/
  heldSum       : Int
  /-- The holdover condition held, or holdover was in force, where counting stopped (R501). -/
  heldAtStop    : Bool
  /-- Per port: consecutive frame boundaries without LOS or AIS and with basic alignment, up to 64 (R34). -/
  goodFrames    : Vector Nat 32
  /-- Per port: qualified, and for how many turn boundaries, up to 2500 (R34, R37). -/
  qualified     : Vector Bool 32
  qualifiedFor  : Vector Nat 32
  /-- REFIN: qualified, and for how many turn boundaries (R35, R37). -/
  refinQual     : Bool
  refinFor      : Nat
  /-- Consecutive position frames in which no edge of REFIN was missing, up to 64 (R35). -/
  refinFrames   : Nat
  /-- First uncounted position in ticks, while position is not counted (R52). -/
  stopAt        : Nat
  /-- The second that contains the present position was counted from after its start (R427 SECOND bit 0). -/
  partialSecond : Bool
  deriving DecidableEq, Repr

/-! ### Keys and pins (03_keys_and_pins) -/

/-- A live key (R67 to R72). -/
structure LiveKey where
  /-- Level in effect from the key's own readings; none: the held value of R70. -/
  value    : Option (BitVec 4)
  /-- Level accepted at a boundary and not yet in effect (R68). -/
  accepted : Option (BitVec 4)
  /-- Sample S(T - 1): none when ambiguous, discarded or not taken. -/
  older    : Option (BitVec 4)
  /-- Sample S(T), taken in frame 31 of the present turn. -/
  newer    : Option (BitVec 4)
  /-- The latest sample was ambiguous (R69), as the header of the next turn shows. -/
  ambNext  : Bool
  /-- The ambiguous-sample bit of the present turn's header (R441). -/
  ambNow   : Bool
  /-- Ambiguous samples since the last record (R69, R427). -/
  ambCount : Nat
  deriving DecidableEq, Repr

/-- The keys (R66 to R79). -/
structure Keys where
  /-- KEY_G0, G1, G2, G3, REF, IMG, ENG, PART; none: ambiguous (R66). -/
  boot       : Vector (Option (BitVec 4)) 8
  bootAmb    : BitVec 8
  /-- KEY_MODE, KEY_PAGE, KEY_CMD, KEY_TALLY. -/
  live       : Vector LiveKey 4
  /-- Unassigned-level flags in the order of R427. -/
  unassigned : BitVec 12
  krefFault  : Bool
  /-- Samples of this turn or a later one count (R67). -/
  sampleFrom : Nat
  /-- Range of each key's reader (R58): the eight boot keys, then the four live keys. -/
  ranges     : Vector Range 12
  deriving DecidableEq, Repr

/-- The logic pins that the machine keeps (R83). -/
structure Pins where
  /-- RESET_N is high. -/
  resetN    : Bool
  /-- DOZE is high. -/
  doze      : Bool
  /-- READY is driven low (R468). -/
  ready     : Bool
  deriving DecidableEq, Repr

/-! ### Image and loader (04_wosar_image) -/

/-- The two copies of the image (R88). -/
inductive Copy where
  | a
  | b
  deriving DecidableEq, Repr

/-- A read of one page by the loader (R116 to R122). -/
structure Load where
  page     : Nat
  copy     : Copy
  /-- The read from the other copy, after a first read failed (R119). -/
  second   : Bool
  /-- Bound for the active memories: page 0 after validation, the reload after a wake, or a cold rejoin. -/
  toActive : Bool
  deriving DecidableEq, Repr

/-- The map flash, what validation found, and the loader. -/
structure Image where
  flash      : Mem
  /-- What the loader's reads of this start give: a good SFDP table, and each copy as the flash holds it (R113, R114). -/
  sfdpOk     : Bool
  readA      : Bool
  readB      : Bool
  aValid     : Bool
  bValid     : Bool
  /-- The copy in use (R114). -/
  inUse      : Option Copy
  /-- Image status field (R115). -/
  status     : BitVec 8
  /-- Window set named by KEY_IMG (R73). -/
  windowSet  : Nat
  /-- Density of the capture PSRAM found at the start (R415). -/
  density    : Nat
  load       : Option Load
  /-- The page that a refused load stands for (R119). -/
  refused    : Option Nat
  /-- The alarm condition of that refusal holds (R119). -/
  refusedOn  : Bool
  /-- The last page request held while the engines are in retention (R129, R130). -/
  heldPage   : Option Nat
  /-- The page requested on leaving retention, until it is swapped in, refused or found absent (R130). -/
  awaited    : Option Nat
  /-- The page that was active when counting stopped (R471). -/
  wakePage   : Nat
  /-- The active page, and the copy it was loaded from; none until page 0 has been loaded after a start (R116, R125). -/
  inForce    : Option (Nat × Copy)
  deriving DecidableEq, Repr

/-! ### Modes and ports (05_modes, 06_line_front_ends, 07_framing, 13_hinges_rest_states) -/

/-- The eight modes (R77). -/
inductive Mode where
  | rest
  | watch
  | through
  | cross
  | loop
  | pattern
  | guarded
  | proof
  deriving DecidableEq, Repr

/-- The role of a port (R126); a line-timed port names the port whose line times it. -/
inductive Role where
  | bypassed
  | lineTimed (timing : Port)
  | grid
  deriving DecidableEq, Repr

/-- What an inserted port sends (R128): the page, the passing signal with inserted slots, the passing signal alone, the
selected line of its pair, its partner's line, or its partner's slots under fresh framing. -/
inductive Content where
  | page
  | through
  | pass
  | selected
  | lineLoop
  | payload
  deriving DecidableEq, Repr

/-- The steps of an insertion or release sequence (R350, R354). -/
inductive Seq where
  | idle
  | building
  | following
  | energised
  | terminated
  | awaitB
  | released
  | unterminated
  deriving DecidableEq, Repr

/-- What a transmitter does (R161, R348). -/
inductive TxDrive where
  | hiZ
  | follow
  | drive
  deriving DecidableEq, Repr

/-- A hinge and the sequence of its port (R343 to R358). -/
structure Hinge where
  role      : Role
  /-- What the port sends, or will send once it is inserted. -/
  content   : Content
  seq       : Seq
  /-- The role that an insertion in progress leads to. -/
  target    : Role
  /-- The turn at whose boundary the insertion or release began. -/
  start     : Nat
  /-- The tick at which a release began, and whether RIDE entry began it (R354, R355). -/
  relTick   : Nat
  ride      : Bool
  /-- Boundary B of a release, in ticks (R355). -/
  boundary  : Nat
  /-- HNGn is driven low. -/
  driven    : Bool
  fault     : Bool
  lowBefore : Bool
  /-- A hinge fault held in the open second (R428). -/
  faultSeen : Bool
  /-- Waiting for alignment to insert (R144). -/
  waiting   : Bool
  /-- An abandoned insertion ends at its next step ("Where things meet" of 05_modes). -/
  abandoned : Bool
  deriving DecidableEq, Repr

/-- The windows of R173: bits and zeros of the one that runs, and the zeros of the last two that have closed. -/
structure AisWin where
  bits   : Nat
  zeros  : Nat
  last   : Option Nat
  before : Option Nat
  deriving DecidableEq, Repr

/-- The line front end of a port. -/
structure Line where
  /-- The KEY_Gn level that names the family; 0 when OFF (R73, R428). -/
  family     : BitVec 4
  lbo        : BitVec 3
  monitor    : BitVec 2
  cas        : Bool
  robbed     : Bool
  /-- The receiver and framer run (R127, R510). -/
  running    : Bool
  los        : Bool
  ais        : Bool
  terminated : Bool
  win        : AisWin
  tx         : TxDrive
  /-- Tick at which the transmitter of an insertion that was dropped stops driving: its next bit boundary (R162). -/
  stopAt     : Option Nat
  /-- A bit boundary of the port's received signal, as the start of follow drive showed it (R162, R350). -/
  bitAt      : Nat
  /-- The transmit current limit acted in the present turn, and in the turn before (R163). -/
  txLimit    : Bool
  txLimitOld : Bool
  deriving DecidableEq, Repr

/-- CRC-4 multiframe state (R183 to R186). -/
inductive CrcMf where
  | none
  | searching
  | aligned
  | fallback
  deriving DecidableEq, Repr

/-- The receive framer of a port. -/
structure Framer where
  aligned     : Bool
  /-- While not aligned: the received bits that the search still looks at, from the candidate position on (R181, R189). -/
  hunt        : List Bool
  crcMf       : CrcMf
  /-- Fallback has ended within the present multiframe: blocks are checked from the next on ("Where things meet" of 07_framing). -/
  crcFresh    : Bool
  /-- Frames received since basic alignment (R183). -/
  sinceBasic  : Nat
  casMf       : Bool
  rai         : Bool
  /-- ESF: the latest 64 FDL bits, oldest first, and the number of the frame in which RAI was declared (R192). -/
  fdl         : List Bool
  raiAt       : Nat
  /-- Multiframe frame number of the next frame: E1 0 to 15, T1 1 to 24 (12 in SF). -/
  frameNo     : Nat
  /-- CAS frame number of the next frame. -/
  casNo       : Nat
  /-- Open window of R186: blocks checked and errored. -/
  winBlocks   : Nat
  winErrors   : Nat
  /-- Signalling held per slot (R188, R190): A in bit 3. -/
  sig         : Vector (BitVec 4) 32
  /-- A first, a second sub-multiframe was errored since the last transmitted multiframe began (R197). -/
  eBitFirst   : Bool
  eBitSecond  : Bool
  deriving DecidableEq, Repr

/-- A frame as written into a receive slip buffer (R201): its octets, its number in the framer's count, the multiframe frame
number it is marked with, whether blocks were checked on the line, whether it is frame 0 of an aligned CAS multiframe,
its number in the order of receipt, the tick its last bit was written, and whether it was received in LOS, LOF or AIS. -/
structure RxFrame where
  octets : List Byte
  mf     : Nat
  mark   : Nat
  chk    : Bool
  cas0   : Bool
  number : Nat
  doneAt : Nat
  bad    : Bool
  deriving DecidableEq, Repr

/-- The slip buffers of a port, and its latest received frames (R133, R201, R204, R251): the 40 of the alignment buffer, and those
before them that the first blocks after a takeover are compared with (R352) and that four blocks of R256 take, 160 in all. -/
structure Slip where
  /-- Frames written and not yet read, oldest first. -/
  waiting  : List RxFrame
  /-- The first read has been made since alignment (R202). -/
  reading  : Bool
  lastRead : Option RxFrame
  /-- Tick of the latest gain of alignment; none when nothing may be read until the next (R202). -/
  alignedAt : Option Nat
  /-- LOS, LOF or AIS held at some moment of the line frame in receipt (R250, R511). -/
  badNow   : Bool
  /-- The latest received frames, latest first. -/
  history  : List RxFrame
  nextNo   : Nat
  /-- Position frame whose inserted slots the last line-timed frame carried (R135). -/
  lastQ    : Option Nat
  /-- Number of the received frame that the next line-timed frame passes on (R251). -/
  nextOut  : Option Nat
  /-- Controlled slips of the present turn, and of the turn before. -/
  slipTurn : Bool
  slipOld  : Bool
  deriving DecidableEq, Repr

/-- The raw counters of R206 and what the present position frame has shown so far. -/
structure Raw where
  c     : Vector (BitVec 32) 19
  /-- Events of the present frame, counted when it ends if the receiver ran throughout (R206). -/
  pend  : Vector Nat 19
  /-- The receiver and framer ran at every tick of the frame so far. -/
  ran   : Bool
  los   : Bool
  ais   : Bool
  lof   : Bool
  lomf  : Bool
  rai   : Bool
  /-- Fallback held in the present turn, and in the turn before (R184). -/
  fbTurn : Bool
  fbOld  : Bool
  /-- CRC_ERR events of the present turn, and of the turn before (R253, R442). -/
  crcTurn : Nat
  crcOld  : Nat
  /-- CRC_ERR events of the latest 250 turns, latest first (R253). -/
  crcTurns : List Nat
  deriving DecidableEq, Repr

/-- A capture register (R403). -/
structure Capture where
  stamp  : BitVec 64
  qual   : BitVec 8
  code   : BitVec 8
  count  : BitVec 16
  unread : Bool
  ovr    : Bool
  /-- A capture event was recorded in the present turn, and in the turn before (R442). -/
  evTurn : Bool
  evOld  : Bool
  deriving DecidableEq, Repr

/-- An output cell as a latch receives it (R221). -/
structure OutCell where
  seq     : BitVec 16
  page    : Nat
  payload : List Byte
  deriving DecidableEq, Repr

/-- An output latch (R314 to R316, R327 to R331). -/
structure Latch where
  accepted : Eng
  /-- Cells of each engine not yet consumed. -/
  cellsX   : List OutCell
  cellsY   : List OutCell
  /-- Last good frame. -/
  last     : Option OutCell
  /-- Consecutive held frames. -/
  held     : Nat
  ais      : Bool
  deriving DecidableEq, Repr

/-- What the encoder of a port keeps (R164): polarity of the last pulse sent, that of the last V pulse of HDB3, and the
zeros taken and not yet sent. -/
structure Coder where
  last  : Bool
  lastV : Bool
  zeros : Nat
  deriving DecidableEq, Repr

/-- The transmit framer of a port: the frame being sent (none: nothing is sent), whether it is AIS, and, for the check
bits, the octets (of a passing port: their change, R134) of the block in progress and the check bits of the block
before (R195, R198). -/
structure TxSt where
  octets  : Option (List Byte)
  ais     : Bool
  /-- Tick at which the frame being sent began, its multiframe frame number, and the SEQ of the output cell in it. -/
  start   : Nat
  mf      : Nat
  seq     : BitVec 16
  block   : List (List Byte)
  check   : Nat
  /-- Errored sub-multiframes that the E bits of the multiframe being sent report (R197). -/
  eFirst  : Bool
  eSecond : Bool
  /-- FDL or Sa bits still to send of the flag or RAI word in progress, and whether it is an RAI word (R198, R363). -/
  fill    : List Bool
  fillRai : Bool
  /-- The frame being sent is frame 0 of a CAS multiframe. -/
  cas0    : Bool
  /-- The encoder as it stood before the frame being sent (R164). -/
  coder   : Coder
  /-- Spans of ticks, latest first, in which a line loop returns AIS: from a tick, up to a tick (R137, R511). -/
  ones    : List (Nat × Option Nat)
  /-- In follow drive: the bit periods last reproduced (R348). -/
  follow  : List Pulse
  deriving DecidableEq, Repr

/-- A port. -/
structure PortSt where
  line    : Line
  hinge   : Hinge
  framer  : Framer
  slip    : Slip
  raw     : Raw
  capture : Capture
  latch   : Latch
  tx      : TxSt
  /-- Payload of the input cell built at the latest frame boundary (R217); none when no cell was built. -/
  inCell  : Option (List Byte)
  deriving DecidableEq, Repr

/-! ### Patterns and capture coding (10_pattern_engine, 11_coding_and_loss) -/

/-- A generator (R270 to R276, R282). -/
structure Gen where
  running : Bool
  reg     : BitVec 23
  /-- Bits of the fixed word sent; consecutive zeros sent (QRSS). -/
  phase   : Nat
  zeros   : Nat
  /-- Generated bits counted for the injection ratio (R282). -/
  counted : Nat
  /-- A single injection is due on the next generated bit. -/
  once    : Bool
  deriving DecidableEq, Repr

/-- What an analyser waits for before it takes more bits. -/
inductive AnaDue where
  | none
  | sync
  | loss
  deriving DecidableEq, Repr

/-- An analyser (R277 to R281). -/
structure Ana where
  inSync  : Bool
  reg     : BitVec 23
  loaded  : Nat
  correct : Nat
  phase   : Nat
  zeros   : Nat
  /-- Latest compared bits, latest first, at most 256. -/
  recent  : List Bool
  blkBits : Nat
  blkErrs : Nat
  /-- A bit of the present frame has been taken in HUNT (R283 PAT_NSFR). -/
  hunted  : Bool
  due     : AnaDue
  /-- Bits of the latest frame that wait for the transition due. -/
  rest    : List Bool
  deriving DecidableEq, Repr

/-- A pattern definition at work. -/
structure PatSt where
  active : Bool
  gen    : Gen
  ana    : Ana
  /-- PAT_GEN, PAT_INJ, PAT_CMP, PAT_ERR, PAT_LOSS, PAT_NSFR (R283). -/
  c      : Vector (BitVec 32) 6
  deriving DecidableEq, Repr

/-- The stream of one tapped slot (R294, R443). -/
structure Stream where
  port    : Port
  slot    : Nat
  codec   : BitVec 2
  /-- Octets handed to the coder since the stream began. -/
  octets  : List Byte
  /-- Octets and stream bytes already in chunks. -/
  taken   : Nat
  emitted : Nat
  /-- The stream begins in the chunk in progress; its first frame there; it has ended. -/
  begins  : Bool
  first   : Nat
  ends    : Bool
  deriving DecidableEq, Repr

/-! ### Requests of a protected pair (09_line_protection) -/

/-- Hold-off of one condition of one line (R254): frame boundaries for which it has held; it has become a request. -/
structure HoldOff where
  frames  : Nat
  request : Bool
  deriving DecidableEq, Repr

/-- Requests and selection of a pair as one engine computes them (R254, R257, R259, R261). -/
structure PairReq where
  hoSfW   : HoldOff
  hoSfP   : HoldOff
  hoSdW   : HoldOff
  hoSdP   : HoldOff
  /-- Frames of wait-to-restore still to run (R259). -/
  wtr     : Option Nat
  /-- Code of the request in force (R257). -/
  req     : Nat
  /-- Selection word computed for the latest frame: selects protect. -/
  word    : Bool
  deriving DecidableEq, Repr

/-! ### Cells and engines (08_slot_fabric, 12_duplicate_engines) -/

/-- A cell (R210). -/
structure Cell where
  cls     : CellClass
  dest    : Nat
  src     : Nat
  seq     : BitVec 16
  copy    : Nat
  cm      : Bool
  bt      : Bool
  dirn    : Bool
  eng     : Bool
  frag    : BitVec 2
  len     : Nat
  page    : Nat
  payload : List Byte
  deriving DecidableEq, Repr

/-- A cell held by a resequencer, with the tick of its arrival (R215). -/
structure HeldCell where
  cell : Cell
  at_  : Nat
  deriving DecidableEq, Repr

/-- One flow of a resequencer: the lowest SEQ not yet released, and the cells held past it. -/
structure FlowSt where
  flow : Flow
  next : BitVec 16
  held : List HeldCell
  deriving DecidableEq, Repr

/-- A link transmitter (R213, R214, R225): the cells queued, oldest first, a beat that takes the next cell boundary (R18), the
cell in transmission, and the ticks it still takes. -/
structure Lane where
  fifo : List Cell
  beat : Option Cell
  now  : Option Cell
  left : Nat
  deriving DecidableEq, Repr

/-- A fabric link between a line die and an engine (R214): lane lock, part in spraying, the transmitters towards the
engine and towards the die, and the header errors of cells that arrived over it in each direction (R211). -/
structure Link where
  locked   : Bool
  spraying : Bool
  up       : Lane
  down     : Lane
  hecUp    : Nat
  hecDown  : Nat
  deriving DecidableEq, Repr

/-- A queued cell of a virtual output queue: its input and output of the crossbar (R228). -/
structure QCell where
  inp  : Port
  out  : Port
  cell : Cell
  deriving DecidableEq, Repr

/-- A packet frame in an engine (R238 to R242): its flow, its number, how it is forwarded, whether it is being
discarded, and whether it is complete. -/
structure PacketFrame where
  flow      : Flow
  cut       : Bool
  discard   : Bool
  /-- It is discarded because a cell of it is missing (R240). -/
  gap       : Bool
  complete  : Bool
  octets    : List Byte
  cm        : Bool
  deriving DecidableEq, Repr

/-- The shadow memory of an engine (R116 to R122). -/
inductive Shadow where
  | empty
  | loading (page : Nat)
  | complete (page : Nat) (copy : Copy) (good : Bool)
  deriving DecidableEq, Repr

/-- Joining lock-step (R332, R335): none; a resync begun at turn `t`, of which `copied` says that the page copy is complete, and
`stated` that the state has been copied and follows its partner's; a cold rejoin begun at turn `t`. -/
inductive Rejoin where
  | none
  | resync (t : Nat) (copied stated : Bool)
  | cold (t : Nat)
  deriving DecidableEq, Repr

/-- Health, claim and management of an engine (R305 to R338). -/
structure EngCtl where
  powered     : Bool
  retention   : Bool
  health      : Nat
  incumbent   : Bool
  /-- Code of the last cause that lowered health (R317). -/
  cause       : Nat
  /-- Consecutive frames in which every rally check passed, and sync words agreed, up to 8. -/
  rallyRun    : Nat
  syncRun     : Nat
  scrubOk     : Bool
  computing   : Bool
  /-- Computing begins at the next frame boundary (R337). -/
  startNext   : Bool
  /-- Frames for which output cells have been computed, up to 8; since joining lock-step, up to 8. -/
  computed    : Nat
  joined      : Nat
  rejoin      : Rejoin
  /-- It has come back by a cold rejoin of its own while its partner held incumbency: its streams are not its partner's (R446). -/
  apart       : Bool
  /-- Evidence of the present frame (R328): a failed rally check, and a missing or late cell or a header error; consecutive
  frames in which the latter made it the culprit. -/
  rallyFail   : Bool
  rallyFailOld : Bool
  lateNow     : Bool
  lateRun     : Nat
  /-- Claim in the latest heartbeat word and beat it sent (R311, R317). -/
  word        : Nat
  /-- Lost by its heartbeat; power cycles that failed; left unpowered (R336). -/
  lost        : Bool
  cycles      : Nat
  leftOff     : Bool
  /-- Turn of the latest power restore (R336). -/
  restoredAt  : Nat
  deriving DecidableEq, Repr

/-- What the tally keeps of an engine over the open second (R432). -/
structure EngTally where
  minHealth  : Nat
  heldInc    : Bool
  /-- A resync or a cold rejoin was in progress within the open second (R432). -/
  resync     : Bool
  coldRejoin : Bool
  disagreed  : Bool
  mismatch   : Nat
  subst      : Nat
  culprit    : Nat
  rallyFail  : Nat
  proofRan   : Bool
  proofPart  : Bool
  proofErr   : Nat
  proofBad   : Bool
  /-- Header errors on its keeper link: of cells into this engine, and of its cells into KP (R211). -/
  hecKeeper  : Nat
  hecAtKeeper : Nat
  deriving DecidableEq, Repr

/-- The data part of an engine: pages, queues, output stage, fabric counters, and the protection, pattern and codec state that
it computes in lock-step with its partner (R261, R268, R305). -/
structure EngData where
  /-- Active page: number and the copy it was loaded from. -/
  active   : Nat
  activeCopy : Copy
  activeOk : Bool
  shadow   : Shadow
  /-- The page that governs the latest frame read (R120). -/
  govern   : Nat
  governCopy : Copy
  rally    : List QCell
  circuit  : List QCell
  packet   : List QCell
  /-- Round-robin pointers of outputs and inputs (R224). -/
  rrOut    : Vector Nat 32
  rrIn     : Vector Nat 32
  /-- Copy cells that have reached the output stage. -/
  stage    : List Cell
  /-- Output cells built at the latest frame boundary. -/
  built    : List Cell
  flows    : List FlowSt
  frames   : List PacketFrame
  /-- Its end of the keeper link: cells to KP, and KP's end: cells from KP. -/
  toKeeper : Lane
  fromKeeper : Lane
  /-- Watermark notices of every circuit and packet VOQ: per output port, a mask of the input ports (R232, R234). -/
  cNotice  : Vector (BitVec 32) 32
  pNotice  : Vector (BitVec 32) 32
  cCross   : Vector (BitVec 16) 32
  pCross   : Vector (BitVec 16) 32
  cPeak    : Vector Nat 32
  pPeak    : Vector Nat 32
  /-- Select counters (R438). -/
  select   : Vector (BitVec 32) 16
  /-- Requests and selection of each pair (R261). -/
  reqs     : Vector PairReq 16
  /-- Generators and analysers (R268). -/
  pats     : Vector PatSt 16
  /-- Streams of the tapped slots; one restarted within the turn (R294, R305, R444). -/
  streams  : List Stream
  restarted : Bool
  deriving DecidableEq, Repr

/-- An engine. -/
structure EngSt where
  ctl   : EngCtl
  tally : EngTally
  data  : EngData
  deriving DecidableEq, Repr

/-- Incumbency as KP manages it (R311, R313). -/
inductive Incumbency where
  | nobody
  | held (e : Eng)
  | moving (frm : Eng) (since : Nat)
  deriving DecidableEq, Repr

/-- A rally cell on its way (R319 to R321). -/
structure Rally where
  die     : LineDie
  r       : Fin 2
  eng     : Eng
  number  : Nat
  stage   : RallyStage
  due     : Nat
  deriving DecidableEq, Repr

/-- A mismatch reported to KP in the present frame (R327): the port (none: sync or selection words), SEQ and mask, and, for a
substitution, the engine whose cell was missing (R330). -/
structure Mismatch where
  port : Option Port
  seq  : BitVec 16
  mask : BitVec 32
  by_  : Option Eng
  deriving DecidableEq, Repr

/-- What a line die keeps of one engine (R314, R323): claim of the latest beat and its tick, the rally failure it holds
and the frames of passing checks since. -/
structure DieEng where
  beat     : BitVec 4
  beatAt   : Nat
  hold     : Bool
  failedNow : Bool
  passRun  : Nat
  deriving DecidableEq, Repr

/-- A line die. -/
structure DieSt where
  powered : Bool
  lost    : Bool
  /-- Consecutive frames with a valid heartbeat word while lost (R506); found again, waiting for a turn boundary. -/
  hbRun   : Nat
  found   : Bool
  engX    : DieEng
  engY    : DieEng
  /-- Links to EX and to EY. -/
  linkX   : Vector Link 2
  linkY   : Vector Link 2
  /-- Resequencers for the cells of EX and of EY (R215). -/
  flowsX  : List FlowSt
  flowsY  : List FlowSt
  /-- Number of the next packet cell lifted at the die's access point (R212). -/
  packetSeq : BitVec 16
  /-- Selection words received for its pairs: select protect (R261, R262). -/
  words   : List (PairId × Bool)
  /-- Active page and page being loaded: number, and the copy in the flash, which never changes, whose V bits the die holds
  (R223). -/
  vPages   : List (Nat × Copy)
  /-- Sending at the access point of the partner port (R237, R239, R363): the bits still to be sent; a frame whose last cell has
  not come is open, with the bits of it made so far and the ones at their end. -/
  outBits  : List Bool
  outOpen  : Bool
  outMade  : Nat
  outOnes  : Nat
  /-- Bits still to be sent ahead of the first bit of octet 0 of the latest frame, and the launch stamp of that frame: tick and
  quality (R372). -/
  outLead  : Option Nat
  outStamp : Option (Nat × BitVec 8)
  /-- Carriage bits received on the partner port since the last flag (R199, R237). -/
  inBits   : List Bool
  /-- Tick and quality of the first bit after the latest flag received, and the receipt stamp of the latest TIME lifted (R372). -/
  inFirst  : Option (Nat × BitVec 8)
  inStamp  : Option (Nat × BitVec 8)
  deriving DecidableEq, Repr

/-- What KP and the engines hold together. -/
structure Duplex where
  incumbency : Incumbency
  /-- A heartbeat word of the withdrawn engine has shown claim bit 0 clear (R311). -/
  clearSeen  : Bool
  /-- KP's resequencers for the cells of EX and of EY (R215). -/
  flowsX     : List FlowSt
  flowsY     : List FlowSt
  /-- Latest health mismatch history (R328): consecutive frames with an unexplained mismatch. -/
  mismatches : List Mismatch
  unexplained : Nat
  /-- The standby was judged out of step: the turn, and the ports that mismatched then. -/
  judgedAt   : Option Nat
  judgedPorts : List Port
  /-- The standby judged then has completed a resync since (R328). -/
  resynced   : Bool
  rallies    : List Rally
  /-- Incumbency moved within the open second (R427). -/
  moved      : Bool
  /-- Code of what last lowered the health of the active engine, or of the one that incumbency moves from (R446). -/
  fell       : Nat
  /-- Latch-frames held, and sent as AIS, since the last record (R433). -/
  heldFrames : Nat
  aisFrames  : Nat
  /-- KP's copy of the watermark notices (R234). -/
  cNotice    : Vector (BitVec 32) 32
  pNotice    : Vector (BitVec 32) 32
  deriving DecidableEq, Repr

/-! ### Protection (09_line_protection) -/

/-- A command that KEY_CMD raises on a pair (R257). -/
inductive PairCmd where
  | none
  | lockout
  | forced
  | manualP
  | manualW
  | exercise
  deriving DecidableEq, Repr

/-- A protected pair (R244 to R266). -/
structure PairSt where
  running : Bool
  invalid : Bool
  protect : Bool
  sdW     : Bool
  sdP     : Bool
  d       : Int
  conf    : Bool
  exd     : Bool
  exp     : Bool
  slip    : Bool
  slipOld : Bool
  cmd     : PairCmd
  /-- A timer's exercise was performed, which the next decision has as a request (R257, R260). -/
  exNow   : Bool
  deriving DecidableEq, Repr

/-! ### The capture path -/

/-- The capture path (R293 to R298, R419, R443 to R446). -/
structure CapturePath where
  gate    : Bool
  /-- Stamp quality of the present turn's first position, for its chunk (R444). -/
  turnQual : BitVec 8
  /-- Sequence number of the last record written, and the offset in the capture window after it (R444, R445). -/
  seq     : BitVec 32
  offset  : Nat
  /-- Records awaiting the PSRAM, chunks and seams, oldest first, their numbers still 0. -/
  waiting : List (List Byte)
  /-- The record being written: its offset in the capture window, and its bytes. -/
  hand    : Option (Nat × List Byte)
  /-- Bytes of it that its writer has requested to write (R413). -/
  made    : Nat
  /-- Chunks dropped for the rest of this second (R419); dropped since the last chunk written. -/
  dropping : Bool
  drops   : Nat
  /-- Chunks dropped and written since the last record (R434). -/
  dropped : Nat
  written : Nat
  /-- Writer of the latest record, if any. -/
  writer  : Option Eng
  /-- KP's copy of the last commit word written to the PSRAM, with its target address (R420). -/
  lastCommit : Option (Nat × BitVec 32)
  deriving DecidableEq, Repr

/-! ### Partner channel (14_partner_channel) -/

/-- Roles of KEY_PART (R73). -/
inductive PartRole where
  | off
  | leader
  | follower (insert : Bool)
  | peer
  deriving DecidableEq, Repr

/-- Carriages (R361). -/
inductive Carriage where
  | sa4
  | sa58
  | fdl
  deriving DecidableEq, Repr

/-- A pending frame: its octets without the FCS (R373). -/
structure Pending where
  octets : List Byte
  deriving DecidableEq, Repr

/-- The frame outstanding at the line die (R373). -/
structure Outstanding where
  type   : Nat
  octets : List Byte
  deriving DecidableEq, Repr

/-- Stamps of TIME messages (R370): stamp, quality, SEQ. -/
structure TimeStamp where
  stamp : BitVec 64
  qual  : BitVec 8
  seq   : BitVec 4
  deriving DecidableEq, Repr

/-- The widths of a listening window (R384). -/
inductive Window where
  | narrow
  | middle
  | wide
  deriving DecidableEq, Repr

/-- The partner channel. -/
structure Partner where
  role      : PartRole
  carriage  : Carriage
  /-- Status field bits 1:0, 2 and 3 to 7 (R386). -/
  status    : BitVec 8
  /-- SEQ of the mirrored state, the state last mirrored, turns since a MIRROR was queued, unacknowledged count. -/
  seq       : BitVec 4
  mirrored  : Option (List Nat)
  sinceMirror : Nat
  unacked   : Nat
  pendAck   : Option Pending
  pendMirror : Option Pending
  pendMeet  : Option Pending
  pendTime  : Option Pending
  out       : Option Outstanding
  /-- Mirrored values in force, and those to take effect at the next turn boundary: MODE, PAGE, CMD, TALLY. -/
  inForce   : Option (Vector (BitVec 4) 4)
  toForce   : Option (Vector (BitVec 4) 4)
  /-- Own values take effect at the next turn boundary (R380). -/
  revert    : Bool
  /-- The mirrored KEY_PAGE level in effect was not requested (R379). -/
  pageKept  : Bool
  /-- An ACK to queue at step 7: SEQ, and whether SERIALs differ. -/
  ackDue    : Option (BitVec 4 × Bool)
  /-- Turn boundaries since the last valid MIRROR, and since the last valid TIME or MEET (R380). -/
  sinceValid : Nat
  /-- Number of the next packet cell KP sends (R212), and octets of the inbound frame KP has gathered. -/
  packetSeq : BitVec 16
  inOctets  : List Byte
  /-- A frame is being gathered. -/
  inOpen    : Bool
  deriving DecidableEq, Repr

/-- TIME and MEET (R370, R381 to R385) and the counts of a second (R386). -/
structure PartnerTime where
  timeSeq   : BitVec 4
  ownTime   : Option TimeStamp
  gotTime   : Option TimeStamp
  /-- Octets 3 to 21 of the partner's latest valid TIME. -/
  gotOctets : List Byte
  /-- Next meeting instant, latest own MEET launch, meeting instants since the schedule began. -/
  nextMeet  : Nat
  lastMeet  : Option Nat
  meetCount : BitVec 32
  offset    : Int
  window    : Window
  /-- The scheduled instant about which the present listening window stands (R384). -/
  windowAt  : Nat
  /-- Main failed in DOZE: what the window has become since holds for the next one (R473). -/
  skipping  : Bool
  listening : Bool
  deaf      : Bool
  launched  : Nat
  valid     : Nat
  discarded : Nat
  stale     : Nat
  meets     : Nat
  empty     : Nat
  deriving DecidableEq, Repr

/-! ### Timers and alarm (15_timers_capture) -/

/-- A position timer (R387 to R401). -/
structure Timer where
  started  : Bool
  counter  : BitVec 32
  compare  : BitVec 32
  armed    : Bool
  out      : Bool
  pending  : Bool
  match_   : Bool
  ovf      : Bool
  events   : BitVec 16
  stamp    : BitVec 64
  qual     : BitVec 8
  /-- GATE and RESET_BY signals as sampled at the start of the present tick (R391). -/
  gate     : Bool
  resetWas : Bool
  /-- It was reset or started at this tick, so no unit of the tick is counted (R389, R391). -/
  cleared  : Bool
  /-- The counter has wrapped and its overflow event is due. -/
  wrapped  : Bool
  /-- The compare value was replaced at this tick, so the timer is not compared in it (R395). -/
  fresh    : Bool
  /-- Units that reach it in the next tick (R392). -/
  late     : Nat
  /-- Units counted above 0xFFFFFFFF by a reloading timer whose matches are due first (R393). -/
  due      : Nat
  /-- It was frozen at the start of the present tick (R400). -/
  held     : Bool
  deriving DecidableEq, Repr

/-- ALARM_N (R398). -/
structure Alarm where
  /-- The alarm conditions that hold, in the bits of ALARMS (R427). -/
  holds     : BitVec 10
  /-- Those that held at any tick since the last record. -/
  seen      : BitVec 10
  /-- First tick at which the running pulse may end; none when no pulse runs. -/
  pulseEnd  : Option Nat
  /-- First tick at which the minimum time of an alarm condition is over. -/
  minEnd    : Option Nat
  deriving DecidableEq, Repr

/-! ### Matrix, memories and tally (16_matrix_memories_tally) -/

/-- A lend (R416, R508). -/
structure Lend where
  /-- LEND_x_REQ is high; the request is recognised, or the memory is the host's already. -/
  high      : Bool
  requested : Bool
  granted   : Bool
  /-- Frames in which the target was lent at any tick, and so in the present frame. -/
  frames    : Nat
  lentNow   : Bool
  /-- A lend has ended and its check is due (R420). -/
  checkDue  : Bool
  /-- Tick at which the memory balls went high-impedance for a grant to come (R416, R489). -/
  hiZ       : Option Nat
  /-- First tick at which held requests may resume after the latest lend (R416). -/
  openAt    : Nat
  deriving DecidableEq, Repr

/-- A target of the matrix (R410, R411): the burst granted, the requests waiting, and the master it is parked on. -/
structure TargetSt where
  busy    : Option BurstReq
  /-- Requests held back or waiting, in order of issue, with the tick of issue. -/
  waiting : List (BurstReq × Nat)
  parked  : Master
  deriving DecidableEq, Repr

/-- Counts of a master (R434). -/
structure MasterSt where
  grants  : Nat
  refused : Nat
  wait    : Nat
  deriving DecidableEq, Repr

/-- The bus matrix and its memories. -/
structure Matrix where
  flash    : TargetSt
  psram    : TargetSt
  fram     : TargetSt
  sram     : TargetSt
  masters  : Vector MasterSt 6
  framMem  : Mem
  psramMem : Mem
  sramMem  : Mem
  lendT    : Lend
  lendC    : Lend
  ignored  : Nat
  disturbed : BitVec 2
  /-- Bytes the latest granted read returned. -/
  readBack : List Byte
  deriving DecidableEq, Repr

/-- An event entry (R405, R429). -/
structure EventEntry where
  stamp : BitVec 64
  qual  : BitVec 8
  code  : BitVec 8
  count : BitVec 16
  ovr   : Bool
  port  : Port
  deriving DecidableEq, Repr

/-- The sticky content of a tally record (R418). -/
structure Sticky where
  cNotice  : BitVec 32
  pNotice  : BitVec 32
  image    : BitVec 8
  partner  : BitVec 8
  exd      : BitVec 16
  exp      : BitVec 16
  matched  : BitVec 16
  ovfs     : BitVec 16
  disturbed : BitVec 2
  qual     : BitVec 8
  deriving DecidableEq, Repr

/-- A closed tally record: its number, its bytes before CRC and TAIL_SEQ, and its sticky content. -/
structure Record where
  seq    : BitVec 32
  body   : List Byte
  sticky : Sticky
  deriving DecidableEq, Repr

/-- The tally dump engine (R405 to R407, R418 to R424, R505). -/
structure Tally where
  entries  : List EventEntry
  /-- Ports whose capture unit was read at the present frame boundary (R406), with an entry kept, and past the 64th (R407). -/
  readNow  : List Port
  lostNow  : List Port
  lostEntries : Nat
  /-- Number of the latest record closed. -/
  seq      : BitVec 32
  /-- The record being written to the FRAM. -/
  writing  : Option Record
  /-- Bytes of it that the dump engine has requested to write (R413, R423). -/
  made     : Nat
  /-- Records in the record buffer, oldest first. -/
  buffer   : List Record
  /-- Sticky content of records lost with no later one in the buffer, which the next record carries (R418). -/
  carry    : Option Sticky
  lostRecords : Nat
  /-- A record was committed in the present turn, and in the turn before (R441). -/
  commitTurn : Bool
  commitOld : Bool
  /-- KP's copy of the last commit word written to the FRAM, with its target address (R420). -/
  lastCommit : Option (Nat × BitVec 32)
  /-- Sequence number of the last record committed (R461). -/
  committed : BitVec 32
  /-- Changes within the open second (R427): mode, page swap, filter set. -/
  modeChanged : Bool
  swapped  : Bool
  filterChanged : Bool
  /-- Filter set in effect (R77). -/
  filter   : Nat
  /-- A timer event occurred in the present turn, and in the turn before (R441). -/
  timerTurn : Bool
  timerOld : Bool
  deriving DecidableEq, Repr

/-- The status stream of the present turn (R440 to R442): header and port words. -/
structure Status where
  header : BitVec 64
  words  : Vector (BitVec 32) 32
  deriving DecidableEq, Repr

/-! ### Keeper, power and test access port (17_keeper_power_startup, 18_electrical_package) -/

/-- The keeper's power states (R454). -/
inductive Power where
  | main
  | ride
  | last
  | dark
  deriving DecidableEq, Repr

/-- The kinds of start (R463). -/
inductive StartKind where
  | reset
  | warm
  | cold
  deriving DecidableEq, Repr

/-- How far the running start has come (R467). -/
inductive StartPhase where
  /-- Waiting for recognition. -/
  | waiting
  /-- Recognised; validation runs. -/
  | validating
  /-- Validation complete; the turn boundary at which timers start is next. -/
  | validated
  /-- Timers started; READY falls at (T0 + 10):0:0. -/
  | started
  /-- The start has completed. -/
  | done
  deriving DecidableEq, Repr

/-- Keeper and start-up. -/
structure Keeper where
  power     : Power
  /-- Main is stable, and a release or the last-words write keeps KP in RIDE or LAST (R455, R466). -/
  stable    : Bool
  dozing    : Bool
  /-- The DOZE request stands and acts from the next turn boundary (R148). -/
  dozeReq   : Bool
  /-- A wake, or a stopped XIN, is being resumed: the active page is being reloaded (R471). -/
  reloading : Bool
  xinStopped : Bool
  startKind : StartKind
  phase     : StartPhase
  /-- T0 of the running start (R466, R467). -/
  t0        : Nat
  /-- Rails in range (R448): VCORE and VIO; VLINE. -/
  coreOk    : Bool
  vlineOk   : Bool
  odometer  : BitVec 64
  /-- POWER (R427). -/
  events    : BitVec 32
  /-- A cold start has yet to correct its turn at the boundary at which validation completes (R464). -/
  coldDue   : Bool
  /-- A cold start has yet to begin counting at recognition (R464). -/
  coldWait  : Bool
  coldFound : Bool
  /-- DOZE was entered after TURN_BOUNDARY at its boundary, so the timers have counted the first uncounted position (R401). -/
  unitsDone : Bool
  deriving DecidableEq, Repr

/-- The last-words store and what feeds it (R460 to R466). -/
structure LastWords where
  slot0   : List Byte
  slot1   : List Byte
  /-- The write in progress: slot and bytes. -/
  writing : Option (Bool × List Byte)
  rides   : BitVec 32
  lasts   : BitVec 32
  colds   : BitVec 32
  /-- Taken at main failure: VCELL in millivolts, mode code, live key levels. -/
  vcell   : Nat
  mode    : Nat
  levels  : BitVec 16
  /-- ODOMETER of the newest valid last-words record at a cold start (R465). -/
  odoAtCold : BitVec 64
  deriving DecidableEq, Repr

/-- The test access port (R490 to R492). -/
structure Tap where
  ir     : BitVec 4
  /-- Boundary-scan register: a bit for each of its 65 balls, as last updated (R492). -/
  bsr    : List Bool
  /-- The identification register as loaded at Test-Logic-Reset. -/
  idcode : BitVec 32
  /-- The bypass register. -/
  bypass : Bool
  /-- What the latest data scan shifted out on TDO, first bit first. -/
  out    : List Bool
  halt   : Bool
  deriving DecidableEq, Repr

/-- Modes as they stand. -/
structure ModeSt where
  mode      : Mode
  /-- Level of KEY_CMD in effect before it acts in a mode (R79). -/
  cmd       : BitVec 4
  /-- Turn boundaries since the value of KEY_CMD took effect (R260). -/
  cmdTurns  : Nat
  /-- A proof cycle runs (R140); the first position frame under PROOF; the cycle began after its second's start (R141). -/
  proofOn   : Bool
  proofFrom : Nat
  proofPart : Bool
  /-- The last proof cycle failed (R141). -/
  proofFailed : Bool
  deriving DecidableEq, Repr

/-- The KX32D-M. -/
structure State where
  /-- Commands waiting, first in first out. -/
  pending  : List Instr
  pos      : Pos
  /-- The frame that begins at the present turn boundary still awaits its FRAME_BOUNDARY. -/
  frameDue : Bool
  time     : Timebase
  keys     : Keys
  pins     : Pins
  image    : Image
  modes    : ModeSt
  ports    : Vector PortSt 32
  lda      : DieSt
  ldb      : DieSt
  engX     : EngSt
  engY     : EngSt
  duplex   : Duplex
  pairs    : Vector PairSt 16
  capture  : CapturePath
  partner  : Partner
  ptime    : PartnerTime
  timers   : Vector Timer 16
  alarm    : Alarm
  matrix   : Matrix
  tally    : Tally
  status   : Status
  keeper   : Keeper
  words    : LastWords
  tap      : Tap
  /-- The model's own field: the free values used so far. -/
  freeIdx  : Nat
  deriving DecidableEq, Repr

/-! ### The machine right after first power

VKEEP has come up with both last-words slots blank: a cold start with no record (R463 to R465), RESET_N held low, and no
start recognised yet. Where the manual gives a register no value here, the value is the model's (assumption 2). -/

/-- The position engine: not counting yet, flagged COLD (R463, R464). -/
def Timebase.reset : Timebase :=
  { counting := false, est := false, gap := false, cold := true, switched := false, switchedOld := false, refLevel := 0, newRefLevel := none
    present := none, mode := .freeRun, inLockTurns := 0, lockedTurns := 0, freqs := [], heldSum := 0, heldAtStop := false
    goodFrames := Vector.replicate 32 0, qualified := Vector.replicate 32 false, qualifiedFor := Vector.replicate 32 0
    refinQual := false, refinFor := 0, refinFrames := 0, stopAt := 0, partialSecond := false }

/-- A live key holds its held value (R70). -/
def LiveKey.reset : LiveKey :=
  { value := none, accepted := none, older := none, newer := none, ambNext := false, ambNow := false, ambCount := 0 }

def Keys.reset : Keys :=
  { boot := Vector.replicate 8 (some 0), bootAmb := 0, live := Vector.replicate 4 LiveKey.reset, unassigned := 0
    krefFault := false, sampleFrom := 0, ranges := Vector.replicate 12 .m1over64 }

/-- The map flash is blank. DESIGN CHOICE (assumption 121): the manual says nothing of what the board has programmed into it,
and no command writes it (R3), so an image comes into the machine only with the state a run begins from. -/
def Image.reset : Image :=
  { flash := [], sfdpOk := false, readA := false, readB := false, aValid := false, bValid := false, inUse := none, status := 0, windowSet := 0, density := 0, load := none
    refused := none, refusedOn := false, heldPage := none, awaited := none, wakePage := 0, inForce := none }

def Hinge.reset : Hinge :=
  { role := .bypassed, content := .page, seq := .idle, target := .bypassed, start := 0, relTick := 0, ride := false, boundary := 0, driven := false
    fault := false, lowBefore := false, faultSeen := false, waiting := false, abandoned := false }

def AisWin.reset : AisWin := { bits := 0, zeros := 0, last := none, before := none }

def Line.reset : Line :=
  { family := 0, lbo := 0, monitor := 0, cas := false, robbed := false, running := false, los := false, ais := false
    terminated := false, win := .reset, tx := .hiZ, stopAt := none, bitAt := 0, txLimit := false, txLimitOld := false }

def Framer.reset : Framer :=
  { aligned := false, hunt := [], crcMf := .none, crcFresh := false, sinceBasic := 0, casMf := false, rai := false, fdl := [], raiAt := 0, frameNo := 0
    casNo := 0, winBlocks := 0
    winErrors := 0, sig := Vector.replicate 32 0, eBitFirst := false, eBitSecond := false }

def Slip.reset : Slip :=
  { waiting := [], reading := false, lastRead := none, alignedAt := none, badNow := false, history := [], nextNo := 0
    lastQ := none, nextOut := none, slipTurn := false, slipOld := false }

def Raw.reset : Raw :=
  { c := Vector.replicate 19 0, pend := Vector.replicate 19 0, ran := false, los := false, ais := false, lof := false
    lomf := false, rai := false, fbTurn := false, fbOld := false, crcTurn := 0, crcOld := 0, crcTurns := [] }

def Capture.reset : Capture :=
  { stamp := 0, qual := 0, code := 0, count := 0, unread := false, ovr := false, evTurn := false, evOld := false }

def Latch.reset : Latch := { accepted := .ex, cellsX := [], cellsY := [], last := none, held := 0, ais := false }

/-- The encoder as if the last pulses had been negative. DESIGN CHOICE (assumption 126): the manual does not say which polarity
comes first. -/
def Coder.reset : Coder := { last := false, lastV := false, zeros := 0 }

def TxSt.reset : TxSt :=
  { octets := none, ais := false, start := 0, mf := 0, seq := 0, block := [], check := 0, eFirst := false, eSecond := false
    fill := [], fillRai := false, cas0 := false, coder := .reset, ones := [], follow := [] }

def PortSt.reset : PortSt :=
  { line := .reset, hinge := .reset, framer := .reset, slip := .reset, raw := .reset, capture := .reset, latch := .reset
    tx := .reset, inCell := none }

/-- An engine without power (R29). -/
def EngCtl.reset : EngCtl :=
  { powered := false, retention := false, health := 0, incumbent := false, cause := 0, rallyRun := 0, syncRun := 0
    scrubOk := true, computing := false, startNext := false, computed := 0, joined := 0, rejoin := .none, apart := false, rallyFail := false
    rallyFailOld := false, lateNow := false, lateRun := 0, word := 0, lost := false, cycles := 0, leftOff := false, restoredAt := 0 }

def EngTally.reset : EngTally :=
  { minHealth := 0, heldInc := false, resync := false, coldRejoin := false, disagreed := false, mismatch := 0, subst := 0, culprit := 0, rallyFail := 0
    proofRan := false, proofPart := false, proofErr := 0, proofBad := false, hecKeeper := 0, hecAtKeeper := 0 }

def HoldOff.reset : HoldOff := { frames := 0, request := false }

/-- No hold-off and no wait-to-restore runs, and working is selected. -/
def PairReq.reset : PairReq :=
  { hoSfW := .reset, hoSfP := .reset, hoSdW := .reset, hoSdP := .reset, wtr := none, req := 0, word := false }

def Gen.reset : Gen := { running := false, reg := 0, phase := 0, zeros := 0, counted := 0, once := false }

def Ana.reset : Ana :=
  { inSync := false, reg := 0, loaded := 0, correct := 0, phase := 0, zeros := 0, recent := [], blkBits := 0, blkErrs := 0
    hunted := false, due := .none, rest := [] }

def PatSt.reset : PatSt := { active := false, gen := .reset, ana := .reset, c := Vector.replicate 6 0 }

/-- A link transmitter with nothing to send. -/
def Lane.idle : Lane := { fifo := [], beat := none, now := none, left := 0 }

def EngData.reset : EngData :=
  { active := 0, activeCopy := .a, activeOk := false, shadow := .empty, govern := 0, governCopy := .a, rally := []
    circuit := [], packet := [], rrOut := Vector.replicate 32 0, rrIn := Vector.replicate 32 0, stage := [], built := []
    flows := [], frames := [], toKeeper := .idle, fromKeeper := .idle, cNotice := Vector.replicate 32 0
    pNotice := Vector.replicate 32 0, cCross := Vector.replicate 32 0, pCross := Vector.replicate 32 0
    cPeak := Vector.replicate 32 0, pPeak := Vector.replicate 32 0, select := Vector.replicate 16 0
    reqs := Vector.replicate 16 PairReq.reset, pats := Vector.replicate 16 PatSt.reset, streams := [], restarted := false }

def EngSt.reset : EngSt := { ctl := .reset, tally := .reset, data := .reset }

def DieEng.reset : DieEng := { beat := 0, beatAt := 0, hold := false, failedNow := false, passRun := 0 }

def Link.reset : Link := { locked := true, spraying := true, up := .idle, down := .idle, hecUp := 0, hecDown := 0 }

/-- A line die, held in reset and unpowered until the first start. -/
def DieSt.reset : DieSt :=
  { powered := false, lost := false, hbRun := 0, found := false, engX := .reset, engY := .reset
    linkX := Vector.replicate 2 Link.reset, linkY := Vector.replicate 2 Link.reset, flowsX := [], flowsY := []
    packetSeq := 0, words := [], vPages := [], outBits := [], outOpen := false, outMade := 0, outOnes := 0, outLead := none, outStamp := none
    inBits := [], inFirst := none, inStamp := none }

def Duplex.reset : Duplex :=
  { incumbency := .nobody, clearSeen := false, flowsX := [], flowsY := [], mismatches := [], unexplained := 0, judgedAt := none
    judgedPorts := [], resynced := false, rallies := [], moved := false, fell := 0, heldFrames := 0, aisFrames := 0
    cNotice := Vector.replicate 32 0, pNotice := Vector.replicate 32 0 }

def PairSt.reset : PairSt :=
  { running := false, invalid := false, protect := false, sdW := false, sdP := false, d := 0, conf := false, exd := false
    exp := false, slip := false, slipOld := false, cmd := .none, exNow := false }

def CapturePath.reset : CapturePath :=
  { gate := true, turnQual := 0, seq := 0, offset := 0, waiting := [], hand := none, made := 0, dropping := false
    drops := 0, dropped := 0, written := 0, writer := none, lastCommit := none }

def Partner.reset : Partner :=
  { role := .off, carriage := .fdl, status := 0, seq := 0, mirrored := none, sinceMirror := 0, unacked := 0, pendAck := none
    pendMirror := none, pendMeet := none, pendTime := none, out := none, inForce := none, toForce := none, revert := false, pageKept := false
    ackDue := none, sinceValid := 0, packetSeq := 0, inOctets := [], inOpen := false }

def PartnerTime.reset : PartnerTime :=
  { timeSeq := 0, ownTime := none, gotTime := none, gotOctets := [], nextMeet := 0, lastMeet := none, meetCount := 0
    offset := 0, window := .narrow, windowAt := 0, skipping := false, listening := false, deaf := false, launched := 0, valid := 0, discarded := 0, stale := 0
    meets := 0, empty := 0 }

/-- A timer cleared and stopped (R388); one that has given no event carries quality 0xFF (R431). -/
def Timer.reset : Timer :=
  { started := false, counter := 0, compare := 0, armed := false, out := false, pending := false, match_ := false, ovf := false
    events := 0, stamp := 0, qual := 0xFF, gate := false, resetWas := false, cleared := false
    wrapped := false, fresh := false, late := 0, due := 0, held := false }

def Alarm.reset : Alarm := { holds := 0, seen := 0, pulseEnd := none, minEnd := none }

def Lend.reset : Lend :=
  { high := false, requested := false, granted := false, frames := 0, lentNow := false, checkDue := false, hiZ := none, openAt := 0 }

/-- An idle target, parked on a master (R411). -/
def TargetSt.reset (m : Master) : TargetSt := { busy := none, waiting := [], parked := m }

def Matrix.reset : Matrix :=
  { flash := .reset .loader, psram := .reset .captureX, fram := .reset .dump, sram := .reset .dump
    masters := Vector.replicate 6 { grants := 0, refused := 0, wait := 0 }, framMem := [], psramMem := [], sramMem := []
    lendT := .reset, lendC := .reset, ignored := 0, disturbed := 0, readBack := [] }

def Tally.reset : Tally :=
  { entries := [], readNow := [], lostNow := [], lostEntries := 0, seq := 0, writing := none, made := 0, buffer := [], carry := none, lostRecords := 0
    commitTurn := false, commitOld := false, lastCommit := none, committed := 0, modeChanged := false, swapped := false
    filterChanged := false, filter := 0, timerTurn := false, timerOld := false }

/-- The keeper in MAIN, with a cold start under way: POWER bit 3 set, the odometer at 0 (R463, R465). -/
def Keeper.reset : Keeper :=
  { power := .main, stable := false, dozing := false, dozeReq := false, reloading := false, xinStopped := false, startKind := .cold
    phase := .waiting, t0 := 0, coreOk := false, vlineOk := false, odometer := 0, events := 8, coldDue := true, coldWait := true
    coldFound := false, unitsDone := false }

/-- A slot of 64 bytes that holds no record. DESIGN CHOICE (assumption 162): the manual says of a blank or torn slot only that it is
not valid; each byte of it is 0. -/
def blankSlot : List Byte := List.replicate 64 0

/-- Both slots blank, COLDS at 1 (R465). -/
def LastWords.reset : LastWords :=
  { slot0 := blankSlot, slot1 := blankSlot, writing := none, rides := 0, lasts := 0, colds := 1, vcell := 0, mode := 0, levels := 0
    odoAtCold := 0 }

/-- The test access port in Test-Logic-Reset (R490, R491). -/
def Tap.reset : Tap := { ir := 2, bsr := List.replicate 65 false, idcode := 0x13D200F7, bypass := false, out := [], halt := false }

/-- The machine right after first power. -/
def State.reset : State :=
  { pending := [], pos := ⟨0, 0, 0⟩, frameDue := false, time := .reset, keys := .reset
    pins := { resetN := false, doze := false, ready := false }, image := .reset
    modes := { mode := .rest, cmd := 0, cmdTurns := 0, proofOn := false, proofFrom := 0, proofPart := false, proofFailed := false }
    ports := Vector.replicate 32 PortSt.reset, lda := .reset, ldb := .reset, engX := .reset, engY := .reset, duplex := .reset
    pairs := Vector.replicate 16 PairSt.reset, capture := .reset, partner := .reset
    ptime := .reset, timers := Vector.replicate 16 Timer.reset, alarm := .reset, matrix := .reset, tally := .reset
    status := { header := 0, words := Vector.replicate 32 0 }, keeper := .reset, words := .reset, tap := .reset, freeIdx := 0 }

end Sys2Proof.Machine
end

