-- ==== Sys2Proof/Machine/Operands.lean ====
section
/-! DEFINITION. The operand forms: a key reading and its level (R57 to R60), what each level of each key means (R71 to
R79, R32), the families a port can take (R73, R150, R178), and the fields of a cell header (R210). -/

namespace Sys2Proof.Machine

/-! ### Key readings -/

/-- Numerator and denominator of 1/m for a range factor m (R58). -/
def rangeInv : Range → Nat × Nat
  | .m8 => (1, 8)
  | .m1 => (1, 1)
  | .m1over8 => (8, 1)
  | .m1over64 => (64, 1)

/-- The range a reader changes to at a pin voltage (R58): the next larger current below 0.08 V, the next smaller above
0.8 V, the ends of the table kept. -/
def rangeStep (m : Range) (microvolts : Nat) : Range :=
  if microvolts < 80000 then
    match m with | .m8 => .m8 | .m1 => .m8 | .m1over8 => .m1 | .m1over64 => .m1over8
  else if 800000 < microvolts then
    match m with | .m8 => .m1 | .m1 => .m1over8 | .m1over8 => .m1over64 | .m1over64 => .m1over64
  else m

/-- The range a reader has come to after these pin voltages. -/
def rangeFollow (m : Range) (l : List Nat) : Range := l.foldl rangeStep m

/-- The reader changes range at some of these pin voltages. -/
def rangeChanges : Range → List Nat → Bool
  | _, [] => false
  | m, v :: l => rangeStep m v != m || rangeChanges (rangeStep m v) l

/-- The reading Rkey = (Vpin / 0.500 V) × 49.9 kOhm / m as a fraction in ohms (R57). -/
def readingOf (m : Range) (microvolts : Nat) : Nat × Nat :=
  (microvolts * 49900 * (rangeInv m).1, 500000 * (rangeInv m).2)

/-- Bands 0 to 14 in ohms, low and high end (R60). -/
def bands : List (Nat × Nat) :=
  [(0, 200), (830, 1170), (1345, 1895), (2166, 3054), (3503, 4937), (5652, 7968), (9130, 12870), (14770, 20830),
   (23820, 33580), (38510, 54290), (62250, 87750), (100400, 141600), (162700, 229300), (262300, 369700),
   (424100, 597900)]

/-- The first band from number `i` on that holds the reading. -/
def findBand (num den : Nat) : Nat → List (Nat × Nat) → Option (BitVec 4)
  | _, [] => none
  | i, (lo, hi) :: bs =>
    if lo * den ≤ num ∧ num ≤ hi * den then some (BitVec.ofNat 4 i) else findBand num den (i + 1) bs

/-- The pin is at compliance on the smallest current (R59). -/
def atCompliance (m : Range) (microvolts : Nat) : Bool := m == .m1over64 && decide (1000000 ≤ microvolts)

/-- The level of a reading (R59, R60); none: it falls in no band. -/
def levelOfReading (m : Range) (microvolts : Nat) : Option (BitVec 4) :=
  let q := readingOf m microvolts
  if atCompliance m microvolts then some 15#4
  else if 2000000 * q.2 ≤ q.1 then some 15#4
  else findBand q.1 q.2 0 bands

/-- The voltages of the sampling frame, its mean among them: a mean outside the range means that the pin was there. -/
def keyFrame (r : KeyRaw) : List Nat := r.during ++ [r.microvolts]

/-- The range a reader is left on by a sample. -/
def rangeAfter (m : Range) (r : KeyRaw) : Range := rangeFollow (rangeFollow m r.before) (keyFrame r)

/-- The level of a sample by a reader that stood on range `m` (R58, R65); none: it is ambiguous. -/
def levelOfSample (m : Range) (r : KeyRaw) : Option (BitVec 4) :=
  let n := rangeFollow m r.before
  if rangeChanges n (keyFrame r) then none else levelOfReading n r.microvolts

/-! ### Meaning of the boot keys -/

/-- The boot keys in the order of R66. -/
inductive BootKey where
  | g0 | g1 | g2 | g3 | ref | img | eng | part
  deriving DecidableEq, Repr

/-- Index of a boot key in R66's order. -/
def BootKey.idx : BootKey → Fin 8
  | .g0 => 0 | .g1 => 1 | .g2 => 2 | .g3 => 3 | .ref => 4 | .img => 5 | .eng => 6 | .part => 7

/-- A level that R73 marks reserved for a boot key (R72). -/
def bootReserved (i : Fin 8) (l : BitVec 4) : Bool :=
  if i = 5 then decide (9 ≤ l.toNat ∧ l.toNat ≤ 14)
  else if i = 6 then decide (9 ≤ l.toNat ∧ l.toNat ≤ 14)
  else if i = 7 then decide (13 ≤ l.toNat ∧ l.toNat ≤ 14)
  else false

/-- The level a boot key acts on: level 0 when ambiguous or reserved (R66, R72). -/
def bootActing (i : Fin 8) (v : Option (BitVec 4)) : BitVec 4 :=
  match v with
  | none => 0
  | some l => if bootReserved i l then 0 else l

/-- KEY_IMG: the copy tried first (R73). -/
def imgFirst (l : BitVec 4) : Copy := if 5 ≤ l.toNat ∧ l.toNat ≤ 8 then .b else .a

/-- KEY_IMG: the window set (R73). -/
def imgWindows (l : BitVec 4) : Nat :=
  match l.toNat with
  | 2 => 1 | 3 => 2 | 4 => 3 | 6 => 1 | 7 => 2 | 8 => 3
  | _ => 0

/-- Engine policies (R28). -/
inductive Policy where
  | duplex
  | warm
  | simplex (e : Eng)
  deriving DecidableEq, Repr

/-- KEY_ENG: the policy (R73). -/
def engPolicy (l : BitVec 4) : Policy :=
  match l.toNat with
  | 3 | 4 => .warm
  | 5 | 6 => .simplex .ex
  | 7 | 8 => .simplex .ey
  | _ => .duplex

/-- KEY_ENG: register slices are fitted (R73). -/
def engSlices (l : BitVec 4) : Bool :=
  match l.toNat with
  | 1 | 3 | 5 | 7 => false
  | _ => true

/-- Code of a policy in records (R427). -/
def Policy.code : Policy → Nat
  | .duplex => 0
  | .warm => 1
  | .simplex _ => 2

/-- A policy powers this engine (R28). -/
def Policy.powers (p : Policy) (e : Eng) : Bool :=
  match p with
  | .simplex n => n == e
  | _ => true

/-- KEY_PART: the role (R73). -/
def partRole (l : BitVec 4) : PartRole :=
  match l.toNat with
  | 1 | 2 | 3 => .leader
  | 4 | 5 | 6 => .follower false
  | 7 | 8 | 9 => .follower true
  | 10 | 11 | 12 => .peer
  | _ => .off

/-- KEY_PART: the carriage (R73). -/
def partCarriage (l : BitVec 4) : Carriage :=
  match l.toNat % 3 with
  | 1 => .sa4
  | 2 => .sa58
  | _ => .fdl

/-- KEY_REF: what a candidate list names (R32). -/
inductive RefChoice where
  | refin
  | port (p : Port)
  | group (lo hi : Nat)
  deriving DecidableEq, Repr

/-- The rates of REFIN (R32). -/
inductive RefRate where
  | r2048
  | r1544
  | r8
  deriving DecidableEq, Repr

/-- KEY_REF: the rate of REFIN that a level names (R32). -/
def refRate (l : BitVec 4) : Option RefRate :=
  match l.toNat with
  | 1 | 14 => some .r2048
  | 2 => some .r1544
  | 3 => some .r8
  | _ => none

/-- KEY_REF: the ordered candidate list of a level (R32). -/
def refList (l : BitVec 4) : List RefChoice :=
  match l.toNat with
  | 1 | 2 | 3 => [.refin]
  | 4 => [.port 0]
  | 5 => [.port 0, .port 1]
  | 6 => [.port 16]
  | 7 => [.port 16, .port 17]
  | 8 => [.port 0, .port 16]
  | 9 => [.group 0 7]
  | 10 => [.group 8 15]
  | 11 => [.group 16 23]
  | 12 => [.group 24 31]
  | 13 => [.group 0 31]
  | 14 => [.refin, .port 0]
  | _ => []

/-- A choice of the list covers this candidate (R36). -/
def RefChoice.covers (c : RefChoice) (r : RefCand) : Bool :=
  match c, r with
  | .refin, .refin => true
  | .port p, .port q => p == q
  | .group lo hi, .port q => decide (lo ≤ q.val ∧ q.val ≤ hi)
  | _, _ => false

/-- The candidate is named by the list of this level. -/
def refNamed (l : BitVec 4) (r : RefCand) : Bool := (refList l).any (fun c => c.covers r)

/-! ### Meaning of the live keys -/

/-- KEY_MODE: the mode a level selects (R77). -/
def modeOfLevel (l : BitVec 4) : Mode :=
  match l.toNat with
  | 2 => .watch | 3 => .through | 4 => .cross | 5 => .loop | 6 => .pattern | 7 => .guarded | 8 => .proof
  | _ => .rest

/-- KEY_MODE levels that R77 marks flagged. -/
def modeFlagged (l : BitVec 4) : Bool := l == 0 || decide (9 ≤ l.toNat)

/-- Mode codes (R426). -/
def Mode.code : Mode → Nat
  | .rest => 0 | .watch => 1 | .through => 2 | .cross => 3 | .loop => 4 | .pattern => 5 | .guarded => 6 | .proof => 7

/-- REST, WATCH and PROOF are the quiet modes ("Selection, ports in service and port roles"). -/
def Mode.quiet : Mode → Bool
  | .rest | .watch | .proof => true
  | _ => false

/-- KEY_PAGE: the page a level selects (R77). -/
def pageOfLevel (l : BitVec 4) : Nat := if l.toNat = 15 then 0 else l.toNat

/-- KEY_TALLY: the filter set a level selects (R77). -/
def filterOfLevel (l : BitVec 4) : Nat :=
  match l.toNat with
  | 2 => 1
  | 3 => 2
  | _ => 0

/-- KEY_TALLY levels that R77 marks reserved. -/
def tallyReserved (l : BitVec 4) : Bool := decide (4 ≤ l.toNat ∧ l.toNat ≤ 14)

/-- KEY_CMD levels reserved in the column of a mode; a mode without a column has none (R72, R79). -/
def cmdReserved (m : Mode) (l : BitVec 4) : Bool :=
  match m with
  | .guarded => l == 14
  | .loop => decide (11 ≤ l.toNat ∧ l.toNat ≤ 14)
  | .pattern => decide (8 ≤ l.toNat ∧ l.toNat ≤ 14)
  | _ => false

/-- The level KEY_CMD acts on in a mode (R72). -/
def cmdActing (m : Mode) (l : BitVec 4) : BitVec 4 := if cmdReserved m l then 0 else l

/-- The group of eight ports a port belongs to. -/
def groupOf (p : Port) : Nat := p.val / 8

/-- The other port of the even/odd pair (R136). -/
def partnerPort (p : Port) : Port := if p.val % 2 = 0 then ⟨(p.val + 1) % 32, Nat.mod_lt _ (by decide)⟩
  else ⟨(p.val - 1) % 32, Nat.mod_lt _ (by decide)⟩

/-- The pair of a port (R244). -/
def pairOf (p : Port) : PairId := ⟨p.val / 2, by have := p.isLt; omega⟩

/-- Working and protect port of a pair (R244). -/
def workPort (g : PairId) : Port := ⟨2 * g.val, by have := g.isLt; omega⟩
def protPort (g : PairId) : Port := ⟨2 * g.val + 1, by have := g.isLt; omega⟩

/-- The loops KEY_CMD can put a port in (R79). -/
inductive LoopKind where
  | none
  | line
  | payload
  deriving DecidableEq, Repr

/-- LOOP: the loop that a KEY_CMD level commands on a port's group (R79). -/
def loopOf (l : BitVec 4) (p : Port) : LoopKind :=
  let n := l.toNat
  if n = 9 then .line
  else if n = 10 then .payload
  else if 1 ≤ n ∧ n ≤ 4 then (if groupOf p = n - 1 then .line else .none)
  else if 5 ≤ n ∧ n ≤ 8 then (if groupOf p = n - 5 then .payload else .none)
  else .none

/-- GUARD: the command that a KEY_CMD level raises on a pair (R79, R258). -/
def pairCmdOf (l : BitVec 4) (g : PairId) : PairCmd :=
  let grp := g.val / 4
  match l.toNat with
  | 1 => .lockout
  | 2 => .forced
  | 3 => .manualP
  | 4 => .manualW
  | 5 => .exercise
  | 6 => if grp = 0 then .forced else .none
  | 7 => if grp = 1 then .forced else .none
  | 8 => if grp = 2 then .forced else .none
  | 9 => if grp = 3 then .forced else .none
  | 10 => if grp = 0 then .lockout else .none
  | 11 => if grp = 1 then .lockout else .none
  | 12 => if grp = 2 then .lockout else .none
  | 13 => if grp = 3 then .lockout else .none
  | _ => .none

/-- PATTERN: the injection interval N of a KEY_CMD level (R282); 0: no ratio. -/
def injectInterval (l : BitVec 4) : Nat :=
  match l.toNat with
  | 2 => 1000 | 3 => 10000 | 4 => 100000 | 5 => 1000000 | 6 => 10000000
  | _ => 0

/-! ### Families -/

/-- Framings (R178). -/
inductive Framing where
  | off
  | e1Crc
  | e1Basic
  | t1Sf
  | t1Esf
  deriving DecidableEq, Repr

/-- Line codes (R150, R164). -/
inductive LineCode where
  | none
  | hdb3
  | b8zs
  | ami
  | nrz
  deriving DecidableEq, Repr

/-- Framing of a family, by the KEY_Gn level that names it (R73). -/
def framingOf (fam : BitVec 4) : Framing :=
  match fam.toNat with
  | 1 | 3 | 9 => .e1Crc
  | 2 | 4 | 10 | 14 => .e1Basic
  | 5 | 7 | 11 => .t1Esf
  | 6 | 8 | 12 => .t1Sf
  | _ => .off

/-- Line code of a family (R73). -/
def lineCodeOf (fam : BitVec 4) : LineCode :=
  match fam.toNat with
  | 1 | 2 | 3 | 4 => .hdb3
  | 5 | 6 => .b8zs
  | 7 | 8 | 14 => .ami
  | 9 | 10 | 11 | 12 => .nrz
  | _ => .none

/-- The family runs at T1 rate. -/
def isT1 (fam : BitVec 4) : Bool :=
  match framingOf fam with
  | .t1Sf | .t1Esf => true
  | _ => false

/-- The family runs at E1 rate. -/
def isE1 (fam : BitVec 4) : Bool :=
  match framingOf fam with
  | .e1Crc | .e1Basic => true
  | _ => false

/-- The family is T1-100 (R150). -/
def isT1Line (fam : BitVec 4) : Bool := isT1 fam && lineCodeOf fam != .nrz

/-- Position frames of one multiframe lag (R133). -/
def lagFrames (fam : BitVec 4) : Nat := if isT1 fam then 24 else 16

/-- A carriage fits a family (R361). -/
def carriageFits (c : Carriage) (fam : BitVec 4) : Bool :=
  match c with
  | .fdl => isT1Line fam && framingOf fam == .t1Esf
  | _ => isE1 fam

/-- The family a profile's FAMILY field names: 0, 13, 15 and reserved codes mean OFF (R98, R91). -/
def profileFamily (n : Nat) : BitVec 4 := if framingOf (BitVec.ofNat 4 n) = .off ∨ 15 < n then 0 else BitVec.ofNat 4 n

/-! ### Cell headers -/

/-- Code of a class (R210). -/
def classCode : CellClass → Nat
  | .rally => 0 | .circuit => 1 | .packet => 2 | .beat => 3

/-- Class of a code (R210). -/
def classOf (n : Nat) : CellClass :=
  match n with
  | 0 => .rally | 1 => .circuit | 2 => .packet | _ => .beat

/-- The fields of a header word (R210). -/
def cellOf (h : BitVec 64) (payload : List Byte) : Cell :=
  let w := h.toNat
  { cls := classOf (fieldOf w 62 2), dest := fieldOf w 56 6, src := fieldOf w 50 6, seq := BitVec.ofNat 16 (fieldOf w 34 16),
    copy := fieldOf w 29 5, cm := bitOf w 28, bt := bitOf w 27, dirn := bitOf w 26, eng := bitOf w 25,
    frag := BitVec.ofNat 2 (fieldOf w 23 2), len := fieldOf w 17 6, page := fieldOf w 13 4, payload := fitTo 56 payload }

/-- The header word of a cell, HEC included (R210, R211). -/
def headerOf (c : Cell) : BitVec 64 :=
  let w : Nat := classCode c.cls * 2 ^ 62 + c.dest % 64 * 2 ^ 56 + c.src % 64 * 2 ^ 50 + c.seq.toNat * 2 ^ 34 +
    c.copy % 32 * 2 ^ 29 + b2n c.cm * 2 ^ 28 + b2n c.bt * 2 ^ 27 + b2n c.dirn * 2 ^ 26 + b2n c.eng * 2 ^ 25 +
    c.frag.toNat * 2 ^ 23 + c.len % 64 * 2 ^ 17 + c.page % 16 * 2 ^ 13
  let h := BitVec.ofNat 64 w
  h ||| (hecOf h).zeroExtend 64

/-- The flow of a cell at its receiver (R215): by source towards an engine, by destination from one. -/
def flowOf (c : Cell) : Flow :=
  match c.cls with
  | .circuit => if c.dirn then ⟨.circuit, 0, c.dest⟩ else ⟨.circuit, c.src, 0⟩
  | cls => ⟨cls, c.src, c.dest⟩

end Sys2Proof.Machine
end

