-- ==== Sys2Proof/Machine/LineCode.lean ====
section
/-! DEFINITION. The line codes of G.703 and T1.403 (R164 to R166): the substitutions a decoder recognises, the coding events
it reports, and the encoder. -/

namespace Sys2Proof.Machine

/-- A pulse of a polarity, true for positive. -/
def pulseOf (b : Bool) : Pulse := if b then .pos else .neg

/-- Polarity of a bit period that has a pulse. -/
def polarityOf (x : Pulse) : Option Bool :=
  match x with
  | .none => none
  | .pos => some true
  | .neg => some false

/-- A bit period has a pulse. -/
def isPulse (x : Pulse) : Bool := x != .none

/-- An HDB3 substitution begins here (R164, R165): 000V or B00V, V of the last pulse's polarity and not of the last V's. The
answer is the polarity of its V; `last`, `lastV`: polarities of the last pulse and of the last V, none while unknown. -/
def hdb3At (last lastV : Option Bool) (l : List Pulse) : Option Bool :=
  match l with
  | b :: .none :: .none :: v :: _ =>
    match polarityOf v with
    | some y =>
      let b00v := polarityOf b == some y && last != some y
      let zero3 := b == .none && last == some y
      if (b00v || zero3) && lastV != some y then some y else none
    | none => none
  | _ => none

/-- A B8ZS substitution begins here: 000VB0VB, the first V of the last pulse's polarity. -/
def b8zsAt (last : Option Bool) (l : List Pulse) : Bool :=
  match last with
  | some y => l.take 8 == [.none, .none, .none, pulseOf y, pulseOf (!y), .none, pulseOf (!y), pulseOf y]
  | none => false

/-- The bit periods that belong to valid substitutions (R165); `skip`: periods still to go of one that has begun. -/
def substituted (c : LineCode) : Nat → Option Bool → Option Bool → List Pulse → List Bool
  | _, _, _, [] => []
  | n + 1, last, lastV, x :: l => true :: substituted c n (polarityOf x <|> last) lastV l
  | 0, last, lastV, x :: l =>
    let next := polarityOf x <|> last
    match c with
    | .hdb3 => match hdb3At last lastV (x :: l) with
      | some y => true :: substituted c 3 next (some y) l
      | none => false :: substituted c 0 next lastV l
    | .b8zs => if b8zsAt last (x :: l) then true :: substituted c 7 next lastV l else false :: substituted c 0 next lastV l
    | _ => false :: substituted c 0 next lastV l

/-- The bits that a decoder takes from bit periods (R165): zeros for a substitution, ones for every other pulse, a violation
among them. -/
def decodePulses (c : LineCode) (l : List Pulse) : List Bool :=
  List.zipWith (fun x sub => isPulse x && !sub) l (substituted c 0 none none l)

/-- The bits of a received line frame (R165). -/
def rxBits (c : LineCode) (w : RxPulses) : List Bool :=
  ((decodePulses c (w.before ++ w.frame ++ w.after)).drop w.before.length).take w.frame.length

/-- The octets of a frame's bits in the order received: eight by eight on E1; on T1 the F bit alone in the first (R106). -/
def frameOctets (t1 : Bool) (bits : List Bool) : List Byte :=
  let body := if t1 then bits.drop 1 else bits
  let l := (List.range (body.length / 8)).map (fun i => bitsOctet ((body.drop (8 * i)).take 8))
  if t1 then bitsOctet (bits.take 1) :: l else l

/-- The last pulse before a place. -/
def lastPulse (l : List Pulse) (i : Nat) : Option Bool := ((l.take i).reverse.find? isPulse).bind polarityOf

/-- A bipolar violation (R165): the pulse in place `i` has the polarity of the pulse before it and belongs to no valid
substitution. -/
def violationAt (c : LineCode) (l : List Pulse) (i : Nat) : Bool :=
  let x := l.getD i .none
  c != .nrz && c != .none && isPulse x && polarityOf x == lastPulse l i && !(substituted c 0 none none l).getD i true

/-- Bit periods without a pulse at the end of those seen. -/
def emptyRun (l : List Pulse) : Nat := (l.reverse.takeWhile (fun x => x == .none)).length

/-- The run of zeros a code allows (R165). -/
def zeroLimit (c : LineCode) : Option Nat :=
  match c with
  | .hdb3 => some 3
  | .b8zs => some 7
  | .ami => some 15
  | _ => none

/-- Excess zeros (R165), reported once per run: the last bit period seen is the zero that exceeds the limit. -/
def zerosExceeded (c : LineCode) (l : List Pulse) : Bool :=
  match zeroLimit c with
  | some n => emptyRun l == n + 1
  | none => false

/-- Longest run of bit periods without a pulse. -/
def longestEmpty : Nat → Nat → List Pulse → Nat
  | run, best, [] => max run best
  | run, best, x :: l => if x = .none then longestEmpty (run + 1) best l else longestEmpty 0 (max run best) l

/-! ### The encoder (R164) -/

/-- One bit through the encoder: the bit periods it gives out, and what it keeps. Zeros are given out once they can no longer
become a substitution. -/
def encodeBit (c : LineCode) (k : Coder) (b : Bool) : List Pulse × Coder :=
  if c = .nrz ∨ c = .none then ([if b then .pos else .none], k)
  else if b then (List.replicate k.zeros .none ++ [pulseOf (!k.last)], { k with last := !k.last, zeros := 0 })
  else
    match c with
    | .hdb3 =>
      if k.zeros + 1 = 4 then
        if k.last = k.lastV then
          ([pulseOf (!k.last), .none, .none, pulseOf (!k.last)], ⟨!k.last, !k.last, 0⟩)
        else ([.none, .none, .none, pulseOf k.last], ⟨k.last, k.last, 0⟩)
      else ([], { k with zeros := k.zeros + 1 })
    | .b8zs =>
      if k.zeros + 1 = 8 then
        ([.none, .none, .none, pulseOf k.last, pulseOf (!k.last), .none, pulseOf (!k.last), pulseOf k.last], { k with zeros := 0 })
      else ([], { k with zeros := k.zeros + 1 })
    | _ => ([.none], k)

/-- Bits through the encoder. -/
def encodeBits (c : LineCode) : Coder → List Bool → List Pulse × Coder
  | k, [] => ([], k)
  | k, b :: l =>
    let (x, k1) := encodeBit c k b
    let (y, k2) := encodeBits c k1 l
    (x ++ y, k2)

end Sys2Proof.Machine
end

