-- ==== Sys2Proof/Machine/Standards.lean ====
section
/-! DEFINITION. What the manual takes from published standards by name without printing it (R6): the law tables of G.711, the
32 kb/s encoder of G.726, the check bits of G.704 and T1.403, and the polarity of O.150.
PRESUMED throughout (assumption 49): the definitions are those of the standards as the model's author knows them. -/

namespace Sys2Proof.Machine

/-! ### Laws (R286) -/

/-- A-law decoder value, 1 to 128, that stands for each mu-law value, 0 to 127 (table of G.711). -/
def muValueToA : List Nat :=
  [1, 1, 2, 2, 3, 3, 4, 4, 5, 5, 6, 6, 7, 7, 8, 8, 9, 10, 11, 12, 13, 14, 15, 16, 17, 18, 19, 20, 21, 22, 23, 24] ++
  [25, 27, 29, 31, 33, 34, 35, 36, 37, 38, 39, 40, 41, 42, 43, 44, 46, 48, 49, 50, 51, 52, 53, 54, 55, 56, 57, 58, 59, 60, 61, 62] ++
  [64, 65, 66, 67, 68, 69, 70, 71, 72, 73, 74, 75, 76, 77, 78, 79, 81, 82, 83, 84, 85, 86, 87, 88, 89, 90, 91, 92, 93, 94, 95, 96] ++
  [97, 98, 99, 100, 101, 102, 103, 104, 105, 106, 107, 108, 109, 110, 111, 112, 113, 114, 115, 116, 117, 118, 119, 120, 121, 122, 123, 124, 125, 126, 127, 128]

/-- Mu-law decoder value, 0 to 127, that stands for each A-law value, 1 to 128, in order (table of G.711). -/
def aValueToMu : List Nat :=
  [1, 3, 5, 7, 9, 11, 13, 15, 16, 17, 18, 19, 20, 21, 22, 23, 24, 25, 26, 27, 28, 29, 30, 31, 32, 32, 33, 33, 34, 34, 35, 35] ++
  [36, 37, 38, 39, 40, 41, 42, 43, 44, 45, 46, 47, 48, 48, 49, 49, 50, 51, 52, 53, 54, 55, 56, 57, 58, 59, 60, 61, 62, 63, 64, 64] ++
  [65, 66, 67, 68, 69, 70, 71, 72, 73, 74, 75, 76, 77, 78, 79, 79, 80, 81, 82, 83, 84, 85, 86, 87, 88, 89, 90, 91, 92, 93, 94, 95] ++
  [96, 97, 98, 99, 100, 101, 102, 103, 104, 105, 106, 107, 108, 109, 110, 111, 112, 113, 114, 115, 116, 117, 118, 119, 120, 121, 122, 123, 124, 125, 126, 127]

/-- A-law to mu-law (R286): line octets, the even bits of A-law inverted. -/
def alawToMulaw (o : Byte) : Byte :=
  let v := (o ^^^ 0x55) &&& 0x7F
  let m : Byte := 0x7F ^^^ BitVec.ofNat 8 (aValueToMu.getD v.toNat 0)
  (o &&& 0x80) ||| m

/-- Mu-law to A-law (R286). -/
def mulawToAlaw (o : Byte) : Byte :=
  let v := (o ^^^ 0x7F) &&& 0x7F
  let a : Byte := 0x55 ^^^ BitVec.ofNat 8 (muValueToA.getD v.toNat 1 - 1)
  (o &&& 0x80) ||| a

/-- The 14-bit linear value of an A-law octet. -/
def alawLinear (o : Byte) : Int :=
  let v := (o ^^^ 0x55).toNat
  let m := v % 16 * 16
  let seg := v / 16 % 8
  let t := if seg = 0 then m + 8 else (m + 264) * 2 ^ (seg - 1)
  if 128 ≤ v then (t : Int) / 4 else -((t : Int) / 4)

/-- The 14-bit linear value of a mu-law octet. -/
def mulawLinear (o : Byte) : Int :=
  let v := (~~~ o).toNat
  let t := (v % 16 * 8 + 132) * 2 ^ (v / 16 % 8)
  if 128 ≤ v then -(((t - 132 : Nat) : Int) / 4) else ((t - 132 : Nat) : Int) / 4

/-! ### G.726 at 32 kb/s (R298) -/

/-- Quantised differences and reconstructed signals as the encoder's predictor keeps them: sign, exponent, and a mantissa of
six bits. -/
structure Float11 where
  neg  : Bool
  exp  : Nat
  mant : Nat
  deriving DecidableEq, Repr

/-- State variables of the encoder: scale factors, speed control, pole and zero coefficients, and what they act on. -/
structure Adpcm where
  yl  : Int
  yu  : Int
  dms : Int
  dml : Int
  ap  : Int
  a1  : Int
  a2  : Int
  b   : List Int
  pk1 : Bool
  pk2 : Bool
  dq  : List Float11
  sr  : List Float11
  td  : Bool
  deriving DecidableEq, Repr

/-- A value of zero in the predictor's form. -/
def Float11.zero : Float11 := ⟨false, 0, 32⟩

/-- The reset values of G.726. -/
def Adpcm.reset : Adpcm :=
  { yl := 34816, yu := 544, dms := 0, dml := 0, ap := 0, a1 := 0, a2 := 0, b := List.replicate 6 0, pk1 := false, pk2 := false
    dq := List.replicate 6 Float11.zero, sr := List.replicate 2 Float11.zero, td := false }

/-- Bits that a magnitude fills. -/
def bitLen (n : Nat) : Nat := if n = 0 then 0 else Nat.log2 n + 1

/-- A magnitude with its sign in the predictor's form. -/
def toFloat11 (neg : Bool) (mag : Nat) : Float11 :=
  if mag = 0 then ⟨neg, 0, 32⟩ else ⟨neg, bitLen mag, mag * 64 / 2 ^ bitLen mag⟩

/-- Arithmetic shift right. -/
def asr (x : Int) (n : Nat) : Int := x / (2 ^ n : Nat)

/-- Product of a coefficient and a kept value, as the predictor forms it. -/
def floatMul (an : Int) (x : Float11) : Int :=
  let mag := if 0 < an then an.toNat else (-an).toNat % 0x2000
  let e : Int := (bitLen mag : Int) - 6
  let m : Nat := if mag = 0 then 32 else if 0 ≤ e then mag / 2 ^ e.toNat else mag * 2 ^ (-e).toNat
  let we : Int := e + x.exp - 13
  let wm : Nat := (m * x.mant + 0x30) / 16
  let v : Nat := if 0 ≤ we then wm * 2 ^ we.toNat % 0x8000 else wm / 2 ^ (-we).toNat
  if xor (decide (an < 0)) x.neg then -(v : Int) else v

/-- Step size of the quantiser. -/
def Adpcm.step (s : Adpcm) : Int :=
  if 256 ≤ s.ap then s.yu
  else
    let y := asr s.yl 6
    let dif := s.yu - y
    let al := asr s.ap 2
    if 0 < dif then y + asr (dif * al) 6 else if dif < 0 then y + asr (dif * al + 0x3F) 6 else y

/-- Decision levels, reconstruction levels, scale factors and speed control of the 32 kb/s rate. -/
def adpcmLevels : List Int := [-124, 80, 178, 246, 300, 349, 400]
def adpcmOut : List Int := [-2048, 4, 135, 213, 273, 323, 373, 425, 425, 373, 323, 273, 213, 135, 4, -2048]
def adpcmScale : List Int := [-12, 18, 41, 64, 112, 198, 355, 1122, 1122, 355, 198, 112, 64, 41, 18, -12]
def adpcmSpeed : List Int := [0, 0, 0, 0x200, 0x200, 0x200, 0x600, 0xE00, 0xE00, 0x600, 0x200, 0x200, 0x200, 0, 0, 0]

/-- The codeword of a difference under a step size. -/
def adpcmQuantise (d y : Int) : Nat :=
  let m := d.natAbs
  let e := bitLen (m / 2)
  let dl : Int := (e * 128 + m * 128 / 2 ^ e % 128 : Nat)
  let dln := dl - asr y 2
  let i := (adpcmLevels.takeWhile (fun v => decide (v ≤ dln))).length
  if d < 0 then 15 - i else if i = 0 then 15 else i

/-- Magnitude of the quantised difference. -/
def adpcmMagnitude (i : Nat) (y : Int) : Nat :=
  let dql := adpcmOut.getD i 0 + asr y 2
  if dql < 0 then 0
  else
    let l := dql.toNat
    (128 + l % 128) * 128 / 2 ^ (14 - l / 128 % 16)

/-- A value held between two limits. -/
def clampInt (lo hi x : Int) : Int := if x < lo then lo else if hi < x then hi else x

/-- The second pole coefficient after a codeword. -/
def adpcmA2 (s : Adpcm) (pk0 : Bool) (moved : Bool) : Int :=
  let a := s.a2 - asr s.a2 7
  if moved then
    let f := if xor pk0 s.pk1 then s.a1 else -s.a1
    let g := if f < -8191 then a - 0x100 else if 8191 < f then a + 0xFF else a + asr f 5
    clampInt (-12288) 12288 (if xor pk0 s.pk2 then g - 0x80 else g + 0x80)
  else a

/-- The first pole coefficient after a codeword, `a2` being the second. -/
def adpcmA1 (s : Adpcm) (pk0 moved : Bool) (a2 : Int) : Int :=
  let a := s.a1 - asr s.a1 8
  let b := if moved then (if xor pk0 s.pk1 then a - 192 else a + 192) else a
  clampInt (-(15360 - a2)) (15360 - a2) b

/-- A zero coefficient after a codeword. -/
def adpcmB (neg : Bool) (mag : Nat) (b : Int) (x : Float11) : Int :=
  let c := b - asr b 8
  if mag = 0 then c else if neg == x.neg then c + 128 else c - 128

/-- A partial transition of the signal. -/
def Adpcm.transition (s : Adpcm) (mag : Nat) : Bool :=
  let yi := (asr s.yl 15).toNat
  let yf := (asr s.yl 10).toNat % 32
  let thr := if 9 < yi then 31 * 1024 else (32 + yf) * 2 ^ yi
  s.td && decide ((thr + thr / 2) / 2 < mag)

/-- The state after a codeword: `y` the step size, `neg` and `mag` the quantised difference, `sr` the reconstructed signal,
`sez` the difference from the signal's pole part. -/
def Adpcm.update (s : Adpcm) (i : Nat) (y : Int) (neg : Bool) (mag : Nat) (sr dqsez : Int) : Adpcm :=
  let pk0 := decide (dqsez < 0)
  let moved := decide (dqsez ≠ 0)
  let tr := s.transition mag
  let yu := clampInt 544 5120 (y + asr (adpcmScale.getD i 0 * 32 - y) 5)
  let a2 := if tr then 0 else adpcmA2 s pk0 moved
  let td := if tr then false else decide (a2 < -11776)
  let fi := adpcmSpeed.getD i 0
  let dms := s.dms + asr (fi - s.dms) 5
  let dml := s.dml + asr (fi * 4 - s.dml) 7
  let fast := decide (y < 1536) || td || decide (asr dml 3 ≤ ((dms * 4 - dml).natAbs : Int))
  { yl := s.yl + yu + asr (-s.yl) 6
    yu := yu, dms := dms, dml := dml
    ap := if tr then 256 else if fast then s.ap + asr (0x200 - s.ap) 4 else s.ap + asr (-s.ap) 4
    a1 := if tr then 0 else adpcmA1 s pk0 moved a2
    a2 := a2
    b := if tr then List.replicate 6 0 else List.zipWith (adpcmB neg mag) s.b s.dq
    pk1 := pk0, pk2 := s.pk1
    dq := toFloat11 neg mag :: s.dq.take 5
    sr := toFloat11 (decide (sr < 0)) sr.natAbs :: s.sr.take 1
    td := td }

/-- One octet's linear value through the encoder: its codeword and the state after it. -/
def Adpcm.encode (s : Adpcm) (sl : Int) : Nat × Adpcm :=
  let sezi := (List.zipWith (fun b x => floatMul (asr b 2) x) s.b s.dq).foldl (· + ·) 0
  let pole := floatMul (asr s.a2 2) (s.sr.getD 1 Float11.zero) + floatMul (asr s.a1 2) (s.sr.getD 0 Float11.zero)
  let sez := asr sezi 1
  let se := asr (sezi + pole) 1
  let y := s.step
  let i := adpcmQuantise (sl - se) y
  let neg := decide (8 ≤ i)
  let mag := adpcmMagnitude i y
  let sr := if neg then se - (mag % 0x4000 : Nat) else se + mag
  (i, s.update i y neg mag sr (sr + sez - se))

/-- The codewords of octets after a reset of the encoder, in order (R298). -/
def adpcm32From (aLaw : Bool) : Adpcm → List Byte → List (BitVec 4)
  | _, [] => []
  | s, o :: l =>
    let (i, t) := s.encode (if aLaw then alawLinear o else mulawLinear o)
    BitVec.ofNat 4 i :: adpcm32From aLaw t l

/-- The codewords of a stream (R298). -/
def adpcm32 (aLaw : Bool) (l : List Byte) : List (BitVec 4) := adpcm32From aLaw Adpcm.reset l

/-! ### Check bits of multiframes (R189, R195, R198) -/

/-- One bit of a cyclic code of `n` check bits whose polynomial is x^n + x + 1, from a register of zeros. -/
def cyclicBit (n : Nat) (r : Nat) (b : Bool) : Nat :=
  let top := xor (bitOf r (n - 1)) b
  let s := r * 2 % 2 ^ n
  if top then s ^^^ 3 else s

/-- The check bits of a bit sequence, the first in the highest place. -/
def cyclicCheck (n : Nat) (l : List Bool) : Nat := l.foldl (cyclicBit n) 0

/-- The bits of an E1 frame in the order sent. -/
def e1Bits (octets : List Byte) : List Bool := octets.flatMap octetBits

/-- The bits of a T1 frame in the order sent: the F bit, then channels 1 to 24. -/
def t1Bits (octets : List Byte) : List Bool :=
  bitOf (byteAt octets 0).toNat 7 :: ((octets.drop 1).take 24).flatMap octetBits

/-- C1 to C4 of a CRC-4 sub-multiframe, C1 highest, given its eight frames with their C bits 0: x^4 + x + 1. -/
def crc4 (block : List (List Byte)) : Nat := cyclicCheck 4 (block.flatMap e1Bits)

/-- C1 to C6 of an ESF superframe, C1 highest, given its 24 frames with the F bits as the code takes them: x^6 + x + 1. -/
def crc6 (block : List (List Byte)) : Nat := cyclicCheck 6 (block.flatMap t1Bits)

/-! ### O.150 (R269) -/

/-- O.150 inverts the register's output for 2^15 - 1 and 2^23 - 1 alone. -/
def o150Inverted (type : Nat) : Bool := type == 2 || type == 4

end Sys2Proof.Machine
end

