-- ==== Sys2Proof/Machine/Ops.lean ====
section
/-! DEFINITION. The named operations that the meanings share: memory, ports, engines, dies and positions. -/

namespace Sys2Proof.Machine

/-! ### Memory -/

/-- The byte at an address; `d` is what an unlisted address reads as. -/
def Mem.read (d : Byte) : Mem → Nat → Byte
  | [], _ => d
  | (a, b) :: m, x => if x = a then b else Mem.read d m x

/-- Write one byte, keeping addresses strictly rising and no entry equal to `d`. -/
def Mem.write (d : Byte) : Mem → Nat → Byte → Mem
  | [], x, v => if v = d then [] else [(x, v)]
  | (a, b) :: m, x, v =>
    if x < a then (if v = d then (a, b) :: m else (x, v) :: (a, b) :: m)
    else if x = a then (if v = d then m else (x, v) :: m)
    else (a, b) :: Mem.write d m x v

/-- Write bytes at rising addresses. -/
def Mem.writeAll (d : Byte) : Mem → Nat → List Byte → Mem
  | m, _, [] => m
  | m, x, v :: vs => Mem.writeAll d (Mem.write d m x v) (x + 1) vs

/-- `n` bytes from an address on. -/
def Mem.readAll (d : Byte) (m : Mem) (x : Nat) : Nat → List Byte
  | 0 => []
  | n + 1 => Mem.read d m x :: Mem.readAll d m (x + 1) n

/-- Every address of the memory is at least `x`, rising, with no entry equal to `d`. -/
def Mem.wfFrom (d : Byte) : Nat → Mem → Bool
  | _, [] => true
  | x, (a, b) :: m => decide (x ≤ a) && decide (b ≠ d) && Mem.wfFrom d (a + 1) m

/-- The canonical form of a memory. -/
def Mem.wf (d : Byte) (m : Mem) : Bool := Mem.wfFrom d 0 m

/-- What an unlisted address of the map flash reads as: erased NOR flash. PRESUMED: the family's erased state; the
manual says no more than that the flash is a NOR flash (R86). -/
def flashFill : Byte := 0xFF

/-- What an unlisted address of the FRAM, the PSRAM or the keeper SRAM reads as. DESIGN CHOICE: the manual gives their
contents at first power no value. -/
def ramFill : Byte := 0x00

/-! ### Ports, dies, engines, pairs -/

/-- Change one port. -/
def State.setPort (s : State) (p : Port) (f : PortSt → PortSt) : State := { s with ports := updV s.ports p f }

/-- Change every port. -/
def State.mapPorts (s : State) (f : Port → PortSt → PortSt) : State :=
  { s with ports := Vector.ofFn (fun i => f i s.ports[i]) }

def State.setHinge (s : State) (p : Port) (f : Hinge → Hinge) : State :=
  s.setPort p (fun x => { x with hinge := f x.hinge })

def State.setLine (s : State) (p : Port) (f : Line → Line) : State :=
  s.setPort p (fun x => { x with line := f x.line })

def State.setFramer (s : State) (p : Port) (f : Framer → Framer) : State :=
  s.setPort p (fun x => { x with framer := f x.framer })

def State.setSlip (s : State) (p : Port) (f : Slip → Slip) : State :=
  s.setPort p (fun x => { x with slip := f x.slip })

def State.setRaw (s : State) (p : Port) (f : Raw → Raw) : State :=
  s.setPort p (fun x => { x with raw := f x.raw })

def State.setLatch (s : State) (p : Port) (f : Latch → Latch) : State :=
  s.setPort p (fun x => { x with latch := f x.latch })

/-- The line die that serves a port (R13). -/
def dieOf (p : Port) : LineDie := if p.val < 16 then .lda else .ldb

/-- A line die. -/
def State.die (s : State) (d : LineDie) : DieSt :=
  match d with
  | .lda => s.lda
  | .ldb => s.ldb

/-- Change a line die. -/
def State.setDie (s : State) (d : LineDie) (f : DieSt → DieSt) : State :=
  match d with
  | .lda => { s with lda := f s.lda }
  | .ldb => { s with ldb := f s.ldb }

/-- An engine. -/
def State.eng (s : State) (e : Eng) : EngSt :=
  match e with
  | .ex => s.engX
  | .ey => s.engY

/-- Change an engine. -/
def State.setEng (s : State) (e : Eng) (f : EngSt → EngSt) : State :=
  match e with
  | .ex => { s with engX := f s.engX }
  | .ey => { s with engY := f s.engY }

def State.setCtl (s : State) (e : Eng) (f : EngCtl → EngCtl) : State :=
  s.setEng e (fun x => { x with ctl := f x.ctl })

def State.setEngTally (s : State) (e : Eng) (f : EngTally → EngTally) : State :=
  s.setEng e (fun x => { x with tally := f x.tally })

def State.setData (s : State) (e : Eng) (f : EngData → EngData) : State :=
  s.setEng e (fun x => { x with data := f x.data })

/-- What a line die keeps of an engine. -/
def DieSt.ofEng (d : DieSt) (e : Eng) : DieEng :=
  match e with
  | .ex => d.engX
  | .ey => d.engY

def DieSt.setOfEng (d : DieSt) (e : Eng) (f : DieEng → DieEng) : DieSt :=
  match e with
  | .ex => { d with engX := f d.engX }
  | .ey => { d with engY := f d.engY }

/-- The links of a line die to an engine. -/
def DieSt.links (d : DieSt) (e : Eng) : Vector Link 2 :=
  match e with
  | .ex => d.linkX
  | .ey => d.linkY

def DieSt.setLink (d : DieSt) (e : Eng) (l : LinkId) (f : Link → Link) : DieSt :=
  match e with
  | .ex => { d with linkX := updV d.linkX l f }
  | .ey => { d with linkY := updV d.linkY l f }

def State.setPair (s : State) (g : PairId) (f : PairSt → PairSt) : State := { s with pairs := updV s.pairs g f }

/-- Change a pattern definition of an engine. -/
def State.setPat (s : State) (e : Eng) (i : PatId) (f : PatSt → PatSt) : State :=
  s.setData e (fun d => { d with pats := updV d.pats i f })

/-- Change the requests of a pair in an engine. -/
def State.setReq (s : State) (e : Eng) (g : PairId) (f : PairReq → PairReq) : State :=
  s.setData e (fun d => { d with reqs := updV d.reqs g f })

def State.setTimer (s : State) (i : TimerId) (f : Timer → Timer) : State := { s with timers := updV s.timers i f }

/-- Apply an operation to the state for each element of a list in order. -/
def forEach {α : Type} (l : List α) (f : α → State → State) (s : State) : State := l.foldl (fun t a => f a t) s

/-- Both engines in the order EX, EY. -/
def engines : List Eng := [.ex, .ey]

/-- Both line dies. -/
def lineDies : List LineDie := [.lda, .ldb]

/-- The KEY_ENG policy in force (R28, R66). -/
def State.policy (s : State) : Policy := engPolicy (bootActing 6 s.keys.boot[6])

/-- Register slices are fitted (R19). -/
def State.slices (s : State) : Bool := engSlices (bootActing 6 s.keys.boot[6])

/-- A port's family is not OFF. -/
def State.present (s : State) (p : Port) : Bool := framingOf s.ports[p].line.family != .off

/-! ### Positions -/

/-- A position as a 64-bit stamp (R7). -/
def Pos.stamp (p : Pos) : BitVec 64 := BitVec.ofNat 64 (p.t.toNat * 65536 + p.f.toNat * 2048 + p.k.toNat)

/-- A position in ticks since 0:0:0 (R55). -/
def Pos.ticks (p : Pos) : Nat := p.t.toNat * 65536 + p.f.toNat * 2048 + p.k.toNat

/-- Position frame number since 0:0. -/
def Pos.frames (p : Pos) : Nat := p.t.toNat * 32 + p.f.toNat

/-- The position in ticks now. -/
def State.now (s : State) : Nat := s.pos.ticks

/-- SEQ of a position frame (R212). -/
def seqOf (frame : Nat) : BitVec 16 := BitVec.ofNat 16 frame

/-- T:0:0 is a second boundary (R24). -/
def isSecond (t : Nat) : Bool := t % 250 == 0

/-- The first position of the next turn (R42). -/
def Pos.nextTurn (p : Pos) : Pos := ⟨p.t + 1, 0, 0⟩

/-- The first position of the next frame of the turn (R42). -/
def Pos.nextFrame (p : Pos) : Pos := if p.f = 31#5 then p.nextTurn else ⟨p.t, p.f + 1, 0⟩

end Sys2Proof.Machine
end

