-- ==== Sys2Proof/Machine/Flags.lean ====
section
/-! DEFINITION. The flag computations: the stamp-quality field (R45), the alarm conditions and ALARM_N (R398, R427),
sticky status bits of the image and the partner channel (R115, R386), and the unassigned-level flags (R72). -/

namespace Sys2Proof.Machine

/-- HOLD of the present tick (R45). -/
def Timebase.hold (t : Timebase) : Bool := t.mode == .holdover || t.mode == .slewFromHold

/-- FREE of the present tick (R45). -/
def Timebase.free (t : Timebase) : Bool := t.mode == .freeRun || t.mode == .slewFromFree

/-- The stamp-quality field of a tick (R45). -/
def Timebase.qual (t : Timebase) : BitVec 8 :=
  BitVec.ofNat 8 (b2n t.hold + 2 * b2n t.free + 4 * b2n t.est + 8 * b2n t.gap + 16 * b2n t.cold + 32 * b2n t.switched)

/-- The stamp-quality field of the present tick. -/
def State.qual (s : State) : BitVec 8 := s.time.qual

/-- The stamp of the present tick (R44). -/
def State.stamp (s : State) : BitVec 64 := s.pos.stamp

/-- The alarm conditions, by their bit of ALARMS (R427). -/
inductive AlarmBit where
  | kref | image | hinge | latch | dieLost | xin | proof | drift | engineOff | vline
  deriving DecidableEq, Repr

/-- Bit number of an alarm condition (R427). -/
def AlarmBit.num : AlarmBit → Nat
  | .kref => 0 | .image => 1 | .hinge => 2 | .latch => 3 | .dieLost => 4 | .xin => 5 | .proof => 6 | .drift => 7
  | .engineOff => 8 | .vline => 9

/-- An alarm condition holds. -/
def Alarm.on (a : Alarm) (b : AlarmBit) : Bool := a.holds.getLsbD b.num

/-- An alarm condition begins to hold, or goes on holding, at tick `now` (R398, R427). -/
def Alarm.raise (a : Alarm) (now : Nat) (b : AlarmBit) : Alarm :=
  { a with
    holds := setBit a.holds b.num true
    seen := setBit a.seen b.num true
    minEnd := if a.on b then a.minEnd else some (now + 65536) }

/-- An alarm condition ends (R398). -/
def Alarm.clear (a : Alarm) (b : AlarmBit) : Alarm := { a with holds := setBit a.holds b.num false }

/-- A timer pulse of 1024 ticks on ALARM_N (R398). -/
def Alarm.pulse (a : Alarm) (now : Nat) : Alarm := { a with pulseEnd := some (now + 1024) }

/-- A pulse, an alarm condition, or its minimum time calls for ALARM_N low at tick `now` (R398). -/
def Alarm.low (a : Alarm) (now : Nat) : Bool :=
  a.holds != 0 || a.pulseEnd.any (fun t => decide (now < t)) || a.minEnd.any (fun t => decide (now < t))

/-- KP's output balls ALARM_N, STAT_CK, STAT_FS and STAT_DO are not held high-impedance: out of reset in MAIN, after a start has let
the dies leave reset (R448, R467; a start that a stop of XIN abandoned leaves them out of it), and in RIDE and LAST until the
line dies lose power and XIN stops (R31, R457). -/
def State.ballsOn (s : State) : Bool :=
  match s.keeper.power with
  | .main => s.pins.resetN && (s.keeper.phase != .waiting || s.lda.powered)
  | .ride | .last => s.time.counting && (s.pins.resetN || s.keeper.phase == .done)
  | .dark => false

/-- The ball ALARM_N is driven low (R31, R398); otherwise it is high-impedance and the board pulls it high. -/
def State.alarmLow (s : State) : Bool := s.ballsOn && s.alarm.low s.now

/-- An alarm condition holds, or has its minimum time still to run (R441 bit 4 is the conditions alone). -/
def State.raise (s : State) (b : AlarmBit) : State := { s with alarm := s.alarm.raise s.now b }

/-- An alarm condition ends. -/
def State.lower (s : State) (b : AlarmBit) : State := { s with alarm := s.alarm.clear b }

/-- Raise or end an alarm condition as it stands. -/
def State.setAlarm (s : State) (b : AlarmBit) (on : Bool) : State := if on then s.raise b else s.lower b

/-- Bits of the image status field (R115). -/
inductive ImageBit where
  | aBad | bBad | fallback | differ | reload | refused | absent | noFlash
  deriving DecidableEq, Repr

def ImageBit.num : ImageBit → Nat
  | .aBad => 0 | .bBad => 1 | .fallback => 2 | .differ => 3 | .reload => 4 | .refused => 5 | .absent => 6 | .noFlash => 7

/-- Set a bit of the image status field. -/
def State.flagImage (s : State) (b : ImageBit) : State :=
  { s with image := { s.image with status := setBit s.image.status b.num true } }

/-- Bits 3 to 7 of the partner status field (R386). -/
inductive PartnerBit where
  | serialMismatch | insertWithheld | pageHeld | roleConflict | drift
  deriving DecidableEq, Repr

def PartnerBit.num : PartnerBit → Nat
  | .serialMismatch => 3 | .insertWithheld => 4 | .pageHeld => 5 | .roleConflict => 6 | .drift => 7

/-- Set a bit of the partner status field. -/
def State.flagPartner (s : State) (b : PartnerBit) : State :=
  { s with partner := { s.partner with status := setBit s.partner.status b.num true } }

/-- The STATE field of the partner status (R386): 0 off, 1 searching, 2 FOUND, 3 LOST. -/
def Partner.setState (p : Partner) (n : Nat) : Partner :=
  { p with status := BitVec.ofNat 8 (p.status.toNat / 4 * 4 + n % 4) }

/-- The STATE field as it stands. -/
def Partner.state (p : Partner) : Nat := p.status.toNat % 4

/-- OBEYING (R386). -/
def Partner.setObeying (p : Partner) (b : Bool) : Partner := { p with status := setBit p.status 2 b }

/-- Unassigned-level flags in the order of R427: boot keys 0 to 7, then MODE, PAGE, CMD, TALLY. -/
def State.flagUnassigned (s : State) (i : Nat) : State :=
  { s with keys := { s.keys with unassigned := setBit s.keys.unassigned i true } }

/-- A POWER bit (R427). -/
def State.flagPower (s : State) (i : Nat) : State :=
  { s with keeper := { s.keeper with events := setBit s.keeper.events i true } }

/-- RIDE entries in POWER bits 15:8, held at 255 (R427). -/
def State.countRide (s : State) : State :=
  let n := fieldOf s.keeper.events.toNat 8 8
  { s with keeper := { s.keeper with
      events := BitVec.ofNat 32 (s.keeper.events.toNat - n * 256 + satAdd 255 n 1 * 256) } }

end Sys2Proof.Machine
end

