-- ==== Sys2Proof/Machine/ImageFields.lean ====
section
/-! DEFINITION. The Wosar image as bytes of the map flash (04_wosar_image): every field at its offset, the CRCs, what
makes a copy valid, and which window a function of a master uses (R409). -/

namespace Sys2Proof.Machine

/-- Flash address of a copy (R88). -/
def Copy.base : Copy → Nat
  | .a => 0x000000
  | .b => 0x800000

/-- The other copy. -/
def Copy.other : Copy → Copy
  | .a => .b
  | .b => .a

/-- Byte at an offset of a copy. -/
def imgByte (fl : Mem) (c : Copy) (off : Nat) : Byte := Mem.read flashFill fl (c.base + off)

/-- Little-endian field of `len` bytes at an offset of a copy (R11). -/
def imgField (fl : Mem) (c : Copy) (off len : Nat) : Nat := leNat (Mem.readAll flashFill fl (c.base + off) len)

/-! ### Header (R94) -/

def imgMagic (fl : Mem) (c : Copy) : Nat := imgField fl c 0x00 4
def imgIssue (fl : Mem) (c : Copy) : Nat := imgField fl c 0x04 2
def imgHdrLen (fl : Mem) (c : Copy) : Nat := imgField fl c 0x06 2
def imgCopyLen (fl : Mem) (c : Copy) : Nat := imgField fl c 0x08 4
def imgSerial (fl : Mem) (c : Copy) : Nat := imgField fl c 0x0C 4
def imgPageMask (fl : Mem) (c : Copy) : Nat := imgField fl c 0x10 2
def imgCopyCrc (fl : Mem) (c : Copy) : Nat := imgField fl c 0xFC 4

/-- Fitted FRAM size in bytes; a code outside 16 to 19 is read as 16 (R94). -/
def imgFramBytes (fl : Mem) (c : Copy) : Nat :=
  let n := imgField fl c 0x12 1
  2 ^ (if 16 ≤ n ∧ n ≤ 19 then n else 16)

/-- Fitted PSRAM size in bytes; a code outside 23 to 26 is read as 23 (R94). -/
def imgPsramBytes (fl : Mem) (c : Copy) : Nat :=
  let n := imgField fl c 0x13 1
  2 ^ (if 23 ≤ n ∧ n ≤ 26 then n else 23)

/-- CRC-32 over the copy bytes of R93. -/
def copyCrc (fl : Mem) (c : Copy) : BitVec 32 :=
  let rd := Mem.read flashFill fl
  crc32Range rd (0x110000 - 0x100) (c.base + 0x100) (crc32Range rd 0xFC c.base 0xFFFFFFFF#32) ^^^ 0xFFFFFFFF#32

/-- Offset of a page in a copy (R90). -/
def pageBase (n : Nat) : Nat := 0x10000 * (n + 1)

/-- CRC-32 over the page bytes of R93. -/
def pageCrc (fl : Mem) (c : Copy) (n : Nat) : BitVec 32 :=
  let rd := Mem.read flashFill fl
  let b := c.base + pageBase n
  crc32Range rd (0x10000 - 0x100) (b + 0x100) (crc32Range rd 0xFC b 0xFFFFFFFF#32) ^^^ 0xFFFFFFFF#32

/-- The page CRC a page carries (R105). -/
def pageCrcField (fl : Mem) (c : Copy) (n : Nat) : BitVec 32 := BitVec.ofNat 32 (imgField fl c (pageBase n + 0xFC) 4)

/-- Page n is present in a copy (R94). -/
def pagePresent (fl : Mem) (c : Copy) (n : Nat) : Bool := decide (n < 16) && bitOf (imgPageMask fl c) n

/-- A page has its magic, its own number and a matching page CRC (R113). -/
def pageValid (fl : Mem) (c : Copy) (n : Nat) : Bool :=
  (imgField fl c (pageBase n) 4 == 0x47415057) && (imgField fl c (pageBase n + 4) 2 == n) &&
    (pageCrcField fl c n == pageCrc fl c n)

/-- A copy is valid (R113). -/
def copyValid (fl : Mem) (c : Copy) : Bool :=
  (imgMagic fl c == 0x52415357) && (imgIssue fl c == 1) && (imgHdrLen fl c == 0x100) &&
    (imgCopyLen fl c == 0x110000) && bitOf (imgPageMask fl c) 0 && (imgCopyCrc fl c == (copyCrc fl c).toNat) &&
    (List.range 16).all (fun n => !pagePresent fl c n || pageValid fl c n)

/-! ### Windows (R95, R96, R409) -/

/-- A window as the matrix sees it. -/
structure Win where
  base    : Nat
  toff    : Nat
  size    : Nat
  target  : Nat
  masters : Nat
  access  : Nat
  deriving DecidableEq, Repr

/-- Size of a target as fitted (R96, R415). -/
def targetBytes (im : Image) (c : Copy) (t : Nat) : Nat :=
  match t with
  | 0 => 0x1000000
  | 1 => min (imgPsramBytes im.flash c) im.density
  | 2 => imgFramBytes im.flash c
  | _ => 0x10000

/-- Window w of the set in use, when R96 leaves it in use. -/
def windowOf (im : Image) (c : Copy) (w : Nat) : Option Win :=
  let o := 0x100 + 0x80 * im.windowSet + 0x10 * w
  let base := imgField im.flash c o 4
  let toff := imgField im.flash c (o + 4) 4
  let sz := imgField im.flash c (o + 8) 1
  let tgt := imgField im.flash c (o + 9) 1
  let t := if 3 < tgt then 0 else tgt
  let size := 2 ^ sz
  if 12 ≤ sz ∧ sz ≤ 26 then
    if base % size = 0 ∧ toff % size = 0 ∧ toff + size ≤ targetBytes im c t then
      let acc := imgField im.flash c (o + 11) 1 % 8
      some ⟨base, toff, size, t, imgField im.flash c (o + 10) 1 % 64,
        if t = 0 then acc % 2 + (acc / 4) * 4 else acc⟩
    else none
  else none

/-- The windows in use of the set in use. -/
def windows (im : Image) : List Win :=
  match im.inUse with
  | none => []
  | some c => (List.range 8).filterMap (windowOf im c)

/-- Number of a master in the MASTERS field (R95, R408). -/
def masterNum : Master → Fin 6
  | .loader => 0 | .captureX => 1 | .captureY => 2 | .dump => 3 | .proof => 4 | .lendMonitor => 5

/-- Number of a target (R95). -/
def targetNum : Target → Nat
  | .flash => 0 | .psram => 1 | .fram => 2 | .sram => 3

/-- A window gives a master this target with these access bits. -/
def Win.gives (w : Win) (t : Target) (m : Master) (acc : Nat) : Bool :=
  (w.target == targetNum t) && bitOf w.masters (masterNum m).val && (w.access &&& acc == acc)

/-- The target and the access a function needs (R409): target, access bits. -/
def fnNeeds : MatrixFn → Target × Nat
  | .pageRead => (.flash, 1)
  | .tallyRing => (.fram, 3)
  | .recordBuffer => (.sram, 3)
  | .captureRing => (.psram, 2)
  | .proofScratch => (.sram, 3)
  | .proofPage => (.flash, 1)
  | .lendCheckTally => (.fram, 3)
  | .lendCheckCapture => (.psram, 2)

/-- The window of a function of a master (R409): the lowest-numbered that meets its conditions. The lend checks use the
tally ring and capture ring windows, when these also carry the lend monitor and read. -/
def fnWindow (im : Image) (m : Master) (f : MatrixFn) : Option Win :=
  match f with
  | .lendCheckTally =>
    ((windows im).find? (fun w => w.gives .fram .dump 3)).filter (fun w => w.gives .fram .lendMonitor 1)
  | .lendCheckCapture =>
    ((windows im).find? (fun w => w.gives .psram .captureX 2 || w.gives .psram .captureY 2)).filter
      (fun w => w.gives .psram .lendMonitor 1)
  | .captureRing => (windows im).find? (fun w => w.gives .psram m 2)
  | _ => (windows im).find? (fun w => w.gives (fnNeeds f).1 m (fnNeeds f).2)

/-- The tally ring window (R409). -/
def ringWindow (im : Image) : Option Win := fnWindow im .dump .tallyRing

/-- The record buffer window. -/
def bufferWindow (im : Image) : Option Win := fnWindow im .dump .recordBuffer

/-- A memory has a lendable window (R417). -/
def lendable (im : Image) (m : LendTarget) : Bool :=
  (windows im).any (fun w => (w.target == (match m with | .tally => 2 | .capture => 1)) && bitOf w.access 2)

/-! ### Port profiles, timers, filters, protection, fabric, patterns (R98 to R103) -/

/-- A port profile (R98). -/
structure Profile where
  family  : BitVec 4
  lbo     : BitVec 3
  monitor : BitVec 2
  cas     : Bool
  robbed  : Bool
  deriving DecidableEq, Repr

/-- The profile of a port; none when absent (R74, R98). -/
def profileOf (fl : Mem) (c : Copy) (p : Port) : Option Profile :=
  let o := 0x300 + 16 * p.val
  if imgField fl c o 1 = 1 then
    let l := imgField fl c (o + 2) 1
    let mo := imgField fl c (o + 3) 1
    let sg := imgField fl c (o + 4) 1
    some ⟨profileFamily (imgField fl c (o + 1) 1), BitVec.ofNat 3 (if l ≤ 4 then l else 0),
      BitVec.ofNat 2 (if mo ≤ 3 then mo else 0), bitOf sg 0, bitOf sg 1⟩
  else none

/-- A timer preset (R99); reserved codes act as code 0 (R91). -/
structure Preset where
  src     : Nat
  arg     : Nat
  kind    : Nat
  gate    : Nat
  resetBy : Nat
  compare : BitVec 32
  action  : Nat
  actArg  : Nat
  enabled : Bool
  pulse   : Bool
  run     : Bool
  reload  : Bool
  deriving DecidableEq, Repr

/-- The preset of a timer (R99).  ACT_ARG runs from 0 to 15; what a greater byte means is left open, and it is taken
modulo 16 (DESIGN CHOICE, assumption 131). -/
def presetOf (fl : Mem) (c : Copy) (i : TimerId) : Preset :=
  let o := 0x500 + 16 * i.val
  let fb := fun x => imgField fl c (o + x) 1
  let src := fb 0
  let kd := fb 1 / 32
  let act := fb 8
  let flg := fb 10
  { src := if src ≤ 4 then src else 0, arg := fb 1 % 32, kind := if kd ≤ 4 then kd else 0, gate := fb 2, resetBy := fb 3,
    compare := BitVec.ofNat 32 (imgField fl c (o + 4) 4), action := if act ≤ 5 then act else 0, actArg := fb 9 % 16,
    enabled := bitOf flg 0, pulse := bitOf flg 1, run := bitOf flg 2, reload := bitOf flg 3 }

/-- A filter (R100). -/
structure Filter where
  classes   : Nat
  dies      : Nat
  firstPort : Nat
  lastPort  : Nat
  firstSlot : Nat
  lastSlot  : Nat
  event     : Nat
  deriving DecidableEq, Repr

/-- Filter f of set k. -/
def filterOf (fl : Mem) (c : Copy) (k f : Nat) : Filter :=
  let o := 0x600 + 0x80 * k + 8 * f
  let fb := fun x => imgField fl c (o + x) 1
  ⟨fb 0 % 8, fb 1 % 4, fb 2, fb 3, fb 4, fb 5, if fb 6 ≤ 4 then fb 6 else 0⟩

/-- A protection entry (R101). -/
structure ProtEntry where
  enabled   : Bool
  revertive : Bool
  sd        : Bool
  holdoff   : Nat
  wtr       : Nat
  threshold : Nat
  deriving DecidableEq, Repr

/-- The protection entry of a pair. -/
def protEntry (fl : Mem) (c : Copy) (g : PairId) : ProtEntry :=
  let o := 0x780 + 8 * g.val
  let flg := imgField fl c o 1
  ⟨bitOf flg 0, bitOf flg 1, bitOf flg 2, imgField fl c (o + 1) 1, imgField fl c (o + 2) 1, imgField fl c (o + 4) 2⟩

/-- Fabric and partner parameters (R102). -/
structure Fabric where
  mark     : Bool
  depth    : Nat
  cMark    : Nat
  pMark    : Nat
  meet     : Nat
  port     : Port
  deriving DecidableEq, Repr

/-- The fabric and partner parameters of a copy (R102).  A partner port byte above 31 is left open and taken modulo 32
(DESIGN CHOICE, assumption 132). -/
def fabricOf (fl : Mem) (c : Copy) : Fabric :=
  let fb := fun x n => imgField fl c (0x800 + x) n
  ⟨fb 0 1 == 1, fb 2 2, fb 4 2, fb 6 2, fb 8 2, ⟨fb 10 1 % 32, Nat.mod_lt _ (by decide)⟩⟩

/-- A pattern definition (R103). -/
structure PatDef where
  type     : Nat
  invert   : Bool
  generate : Bool
  analyse  : Bool
  port     : Port
  bitMask  : Nat
  slotMask : Nat
  len      : Nat
  word     : List Byte
  deriving DecidableEq, Repr

/-- Pattern definition i of a copy (R103); a reserved type acts as type 0 (R91).  A port byte above 31 is left open
and taken modulo 32 (DESIGN CHOICE, assumption 133). -/
def patDef (fl : Mem) (c : Copy) (i : PatId) : PatDef :=
  let o := 0x900 + 32 * i.val
  let fb := fun x => imgField fl c (o + x) 1
  let ty := fb 0
  let flg := fb 1
  { type := if ty ≤ 6 then ty else 0, invert := bitOf flg 0, generate := bitOf flg 1, analyse := bitOf flg 2,
    port := ⟨fb 2 % 32, Nat.mod_lt _ (by decide)⟩, bitMask := fb 3, slotMask := imgField fl c (o + 4) 4, len := fb 8,
    word := Mem.readAll flashFill fl (c.base + o + 12) 16 }

/-! ### Map pages (R104 to R112) -/

/-- The compare mask of a page (R105). -/
def pageCompareMask (fl : Mem) (c : Copy) (n : Nat) : Nat := imgField fl c (pageBase n + 6) 2

/-- The compare value a page gives a timer (R105). -/
def pageCompare (fl : Mem) (c : Copy) (n : Nat) (i : TimerId) : BitVec 32 :=
  BitVec.ofNat 32 (imgField fl c (pageBase n + 8 + 4 * i.val) 4)

/-- The port enable mask of a page (R105). -/
def pageEnable (fl : Mem) (c : Copy) (n : Nat) : Nat := imgField fl c (pageBase n + 0x48) 4

/-- A destination entry (R107). -/
structure Dest where
  v       : Bool
  srcPort : Port
  srcPos  : Nat
  w       : Bool
  law     : Nat
  rb      : Bool
  t       : Bool
  codec   : BitVec 2
  idle    : Byte
  deriving DecidableEq, Repr

/-- The fields of a 32-bit entry; reserved LAW and CODEC codes act as code 0 (R91). -/
def destOf (x : Nat) : Dest :=
  let law := fieldOf x 15 2
  let cod := fieldOf x 11 2
  { v := bitOf x 31, srcPort := ⟨fieldOf x 26 5 % 32, Nat.mod_lt _ (by decide)⟩, srcPos := fieldOf x 18 8,
    w := bitOf x 17, law := if law ≤ 2 then law else 0, rb := bitOf x 14, t := bitOf x 13,
    codec := BitVec.ofNat 2 (if cod ≤ 2 then cod else 0), idle := BitVec.ofNat 8 (fieldOf x 0 8) }

/-- The destination entry of a port and bit position (R107). -/
def destEntry (fl : Mem) (c : Copy) (n : Nat) (d : Port) (b : Nat) : Dest :=
  destOf (imgField fl c (pageBase n + 0x100 + 4 * (256 * d.val + b)) 4)

/-- The copy list entry of a port and source slot (R110). -/
def copyList (fl : Mem) (c : Copy) (n : Nat) (p slot : Nat) : BitVec 32 :=
  BitVec.ofNat 32 (imgField fl c (pageBase n + 0x8100 + 4 * (32 * p + slot)) 4)

/-- The copy in use, copy A while there is none. -/
def Image.copy (im : Image) : Copy := im.inUse.getD .a

/-- Fabric and partner parameters in use. -/
def State.fabric (s : State) : Fabric := fabricOf s.image.flash s.image.copy

/-- The preset of a timer in use. -/
def State.preset (s : State) (i : TimerId) : Preset := presetOf s.image.flash s.image.copy i

/-- The protection entry of a pair in use. -/
def State.prot (s : State) (g : PairId) : ProtEntry := protEntry s.image.flash s.image.copy g

/-- A pattern definition in use. -/
def State.patDef (s : State) (i : PatId) : PatDef := Sys2Proof.Machine.patDef s.image.flash s.image.copy i

/-! ### Bit positions (R106, R110) -/

/-- A position exists in a family. -/
def posExists (fam : BitVec 4) (b : Nat) : Bool := if isT1 fam then decide (b ≤ 192) else decide (b ≤ 255)

/-- The slot of a position (R110). -/
def slotOfPos (fam : BitVec 4) (b : Nat) : Nat :=
  if isT1 fam then (if b = 0 then 0 else (b - 1) / 8 + 1) else b / 8

/-- The bit index of a position; the T1 F bit has index 0 of slot 0. -/
def bitOfPos (fam : BitVec 4) (b : Nat) : Nat :=
  if isT1 fam then (if b = 0 then 0 else (b - 1) % 8) else b % 8

/-- The first position of a slot. -/
def slotStart (fam : BitVec 4) (slot : Nat) : Nat :=
  if isT1 fam then (if slot = 0 then 0 else 1 + 8 * (slot - 1)) else 8 * slot

/-- A slot-start position (R106); the T1 F bit is none. -/
def isSlotStart (fam : BitVec 4) (b : Nat) : Bool :=
  bitOfPos fam b == 0 && !(isT1 fam && b == 0)

/-- Whether the framer generates a position (R108, R196): E1 positions 0 to 7, T1 position 0, and TS16 of CAS frame 0
on a CAS-enabled port. -/
def framerMade (l : Line) (casFrame0 : Bool) (b : Nat) : Bool :=
  if isT1 l.family then b == 0
  else decide (b ≤ 7) || (l.cas && casFrame0 && decide (128 ≤ b ∧ b ≤ 135))

end Sys2Proof.Machine
end

