-- ==== Sys2Proof/Machine/Timers.lean ====
section
/-! DEFINITION. Position timers (R387 to R400), capture units (R402 to R407), and what is in service (R125). -/

namespace Sys2Proof.Machine

/-! ### The page in force and the ports in service -/

/-- The active engine: the holder of incumbency (R306). -/
def State.activeEng (s : State) : Option Eng :=
  match s.duplex.incumbency with
  | .held e => some e
  | _ => none

/-- The engine that leads: the active engine, the one that incumbency moves to, else EX unless the policy powers EY alone. -/
def State.leadEng (s : State) : Eng :=
  match s.duplex.incumbency with
  | .held e => e
  | .moving e _ => e.other
  | .nobody => if s.policy.powers .ex then .ex else .ey

/-- The engine whose active page and results the figures quote: the one that leads, or its partner when it alone has a page. -/
def State.mapEng (s : State) : Eng :=
  if (s.eng s.leadEng).data.activeOk || !(s.eng s.leadEng.other).data.activeOk then s.leadEng else s.leadEng.other

/-- The pattern definitions at work, as the engine whose results are quoted has them (R268). -/
def State.pats (s : State) : Vector PatSt 16 := (s.eng s.mapEng).data.pats

/-- Number of the active page; page 0 is the first of a start (R116). -/
def State.activePage (s : State) : Nat := match s.image.inForce with | some (n, _) => n | none => 0

/-- Copy that the active page was loaded from. -/
def State.activeCopy (s : State) : Copy := match s.image.inForce with | some (_, c) => c | none => s.image.copy

/-- Bit of the port enable mask of the active page (R112), whether or not an engine holds it at the moment. -/
def State.enabled (s : State) (p : Port) : Bool :=
  s.image.inForce.isSome && bitOf (pageEnable s.image.flash s.activeCopy s.activePage) p.val

/-- A port is in service (R125). -/
def State.inService (s : State) (p : Port) : Bool :=
  s.present p && (s.modes.mode == .proof || s.enabled p)

/-! ### Gates, resets and counting -/

/-- The signal of a reference byte (R390); `dflt` is what kinds 0b00 and 0b11 give.  Timers are 0 to 15: R99 leaves
open what an index of 16 to 31 means, and its OUT is taken as 0 here, which gives no event either (DESIGN CHOICE,
assumption 130). -/
def State.refSignal (s : State) (b : Nat) (dflt : Bool) : Bool :=
  let i := b % 32
  let inv := bitOf b 5
  match b / 64 with
  | 1 => xor inv (match s.timers[i]? with | some t => t.out | none => false)
  | 2 => xor inv (s.inService ⟨i, Nat.mod_lt _ (by decide)⟩)
  | _ => dflt

/-- The GATE signal of a timer (R390). -/
def State.gateSignal (s : State) (i : TimerId) : Bool := s.refSignal (s.preset i).gate true

/-- The RESET_BY signal of a timer (R390): kinds 0b00 and 0b11 never rise. -/
def State.resetSignal (s : State) (i : TimerId) : Bool := s.refSignal (s.preset i).resetBy false

/-- HALT freezes this timer: from the tick in which it is asserted to the tick in which it is released (R399, R400). -/
def State.frozen (s : State) (i : TimerId) : Bool := s.timers[i].held || (s.tap.halt && !(s.preset i).run)

/-- What a timer has counted. -/
def Timer.value (t : Timer) : Nat := t.counter.toNat + t.due

/-- A timer has counted `v`; what its counter cannot hold is due. -/
def Timer.hold (v : Nat) (t : Timer) : Timer :=
  { t with counter := BitVec.ofNat 32 (min v 0xFFFFFFFF), due := v - min v 0xFFFFFFFF }

/-- Add units to a counter; passing 2^32 makes an overflow due (R394), but for a reloading timer, whose matches come first and take
its compare value from what it has counted (R393). -/
def Timer.add (reload : Bool) (n : Nat) (t : Timer) : Timer :=
  if reload && t.armed then t.hold (t.value + n)
  else
    { t with
      counter := BitVec.ofNat 32 (t.counter.toNat + n)
      wrapped := t.wrapped || decide (2 ^ 32 ≤ t.counter.toNat + n) }

/-- Reset of a timer (R391). -/
def Timer.rewind (t : Timer) : Timer := { t with counter := 0, due := 0, out := false, armed := true, late := 0 }

/-- Units of its source reach a timer, if it is started, not frozen, its gate is open and it was neither reset nor started
at this tick (R389, R391, R399). -/
def State.unit (s : State) (i : TimerId) (n : Nat) : State :=
  let t := s.timers[i]
  if t.started && t.gate && !t.cleared && !s.frozen i then s.setTimer i (fun t => t.add (s.preset i).reload n) else s

/-- What a new tick does to one timer (R391, R392): its gate and reset are sampled as `s0` stood at the tick's start, a
rise of reset resets it, and otherwise the units due to it are counted. A frozen timer takes no unit and no rise (R399, R400). -/
def tickTimer (s0 : State) (i : TimerId) (s : State) : State :=
  let t := s.timers[i]
  let r := s0.resetSignal i
  if t.started && s0.tap.halt && !(s0.preset i).run then
    s.setTimer i (fun t => { t with resetWas := r, cleared := false, fresh := false, late := 0, held := true })
  else if t.started then
    let g := s0.gateSignal i
    if r && !t.resetWas then
      s.setTimer i (fun t => { t.rewind with gate := g, resetWas := r, cleared := true, fresh := false, held := false })
    else
      let n := t.late + b2n ((s0.preset i).src == 0)
      s.setTimer i (fun t =>
        { (if g then t.add (s0.preset i).reload n else t) with
          gate := g, resetWas := r, cleared := false, fresh := false, late := 0, held := false })
  else if t.cleared then s.setTimer i (fun t => { t with cleared := false })
  else s

/-- What a new tick does to the timers, in ascending index (R392). -/
def tickTimers (s : State) : State := forEach all16 (tickTimer s) s

/-- Units of the frame clock at tick 0 of a position frame (R389). -/
def frameUnits (s : State) : State :=
  forEach all16 (fun i t => if (t.preset i).src == 1 then t.unit i 1 else t) s

/-- Units of the turn clock at step 5 of a turn boundary (R389). -/
def turnUnits (s : State) : State :=
  forEach all16 (fun i t => if (t.preset i).src == 2 then t.unit i 1 else t) s

/-- An event of a timer reaches the timers it clocks: in this tick those of higher index, in the next tick the others
(R389, R392). -/
def passEvent (i : TimerId) (n : Nat) (s : State) : State :=
  forEach all16 (fun j t =>
    if (t.preset j).src == 3 && (t.preset j).arg == i.val then
      (if i.val < j.val then t.unit j n
       else if t.timers[j].started && !t.frozen j then t.setTimer j (fun x => { x with late := x.late + n }) else t)
    else t) s

/-- What `n` events of a timer at the present tick set (R396): stamp, flag, event count, pending action, pulse. -/
def timerEvents (i : TimerId) (isMatch : Bool) (n : Nat) (s : State) : State :=
  let pr := s.preset i
  let s1 := s.setTimer i (fun t =>
    { t with
      stamp := s.stamp, qual := s.qual
      match_ := t.match_ || isMatch, ovf := t.ovf || !isMatch
      events := sat16 t.events n
      pending := t.pending || pr.action != 0 })
  let s2 := { s1 with tally := { s1.tally with timerTurn := true } }
  passEvent i n (if pr.pulse then { s2 with alarm := s2.alarm.pulse s.now } else s2)

/-- A timer's compare value; 1 for a reloading timer whose compare value is 0 (R393). -/
def State.compareOf (s : State) (i : TimerId) : Nat :=
  let c := s.timers[i].compare.toNat
  if (s.preset i).reload && c == 0 then 1 else c

/-- A timer matches now (R393, R395). -/
def State.matches_ (s : State) (i : TimerId) : Bool :=
  let t := s.timers[i]
  t.started && t.armed && !t.fresh && !s.frozen i && decide (s.compareOf i ≤ t.value)

/-- One match of a timer (R393). -/
def doMatch (i : TimerId) (s : State) : State :=
  let c := s.compareOf i
  let s1 := s.setTimer i (fun t =>
    if (s.preset i).reload then
      { t.hold (t.value - c) with out := !t.out }
    else { t with armed := false, out := true })
  timerEvents i true 1 s1

/-- The overflow due of a timer (R394). -/
def doOverflow (i : TimerId) (s : State) : State :=
  timerEvents i false 1 (s.setTimer i (fun t => { t with wrapped := false, armed := true }))

/-- The matches of a timer that are due now. -/
def settleMatches : Nat → TimerId → State → State
  | 0, _, s => s
  | n + 1, i, s => if s.matches_ i then settleMatches n i (doMatch i s) else s

/-- The overflow and the matches of a timer that are due now: a reloading timer matches once for each time its counter reaches its
compare value (R393, R394). -/
def settleTimer (i : TimerId) (s : State) : State :=
  let s1 := if s.timers[i].wrapped && !s.frozen i then doOverflow i s else s
  settleMatches (s1.timers[i].value / s1.compareOf i + 1) i s1

/-- What is due of every timer in the present tick happens in it, in ascending index, whether or not an event has told (R392, R393). -/
def settleTimers (s : State) : State :=
  if s.timers.toList.all (fun t => !t.started) then s else forEach all16 settleTimer s

/-! ### Capture units -/

/-- Capture codes of the port-event kinds of SRC_ARG (R389). -/
def kindHas (kind code : Nat) : Bool :=
  match kind with
  | 0 => code == 1
  | 1 => code == 3
  | 2 => code == 5
  | 3 => code == 2 || code == 4 || code == 6
  | 4 => code == 7 || code == 8
  | _ => code == 1

/-- Place of a capture code in the order of R404: clears before onsets, and within each AIS, LOF, LOS and the protection switch.
DEDUCED (assumption 166): a switch to working stands with the clears, one to protect with the onsets. -/
def captureRank (code : Nat) : Nat :=
  match code with
  | 6 => 1 | 4 => 2 | 2 => 3 | 8 => 4 | 5 => 5 | 3 => 6 | 1 => 7 | 7 => 8
  | _ => 0

/-- A capture register takes an event (R403); of several in one tick it holds the last in the order of R404. -/
def Capture.record (u : Capture) (stamp : BitVec 64) (qual : BitVec 8) (code : Nat) : Capture :=
  { u with
    stamp := stamp, qual := qual
    code := if u.stamp == stamp && decide (captureRank code < captureRank u.code.toNat) then u.code else BitVec.ofNat 8 code
    count := sat16 u.count 1
    ovr := u.ovr || u.unread
    unread := true
    evTurn := true }

/-- A capture unit has been read; where no entry was kept, its events stay in the count that the next entry shows (R405, R407). -/
def Capture.wasRead (kept : Bool) (u : Capture) : Capture :=
  { u with count := if kept then 0 else u.count, unread := false, ovr := false }

/-- The dump engine reads one capture unit into an event entry of the open second (R405, R407). -/
def readCapture (p : Port) (s : State) : State :=
  let u := s.ports[p].capture
  if u.unread then
    let kept := decide (s.tally.entries.length < 64)
    let s1 := s.setPort p (fun x => { x with capture := x.capture.wasRead kept })
    if kept then
      { s1 with tally := { s1.tally with
          readNow := p :: s1.tally.readNow
          entries := s1.tally.entries ++ [⟨u.stamp, u.qual, u.code, u.count, u.ovr, p⟩] } }
    else { s1 with tally := { s1.tally with
        lostNow := p :: s1.tally.lostNow, lostEntries := satAdd 0xFFFF s1.tally.lostEntries 1 } }
  else s

/-- The latest entry of a port takes one more event (R406). -/
def mergeEntry (p : Port) (stamp : BitVec 64) (qual code : BitVec 8) : List EventEntry → List EventEntry
  | [] => []
  | e :: es =>
    if e.port = p && es.all (fun x => x.port != p) then
      { e with stamp := stamp, qual := qual, code := code, count := sat16 e.count 1, ovr := true } :: es
    else e :: mergeEntry p stamp qual code es

/-- An event in the tick of the frame-boundary read wins over the read (R406): the entry just read carries it, or, if no entry was
kept, the count that the next one shows (R407); if the unit had nothing to read, it is read with the event in it. -/
def lateRead (p : Port) (s : State) : State :=
  if s.pos.k = 0 ∧ s.frameDue = false then
    let u := s.ports[p].capture
    if p ∈ s.tally.readNow then
      let s1 := s.setPort p (fun x => { x with capture := x.capture.wasRead true })
      { s1 with tally := { s1.tally with entries := mergeEntry p u.stamp u.qual u.code s1.tally.entries } }
    else if p ∈ s.tally.lostNow then s.setPort p (fun x => { x with capture := x.capture.wasRead false })
    else readCapture p s
  else s

/-- Capture unit CUp records an event of its port, if the port runs (R402), and the timers that count it take a unit
(R389); in a listening window it does not run (R383). DESIGN CHOICE (assumption 164): QUAL is that of the event's tick, so an event
before the reference changes within its turn carries no SWITCH. -/
def captureEvent (p : Port) (code : Nat) (s : State) : State :=
  if s.ports[p].line.running && !s.ptime.listening then
    let s1 := lateRead p (s.setPort p (fun x => { x with capture := x.capture.record s.stamp s.qual code }))
    forEach all16 (fun i t =>
      if (t.preset i).src == 4 && (t.preset i).arg == p.val && kindHas (t.preset i).kind code then t.unit i 1 else t) s1
  else s

/-- The dump engine reads every capture unit whose UNREAD bit is set (R405). -/
def readCaptures (s : State) : State :=
  forEach allPorts readCapture { s with tally := { s.tally with readNow := [], lostNow := [] } }

end Sys2Proof.Machine
end

