-- ==== Sys2Proof/Machine/Fabric.lean ====
section
/-! DEFINITION. The cell fabric between arrivals: select counters (R438), watermarks (R232), the crossbar of each engine
(R224), the links and their beats (R18, R213, R214, R225, R317), and the per-tick work that moves position on within a frame. -/

namespace Sys2Proof.Machine

/-! ### Select counters -/

/-- The events a filter can count (R100, R438). -/
inductive SelEvent where
  | switched | dropped | marked | badTail | late
  deriving DecidableEq, Repr

def SelEvent.code : SelEvent → Nat
  | .switched => 0 | .dropped => 1 | .marked => 2 | .badTail => 3 | .late => 4

/-- The port a cell is tested on: its source port, or its delivery port when it comes from KP or the proof engine. -/
def selPort (c : Cell) : Nat := if c.src < 32 then c.src else c.dest

/-- The page that governs a cell at the input stage (R120, R438): the active page for the present frame, the page before it for
an earlier frame. -/
def pageFor (s : State) (d : EngData) (q : BitVec 16) : Copy × Nat :=
  if q = seqOf s.pos.frames then (d.activeCopy, d.active) else (d.governCopy, d.govern)

/-- A source slot inside the range is carried in the cell's copy mask: its own copy-list entry has the cell's
destination (R438, R218). -/
def selSlots (s : State) (e : Eng) (f : Filter) (c : Cell) : Bool :=
  let (cp, pg) := pageFor s (s.eng e).data c.seq
  (List.range 32).any (fun n => decide (f.firstSlot ≤ n ∧ n ≤ f.lastSlot) && (copyList s.image.flash cp pg c.src n).getLsbD c.dest)

/-- A filter counts this event of this cell (R438); `copy`: it is a circuit copy cell, which must carry a slot of the range. -/
def filterHit (s : State) (e : Eng) (f : Filter) (ev : SelEvent) (copy : Bool) (c : Cell) : Bool :=
  let p := selPort c
  let cls := match c.cls with
    | .rally => bitOf f.classes 0
    | .circuit => bitOf f.classes 1
    | .packet => bitOf f.classes 2
    | .beat => false
  (f.event == ev.code) && cls && bitOf f.dies (p / 16) && decide (f.firstPort ≤ p ∧ p ≤ f.lastPort) &&
    (!copy || 32 ≤ c.src || selSlots s e f c)

/-- Count an event of a cell in the select counters of an engine; in REST they count 0 (R129). -/
def countCell (copy : Bool) (e : Eng) (ev : SelEvent) (n : Nat) (c : Cell) (s : State) : State :=
  if s.modes.mode = .rest then s
  else s.setData e (fun d =>
    { d with select := Vector.ofFn (fun i =>
        if filterHit s e (filterOf s.image.flash s.image.copy s.tally.filter i.val) ev copy c then sat32 d.select[i] n
        else d.select[i]) })

/-- Count an event of a cell that is no circuit copy. -/
def countSelect (e : Eng) (ev : SelEvent) (n : Nat) (c : Cell) (s : State) : State := countCell false e ev n c s

/-- Count an event of a cell inside an engine, where every circuit cell is a copy (R218). -/
def countCopy (e : Eng) (ev : SelEvent) (n : Nat) (c : Cell) (s : State) : State := countCell (c.cls == .circuit) e ev n c s

/-! ### Occupancy and watermarks -/

/-- Cells of a VOQ. -/
def occ (q : List QCell) (i o : Port) : Nat := (q.filter (fun x => x.inp == i && x.out == o)).length

/-- Cells queued for an output port. -/
def occOut (q : List QCell) (o : Port) : Nat := (q.filter (fun x => x.out == o)).length

/-- The shared pool in use, over the packet VOQs (R229). -/
def poolUse (q : List QCell) : Nat :=
  (allPorts.map (fun i => (allPorts.map (fun o => occ q i o - 2)).foldl (· + ·) 0)).foldl (· + ·) 0

/-- A cell entered the circuit VOQ (i, o): watermark crossing, and peak (R232). -/
def markCircuit (w : Nat) (i o : Port) (d : EngData) : EngData :=
  let d1 := if occ d.circuit i o = w then
      { d with cNotice := updV d.cNotice o (fun m => setBit m i.val true), cCross := updV d.cCross o (fun x => sat16 x 1) }
    else d
  { d1 with cPeak := updV d1.cPeak o (fun x => max x (occOut d1.circuit o)) }

/-- A cell entered the packet VOQ (i, o). -/
def markPacket (w : Nat) (i o : Port) (d : EngData) : EngData :=
  let d1 := if occ d.packet i o = w then
      { d with pNotice := updV d.pNotice o (fun m => setBit m i.val true), pCross := updV d.pCross o (fun x => sat16 x 1) }
    else d
  { d1 with pPeak := updV d1.pPeak o (fun x => max x (occOut d1.packet o)) }

/-- Put a circuit copy into its VOQ; it is always admitted (R230). -/
def enqueueCircuit (w : Nat) (q : QCell) (d : EngData) : EngData :=
  markCircuit w q.inp q.out { d with circuit := d.circuit ++ [q] }

/-- Put an admitted packet cell into its VOQ. -/
def enqueuePacket (w : Nat) (q : QCell) (d : EngData) : EngData :=
  markPacket w q.inp q.out { d with packet := d.packet ++ [q] }

/-! ### The crossbar (R224) -/

/-- Rank of a class; higher is served first. -/
def classRank : CellClass → Nat
  | .rally => 3 | .circuit => 2 | .packet => 1 | .beat => 0

/-- A packet cell may move: its frame is cut through, or complete (R238, R239). -/
def packetReady (d : EngData) (q : QCell) : Bool :=
  match d.frames.find? (fun f => f.flow == flowOf q.cell) with
  | some f => f.cut || f.complete || f.discard
  | none => true

/-- The cells of an engine that may move in a tick. -/
def movable (d : EngData) : List QCell := d.rally ++ d.circuit ++ d.packet.filter (packetReady d)

/-- Distance of `i` at or after the pointer, round 32. -/
def dist (ptr i : Nat) : Nat := (i + 32 - ptr) % 32

/-- A cell is to be preferred at an output: higher class, then nearest at or after the pointer. -/
def better (ptr : Nat) (sel : QCell → Nat) (a b : QCell) : Bool :=
  let ra := classRank a.cell.cls
  let rb := classRank b.cell.cls
  if rb < ra then true
  else if ra < rb then false
  else decide (dist ptr (sel a) < dist ptr (sel b))

/-- The first best element of a list. -/
def best {α : Type} (f : α → α → Bool) : List α → Option α
  | [] => none
  | a :: l => match best f l with
    | none => some a
    | some b => if f b a then some b else some a

/-- What each output grants (R224). -/
def grants (d : EngData) : List QCell :=
  allPorts.filterMap (fun o =>
    best (better d.rrOut[o] (fun q => q.inp.val)) ((movable d).filter (fun q => q.out == o)))

/-- What each input accepts of the grants (R224). -/
def accepts (d : EngData) (g : List QCell) : List QCell :=
  allPorts.filterMap (fun i =>
    best (better d.rrIn[i] (fun q => q.out.val)) (g.filter (fun q => q.inp == i)))

/-! ### Claims and beats (R29, R307, R311, R317) -/

/-- The claim an engine drives on its wires (R29, R307). -/
def EngCtl.claim (c : EngCtl) : Nat := if c.powered then 2 * c.health + b2n c.incumbent else 0

/-- An engine is powered and out of retention. -/
def EngCtl.running (c : EngCtl) : Bool := c.powered && !c.retention

/-- Page number of a shadow, 0xFF when it is empty. -/
def Shadow.page : Shadow → Nat
  | .empty => 0xFF
  | .loading n => n
  | .complete n _ _ => n

/-- CRC that the active page of an engine carries. -/
def activeCrc (s : State) (e : Eng) : BitVec 32 :=
  let d := (s.eng e).data
  pageCrcField s.image.flash d.activeCopy d.active

/-- Beat `b` of the present frame from an engine to a line die (R317). DESIGN CHOICE (assumption 140): its SRC, which the manual
does not give, is 0. -/
def beatCell (s : State) (e : Eng) (d : LineDie) (b : Nat) : Cell :=
  let c := (s.eng e).ctl
  let x := (s.eng e).data
  { cls := .beat, dest := 16 * d.num, src := 0, seq := BitVec.ofNat 16 (4 * s.pos.frames + b), copy := 0, cm := false, bt := false
    dirn := true, eng := e == .ey, frag := 3, len := 56, page := 0
    payload := leBytes 1 c.claim ++ leBytes 1 c.cause ++ leBytes 1 b ++ zeros 1 ++ leBytes 8 (s.pos.frames * 2048 + 512 * b) ++
      leBytes 1 x.active ++ leBytes 1 x.shadow.page ++ leBytes 4 (activeCrc s e).toNat ++ zeros 38 }

/-! ### Links (R213, R214, R225) -/

/-- Ticks that a cell takes on a fabric link, and on a keeper link, which has one lane (R213). -/
def linkSpan : Nat := 2
def keeperSpan : Nat := 4

/-- The transmitter sends nothing. -/
def Lane.quiet (l : Lane) : Bool := l.now.isNone && l.fifo.isEmpty && l.beat.isNone

/-- Cells not yet sent. DESIGN CHOICE (assumption 171): of two FIFOs compared under R214, each holds its cell in transmission too. -/
def Lane.length (l : Lane) : Nat := l.fifo.length + b2n l.now.isSome

/-- A cell for a transmitter: it begins at once when the link is free. -/
def Lane.push (span : Nat) (c : Cell) (l : Lane) : Lane :=
  if l.now.isNone then { l with now := some c, left := span } else { l with fifo := l.fifo ++ [c] }

/-- The queued cell that goes next: the highest class, oldest first (R225). -/
def firstOf (l : List Cell) : Option Cell :=
  match l.find? (fun c => c.cls == .rally) with
  | some c => some c
  | none => match l.find? (fun c => c.cls == .circuit) with
    | some c => some c
    | none => l.head?

/-- A cell boundary: a beat goes ahead of every queued cell (R18, R225). -/
def Lane.next (span : Nat) (l : Lane) : Lane :=
  match l.beat with
  | some c => { l with beat := none, now := some c, left := span }
  | none => match firstOf l.fifo with
    | some c => { l with fifo := l.fifo.erase c, now := some c, left := span }
    | none => { l with now := none, left := 0 }

/-- A tick of a transmitter: a cell in transmission is never pre-empted (R225). -/
def Lane.tick (span : Nat) (l : Lane) : Lane := if l.left ≤ 1 then l.next span else { l with left := l.left - 1 }

/-- The lane-locked link in spraying whose FIFO holds fewer cells; ties go to link 0 (R214). -/
def pickLink (v : Vector Link 2) (len : Link → Nat) : Option LinkId :=
  let u0 := v[0].locked && v[0].spraying
  let u1 := v[1].locked && v[1].spraying
  if u0 && u1 then (if len v[1] < len v[0] then some 1 else some 0)
  else if u0 then some 0
  else if u1 then some 1
  else none

/-- Put a cell on a link towards an engine. -/
def pushUp (d : LineDie) (e : Eng) (l : LinkId) (c : Cell) (s : State) : State :=
  s.setDie d (fun x => x.setLink e l (fun k => { k with up := k.up.push linkSpan c }))

/-- Put a cell on a link towards a line die. -/
def pushDown (d : LineDie) (e : Eng) (l : LinkId) (c : Cell) (s : State) : State :=
  s.setDie d (fun x => x.setLink e l (fun k => { k with down := k.down.push linkSpan c }))

/-- Spray a cell from a line die towards an engine. DESIGN CHOICE (assumption 172): with no usable link it is lost. -/
def sprayUp (d : LineDie) (e : Eng) (c : Cell) (s : State) : State :=
  match pickLink ((s.die d).links e) (fun l => l.up.length) with
  | none => s
  | some l => pushUp d e l c s

/-- Spray a cell from an engine towards a line die; with no usable link it is lost as well (assumption 172). -/
def sprayDown (d : LineDie) (e : Eng) (c : Cell) (s : State) : State :=
  match pickLink ((s.die d).links e) (fun l => l.down.length) with
  | none => s
  | some l => pushDown d e l c s

/-- The transmitters of a line die's links are quiet. -/
def DieSt.linksIdle (d : DieSt) : Bool :=
  (d.linkX.toList ++ d.linkY.toList).all (fun l => l.up.quiet && l.down.quiet)

/-- The transmitters of both line dies, and those of the keeper links, are quiet. -/
def State.linksIdle (s : State) : Bool :=
  s.lda.linksIdle && s.ldb.linksIdle && engines.all (fun e => (s.eng e).data.toKeeper.quiet && (s.eng e).data.fromKeeper.quiet)

/-- A tick of both transmitters of a link. -/
def Link.tick (l : Link) : Link := { l with up := l.up.tick linkSpan, down := l.down.tick linkSpan }

/-- A tick of every transmitter. -/
def linksTick (s : State) : State :=
  if s.linksIdle then s
  else
    let s1 := forEach lineDies (fun d t => t.setDie d (fun x => { x with linkX := x.linkX.map Link.tick, linkY := x.linkY.map Link.tick })) s
    forEach engines (fun e t => t.setData e (fun x =>
      { x with toKeeper := x.toKeeper.tick keeperSpan, fromKeeper := x.fromKeeper.tick keeperSpan })) s1

/-- Beats and heartbeat words are sent at tick 512 b of a frame (R311, R317): each running engine's beat waits for the next cell
boundary of every link to the line dies (R18). -/
def sendBeats (b : Nat) (s : State) : State :=
  forEach engines (fun e t =>
    if (t.eng e).ctl.running then
      let t1 := forEach lineDies (fun d u =>
        let c := beatCell u e d b
        let put := fun (k : Link) => { k with down := { k.down with beat := some c } }
        u.setDie d (fun x => (x.setLink e 0 put).setLink e 1 put)) t
      t1.setCtl e (fun c => { c with word := c.claim })
    else t) s

/-- The beats that are due at the present tick. -/
def beatsDue (s : State) : State := if s.pos.k.toNat % 512 = 0 then sendBeats (s.pos.k.toNat / 512) s else s

/-! ### The crossbar moves -/

/-- The packet frames of an engine after a packet cell has left it: a frame ends with its last cell. -/
def afterMove (c : Cell) (fs : List PacketFrame) : List PacketFrame :=
  if c.frag == 2 || c.frag == 3 || c.bt then
    match fs.find? (fun f => f.flow == flowOf c) with
    | some f => fs.erase f
    | none => fs
  else fs

/-- Take a moved cell from its queue; a circuit copy, and a cell of the proof engine, goes to the output stage. -/
def moveCell (q : QCell) (d : EngData) : EngData :=
  match q.cell.cls with
  | .circuit => { d with circuit := d.circuit.erase q, stage := d.stage ++ [q.cell] }
  | .rally => { d with rally := d.rally.erase q }
  | _ =>
    if q.cell.src = 33 then { d with packet := d.packet.erase q, stage := d.stage ++ [q.cell] }
    else { d with packet := d.packet.erase q, frames := afterMove q.cell d.frames }

/-- Where a moved cell goes on to: a rally cell returns over link r XOR L (R319), a packet cell is sprayed to its access
point; a packet cell bound for KP leaves over the keeper link. -/
def sendMoved (e : Eng) (q : QCell) (s : State) : State :=
  match q.cell.cls with
  | .rally =>
    let l : LinkId := if (q.cell.seq.toNat + q.cell.src / 16) % 2 = 0 then 0 else 1
    pushDown (dieOf q.out) e l { q.cell with dirn := true } s
  | .packet =>
    if q.cell.src = 33 then s
    else if q.cell.dest < 32 then sprayDown (dieOf q.out) e { q.cell with dirn := true } s
    else s.setData e (fun x => { x with toKeeper := x.toKeeper.push keeperSpan { q.cell with dirn := true } })
  | _ => s

/-- One tick of an engine's crossbar (R224): pointers move past what was granted and accepted. -/
def xbarTick (e : Eng) (s : State) : State :=
  let d := (s.eng e).data
  if d.rally.isEmpty && d.circuit.isEmpty && d.packet.isEmpty then s
  else
    let g := grants d
    let a := accepts d g
    let s1 := s.setData e (fun d =>
      let d1 := g.foldl (fun x q => { x with rrOut := updV x.rrOut q.out (fun _ => (q.inp.val + 1) % 32) }) d
      let d2 := a.foldl (fun x q => { x with rrIn := updV x.rrIn q.inp (fun _ => (q.out.val + 1) % 32) }) d1
      a.foldl (fun x q => moveCell q x) d2)
    forEach a (fun q t => sendMoved e q (countCopy e .switched 1 q.cell t)) s1

/-! ### Moving on within a frame -/

/-- A dropped insertion's transmitter goes high-impedance at its bit boundary (R162). -/
def Line.stopDue (now : Nat) (l : Line) : Line :=
  match l.stopAt with
  | some t => if t ≤ now then { l with tx := .hiZ, stopAt := none } else l
  | none => l

/-- Every transmitter that is to stop by now has stopped. -/
def stopDrives (s : State) : State :=
  if s.ports.toList.all (fun x => x.line.stopAt.isNone) then s
  else s.mapPorts (fun _ x => { x with line := x.line.stopDue s.now })

/-- Nothing changes from tick to tick but for the beats: no timer runs and every queue is empty. -/
def State.tickIdle (s : State) : Bool :=
  s.ports.toList.all (fun x => x.line.stopAt.isNone) && s.timers.toList.all (fun t => !t.started) && s.linksIdle &&
    engines.all (fun e =>
      (s.eng e).data.rally.isEmpty && (s.eng e).data.circuit.isEmpty && (s.eng e).data.packet.isEmpty)

/-- The work of one tick in the links and crossbars. -/
def fabricTick (s : State) : State := xbarTick .ey (xbarTick .ex (linksTick (beatsDue (stopDrives s))))

/-- The work of one tick, after position has moved to it. -/
def tickWork (s : State) : State := fabricTick (tickTimers s)

/-- Move on by one tick within the frame (R42), once what is due of the timers in the tick that ends has happened. -/
def tickOnce (s : State) : State :=
  let s1 := settleTimers s
  tickWork { s1 with pos := { s1.pos with k := s1.pos.k + 1 } }

/-- Move on by `n` ticks within the frame. -/
def ticks : Nat → State → State
  | 0, s => s
  | n + 1, s => ticks n (tickOnce s)

/-- `n` ticks of the links alone. -/
def linkTicks : Nat → State → State
  | 0, s => s
  | n + 1, s => linkTicks n (linksTick s)

/-- Move on within the frame while nothing happens but for beats: of those sent on the way, the latest may still be on the
links. -/
def skipTo (k : Tick) (s : State) : State :=
  let s1 := { s with pos := { s.pos with k := k } }
  let b := k.toNat / 512
  if s.pos.k.toNat < 512 * b then linkTicks (min 3 (k.toNat - 512 * b + 1)) (sendBeats b s1) else s1

/-- Bring the machine to tick `k` of the present frame; position never moves back, and it stands still while it is not
counted. -/
def atTick (k : Tick) (s : State) : State :=
  if s.time.counting && decide (s.pos.k < k) then
    if s.tickIdle then skipTo k s else ticks (k.toNat - s.pos.k.toNat) s
  else s

end Sys2Proof.Machine
end

