-- ==== Sys2Proof/Machine/Engines.lean ====
section
/-! DEFINITION. Claims, health and incumbency of the duplicated engines, and what a latch makes of them (R305 to R316,
R323, R337, R338). -/

namespace Sys2Proof.Machine

/-! ### Claims and health -/

/-- Some powered engine is in retention (R127). -/
def State.inRetention (s : State) : Bool :=
  engines.all (fun e => !(s.eng e).ctl.running)

/-- The codes of what lowered health (R317). -/
inductive Cause where
  | rally | scrub | proof | mismatch | lost | start
  deriving DecidableEq, Repr

def Cause.code : Cause → Nat
  | .rally => 1 | .scrub => 2 | .proof => 3 | .mismatch => 4 | .lost => 5 | .start => 6

/-- The engine holds incumbency, or incumbency is moving from it. -/
def State.holds (s : State) (e : Eng) : Bool :=
  match s.duplex.incumbency with
  | .held x | .moving x _ => x == e
  | .nobody => false

/-- What lowered the health of the engine that holds incumbency is kept for the seam record of the next (R446). -/
def noteFall (e : Eng) (c : Cause) (s : State) : State :=
  if s.holds e then { s with duplex := { s.duplex with fell := c.code } } else s

/-- Health falls at once to `n`, if it is higher, for a cause (R309). An engine that falls to 3 or below leaves the
resync or cold rejoin it was in; its output cells, which no latch then accepts, go on until a resync begins (R315, R332). -/
def lowerHealth (e : Eng) (n : Nat) (c : Cause) (s : State) : State :=
  if n < (s.eng e).ctl.health then
    ((noteFall e c s).setCtl e (fun x =>
      { x with health := n, cause := c.code, rejoin := if n ≤ 3 then .none else x.rejoin })).setEngTally e (fun t =>
      { t with minHealth := min t.minHealth n })
  else s

/-- The standby of DUPLEX or WARM: the powered engine without incumbency. -/
def State.standby (s : State) : Option Eng :=
  match s.activeEng with
  | some e => if (s.eng e.other).ctl.powered then some e.other else none
  | none => none

/-- Incumbency leaves an engine: claim bit 0 clears (R311). -/
def dropIncumbency (e : Eng) (s : State) : State := s.setCtl e (fun x => { x with incumbent := false })

/-- KP grants incumbency to an engine (R311): claim bit 0 is set, and the record of the second shows that it moved (R427). -/
def giveIncumbency (e : Eng) (s : State) : State :=
  let s1 := (s.setCtl e (fun x => { x with incumbent := true })).setEngTally e (fun t => { t with heldInc := true })
  { s1 with duplex := { s1.duplex with incumbency := .held e, moved := true, fell := (s.eng e).ctl.cause } }

/-! ### The output latch -/

/-- The effective claim of an engine at a line die's latches (R314, R323). -/
def effClaim (s : State) (d : LineDie) (e : Eng) : Nat :=
  let k := (s.die d).ofEng e
  if k.hold then 0 else min (s.eng e).ctl.claim k.beat.toNat

/-- An engine is eligible at the latches of a line die (R315). -/
def eligible (s : State) (d : LineDie) (e : Eng) : Bool := decide (4 ≤ effClaim s d e / 2)

/-- The engine a latch prefers (R315): the eligible one of higher claim, the present one when equal; none when neither
is eligible (R316). -/
def preferred (s : State) (p : Port) : Option Eng :=
  let d := dieOf p
  let a := s.ports[p].latch.accepted
  match eligible s d a, eligible s d a.other with
  | true, true => if effClaim s d a < effClaim s d a.other then some a.other else some a
  | true, false => some a
  | false, true => some a.other
  | false, false => none

/-- An engine at health 7 holds incumbency (R145). -/
def State.proven (s : State) : Bool :=
  match s.activeEng with
  | some e => (s.eng e).ctl.health == 7 && (s.eng e).ctl.powered
  | none => false

/-- Forget what was gathered in a frame about an engine. -/
def EngCtl.newFrame (c : EngCtl) : EngCtl :=
  { c with rallyFailOld := c.rallyFail, rallyFail := false, lateNow := false }

/-- An engine as it stands when its power comes on: health `h`, nothing proven, every queue empty. -/
def EngCtl.powerOn (c : EngCtl) (ret : Bool) (h : Nat) : EngCtl :=
  { c with
    powered := true, retention := ret, health := h, incumbent := false, cause := Cause.start.code, rallyRun := 0,
    syncRun := 0, scrubOk := true, computing := false, startNext := false, computed := 0, joined := 0, rejoin := .none, apart := false,
    rallyFail := false, rallyFailOld := false, lateNow := false, lateRun := 0, word := 0, lost := false }

/-- An engine without power: it claims 0 (R29). -/
def EngCtl.powerOff (c : EngCtl) : EngCtl :=
  { c with
    powered := false, retention := false, health := 0, incumbent := false, rallyRun := 0, syncRun := 0,
    computing := false, startNext := false, computed := 0, joined := 0, rejoin := .none, apart := false, rallyFail := false,
    rallyFailOld := false, lateNow := false, lateRun := 0, word := 0 }

/-- Every queue, flow, packet frame and transmitter of an engine is emptied, without being counted ("Where things meet" of
08_slot_fabric). -/
def EngData.flush (d : EngData) : EngData :=
  { d with rally := [], circuit := [], packet := [], stage := [], built := [], flows := [], frames := [], toKeeper := .idle
           fromKeeper := .idle }

/-- What an engine without power keeps: nothing but the number of the page it had. -/
def EngData.lost (d : EngData) : EngData :=
  { EngData.reset with active := d.active, activeCopy := d.activeCopy, govern := d.govern, governCopy := d.governCopy }

/-- An engine loses power. Its connection memories are lost with it. -/
def unpower (e : Eng) (s : State) : State :=
  let s1 := ((s.setCtl e (fun c => c.powerOff)).setData e (fun d => d.lost)).setEngTally e (fun t => { t with minHealth := 0 })
  let s2 := if s1.activeEng = some e then { s1 with duplex := { s1.duplex with incumbency := .nobody } } else s1
  { s2 with duplex := { s2.duplex with rallies := s2.duplex.rallies.filter (fun r => r.eng != e) } }

end Sys2Proof.Machine
end

