-- ==== Sys2Proof/Machine/Hinges.lean ====
section
/-! DEFINITION. Roles of the ports (R125 to R130, R142 to R145, R503), insertion and release (R343 to R358), and the
meanings of the hinge events. -/

namespace Sys2Proof.Machine

/-! ### The role a port is to have -/

/-- The level of KEY_CMD in effect, as it acts in the mode in effect (R72, R79). -/
def State.cmd (s : State) : BitVec 4 := cmdActing s.modes.mode s.modes.cmd

/-- Both ports of a pair are in service. -/
def State.bothInService (s : State) (p : Port) : Bool := s.inService p && s.inService (partnerPort p)

/-- The loop a port is in (R136). -/
def State.loopKind (s : State) (p : Port) : LoopKind :=
  if s.modes.mode = .loop && s.bothInService p then loopOf s.cmd p else .none

/-- A pair runs (R244): enabled, both ports in service and of one family, in GUARD. -/
def State.pairRuns (s : State) (g : PairId) : Bool :=
  (s.modes.mode == .guarded) && (s.prot g).enabled && s.inService (workPort g) && s.inService (protPort g) &&
    (s.ports[workPort g].line.family == s.ports[protPort g].line.family)

/-- The line a pair has selected. -/
def State.selectedPort (s : State) (g : PairId) : Port := if s.pairs[g].protect then protPort g else workPort g

/-- The role that the mode in effect gives a port (R128). -/
def modeRole (s : State) (p : Port) : Role :=
  if !s.inService p then .bypassed
  else match s.modes.mode with
    | .rest | .watch | .proof => .bypassed
    | .through => .lineTimed p
    | .cross | .pattern => .grid
    | .loop => match s.loopKind p with
      | .line => .lineTimed (partnerPort p)
      | _ => .grid
    | .guarded =>
      if (s.prot (pairOf p)).enabled then
        if s.pairs[pairOf p].running && p == workPort (pairOf p) then .lineTimed (s.selectedPort (pairOf p))
        else .lineTimed p
      else .grid

/-- What the mode in effect has a port send (R128, R245 to R247). -/
def modeContent (s : State) (p : Port) : Content :=
  match s.modes.mode with
  | .through => .through
  | .loop => match s.loopKind p with
    | .line => .lineLoop
    | .payload => .payload
    | .none => .page
  | .guarded =>
    if (s.prot (pairOf p)).enabled then
      if s.pairs[pairOf p].running && p == workPort (pairOf p) then .selected else .pass
    else .page
  | _ => .page

/-- Something besides the mode keeps the port bypassed: a DOZE request (R148), a latch that sent AIS (R331), or the
keeper out of MAIN. -/
def heldOff (s : State) (p : Port) : Bool :=
  s.keeper.dozeReq || s.ports[p].latch.ais || s.keeper.power != .main

/-- The role a port is to be brought to at a turn boundary (R503). -/
def wantedRole (s : State) (p : Port) : Role := if heldOff s p then .bypassed else modeRole s p

/-- The port that gives the insertion of `p` its timing is not aligned (R144). The working port of a running pair takes its phase from
the protect line while the working line is not aligned (R248). -/
def timingMissing (s : State) (p : Port) (r : Role) : Bool :=
  match r with
  | .lineTimed t =>
    !s.ports[t].framer.aligned &&
      !(s.pairs[pairOf p].running && p == workPort (pairOf p) && s.ports[protPort (pairOf p)].framer.aligned)
  | _ => false

/-- An insertion of this port is withheld for a cause other than its timing (R503, R130). -/
def insertionBarred (s : State) (p : Port) : Bool :=
  !s.proven || (preferred s p).isNone || s.keeper.dozeReq || s.keeper.power != .main || s.tap.halt ||
    (s.die (dieOf p)).lost || !s.keeper.vlineOk || !s.keeper.coreOk || s.image.awaited.isSome

/-- An insertion sequence is in progress. -/
def Hinge.inserting (h : Hinge) : Bool :=
  match h.seq with
  | .building | .following | .energised | .terminated => true
  | _ => false

/-- A release sequence is in progress. -/
def Hinge.releasing (h : Hinge) : Bool :=
  match h.seq with
  | .awaitB | .released | .unterminated => true
  | _ => false

/-- The hinge code of a port (R358). -/
def Hinge.code (h : Hinge) : Nat :=
  if h.inserting then 1 else if h.releasing then 3 else if h.role = .bypassed then 0 else 2

/-- Two inserted roles with the same timing need no release (R142). -/
def sameTiming : Role → Role → Bool
  | .grid, .grid => true
  | .lineTimed a, .lineTimed b => a == b
  | _, _ => false

/-- An insertion sequence begins (R350): the transmit path builds the new role's stream, nothing is sent. -/
def Hinge.beginInsertion (h : Hinge) (r : Role) (c : Content) (t : Nat) : Hinge :=
  { h with seq := .building, target := r, content := c, start := t, waiting := false, abandoned := false }

/-- A release sequence begins at tick `now`; it waits for its boundary B (R354, R355). -/
def Hinge.beginRelease (h : Hinge) (ride : Bool) (now : Nat) : Hinge :=
  { h with seq := .awaitB, start := now / 65536, relTick := now, ride := ride, waiting := false, abandoned := false }

/-! ### Where the partner channel transmits (R362) -/

/-- The partner channel is on (R361). -/
def State.partnerOn (s : State) : Bool := s.partner.state != 0

/-- The access point of a port carries bits (R200). -/
def accessOpen (x : PortSt) : Bool := x.framer.aligned && x.framer.crcMf != .fallback

/-- A port drives its line. -/
def driving (x : PortSt) : Bool := x.line.tx == .drive

/-- A port passes its received line as in THROUGH: in that mode, or in GUARD as a port of a pair that cannot run (R245, R362). -/
def State.passesThrough (s : State) (p : Port) : Bool :=
  s.ports[p].hinge.content == .through || (s.ports[p].hinge.content == .pass && !s.pairs[pairOf p].running)

/-- The port whose role has it transmit for the channel while it is inserted (R362). -/
def State.channelTx (s : State) : Option Port :=
  let p := s.fabric.port
  let q := partnerPort p
  if !s.partnerOn then none
  else match s.ports[p].hinge.role with
    | .grid => if driving s.ports[p] then some p else none
    | .lineTimed _ =>
      if s.passesThrough p && s.passesThrough q && s.ports[q].hinge.role == .lineTimed q && driving s.ports[q] then some q else none
    | .bypassed => none

/-- The port that the channel transmits on (R200, R362). -/
def State.partnerTx (s : State) : Option Port := s.channelTx.filter (fun p => accessOpen s.ports[p])

/-- Nothing more is sent of what the access point holds (R235). -/
def DieSt.cutFrames (x : DieSt) : DieSt := { x with outBits := [], outOpen := false, outMade := 0, outOnes := 0, outLead := none }

/-- The frame in transmission at the access point of a port is cut off ("Where things meet" of 14_partner_channel). DEDUCED
(assumption 149): it counts as sent in full, so that the next may be launched. -/
def cutChannel (p : Port) (s : State) : State :=
  let s1 := s.setDie (dieOf p) DieSt.cutFrames
  { s1 with partner := { s1.partner with out := none } }

/-- The channel follows the roles of its ports: a port that no longer transmits for it cuts the frame in transmission off; `s0`: as the
ports stood before. -/
def followChannel (s0 s : State) : State :=
  match s0.channelTx with
  | some p => if s.channelTx = some p then s else cutChannel p s
  | none => s

/-! ### The positions of a sequence (R350, R351, R354, R355) -/

/-- Ticks within which the next bit boundary of a line comes: one bit period, in whole ticks. -/
def bitSpan (fam : BitVec 4) : Nat := if isT1 fam then 11 else 8

/-- The next bit boundary at or after tick `a` (R151): a tick less than one bit period after it. -/
def nextBit (fam : BitVec 4) (a now : Nat) : Bool := decide (a ≤ now ∧ now < a + bitSpan fam)

/-- The tick of frame `f` of the turn after an insertion began. -/
def Hinge.stepTick (h : Hinge) (f : Nat) : Nat := (h.start + 1) * 65536 + f * 2048

/-- Frames of a line begin and end at the tick given and whole frames after it, within the 200 ppm of R151 and one tick of
the count. -/
def onPhase (at_ now : Nat) : Bool :=
  let e := now - at_
  decide (min (e % 2048) (2048 - e % 2048) ≤ 1 + e / 2048)

/-- A received frame boundary of a line, and with it a transmitted one of a port that the line times, falls at this tick. -/
def frameBoundaryOf (x : PortSt) (now : Nat) : Bool :=
  match x.slip.history.head? with
  | some r => onPhase r.doneAt now
  | none => false

/-- The line that sets the frame phase of an insertion onto line `t` (R248): of a running pair's working port the working line, or the
protect line while the working line is not aligned. -/
def phaseLine (s : State) (p t : Port) : Port :=
  if s.ports[p].hinge.content = .selected then
    (if s.ports[workPort (pairOf p)].framer.aligned then workPort (pairOf p) else protPort (pairOf p))
  else t

/-- The line that times what a port sends. -/
def timingFamily (s : State) (p : Port) : BitVec 4 :=
  match s.ports[p].hinge.role with
  | .lineTimed t => s.ports[t].line.family
  | _ => s.ports[p].line.family

/-- The takeover boundary of R351 falls at this tick: for the grid (T + 1):26:0 itself, for a line loop the partner's first
bit boundary from there on, for any other line-timed role the first transmitted frame boundary. -/
def takeoverDue (s : State) (p : Port) : Bool :=
  let h := s.ports[p].hinge
  let a := h.stepTick 26
  match h.target with
  | .grid => s.now == a
  | .lineTimed t =>
    if h.content = .lineLoop then nextBit s.ports[t].line.family a s.now
    else decide (a ≤ s.now ∧ s.now ≤ a + 2048) && frameBoundaryOf s.ports[phaseLine s p t] s.now
  | .bypassed => true

/-- Multiframe frame number of the frame after number `n` (R178). -/
def followingNo (fam : BitVec 4) (n : Nat) : Nat :=
  if isT1 fam then (if (match framingOf fam with | .t1Sf => 12 | _ => 24) ≤ n then 1 else n + 1) else (n + 1) % 16

/-- Number of the transmitted frame that begins at this tick, if one does (R355): the one just begun, or the one after it. -/
def frameBegins (fam : BitVec 4) (x : PortSt) (now : Nat) : Option Nat :=
  if x.tx.start = now then some x.tx.mf
  else if decide (x.tx.start < now) && onPhase x.tx.start now then some (followingNo fam x.tx.mf)
  else none

/-- Frames of the block that a release at a turn boundary waits for (R355): a sub-multiframe, a superframe, or one frame. -/
def releaseSpan (fam : BitVec 4) : Nat :=
  match framingOf fam with
  | .e1Crc => 8
  | .t1Esf => 24
  | .t1Sf => 12
  | _ => 1

/-- A frame of this number begins that block. -/
def beginsSpan (fam : BitVec 4) (m : Nat) : Bool :=
  match framingOf fam with
  | .e1Crc => m % 8 == 0
  | .t1Esf | .t1Sf => m == 1
  | _ => true

/-- Boundary B of a release falls at this tick (R355). -/
def releaseDue (s : State) (p : Port) : Bool :=
  let x := s.ports[p]
  let a := x.hinge.relTick
  let fam := timingFamily s p
  if x.line.tx = .follow then nextBit x.line.family a s.now
  else match x.tx.octets with
    | none => decide (a ≤ s.now ∧ s.now ≤ a + 2048)
    | some _ =>
      match frameBegins fam x s.now with
      | none => false
      | some m =>
        if x.hinge.role = .grid ∧ s.pos.k ≠ 0 then false
        else if x.hinge.ride then decide (a < s.now ∧ s.now ≤ a + 2049)
        else decide (a ≤ s.now ∧ s.now ≤ a + releaseSpan fam * 2048 + 1) && beginsSpan fam m

/-- Nothing is sent. -/
def TxSt.silent : TxSt :=
  { octets := none, ais := false, start := 0, mf := 0, seq := 0, block := [], check := 0, eFirst := false, eSecond := false, fill := [],
    fillRai := false, cas0 := false, coder := .reset, ones := [], follow := [] }

/-- The comparison of R142 and R503 for one port at a turn boundary. DEDUCED (assumption 168): HALT withholds an insertion and no
release, as R503 lists what withholds each. An insertion has its role's stream built from here on (R350). -/
def reconcile (p : Port) (s : State) : State :=
  let h := s.ports[p].hinge
  let w := wantedRole s p
  let t := s.pos.t.toNat
  match h.seq with
  | .idle =>
    if h.role = w || sameTiming h.role w then
      s.setHinge p (fun h => { h with waiting := false, content := modeContent s p })
    else if h.role = .bypassed then
      if insertionBarred s p then s.setHinge p (fun h => { h with waiting := timingMissing s p w })
      else if timingMissing s p w then s.setHinge p (fun h => { h with waiting := true })
      else s.setPort p (fun x => { x with hinge := x.hinge.beginInsertion w (modeContent s p) t, tx := TxSt.silent })
    else s.setHinge p (fun h => h.beginRelease false s.now)
  | .building | .following =>
    s.setHinge p (fun h => { h with abandoned := h.abandoned || modeRole s p != h.target })
  | _ => s

/-- The comparison for every port. -/
def reconcileAll (s : State) : State := forEach allPorts reconcile s

/-- No port is inserted or in a sequence: every port is bypassed. -/
def allBypassed (s : State) : Bool :=
  allPorts.all (fun p => s.ports[p].hinge.role == .bypassed && s.ports[p].hinge.seq == .idle)

/-- No release sequence is in progress (R455, R456). -/
def noRelease (s : State) : Bool := allPorts.all (fun p => !s.ports[p].hinge.releasing)

/-- KP releases a port at once (R357): hinge and transmitter in the same tick. -/
def dropPort (x : PortSt) : PortSt :=
  { x with
    hinge := { x.hinge with role := .bypassed, seq := .idle, driven := false, waiting := false, abandoned := false }
    line := { x.line with tx := .hiZ, stopAt := none, terminated := false }
    tx := TxSt.silent }

/-- KP releases the ports of which `f` holds at once. -/
def releaseAtOnce (f : Port → Bool) (s : State) : State := followChannel s (s.mapPorts (fun p x => if f p then dropPort x else x))

/-! ### The meanings of the hinge events -/

/-- The first bit boundary of a line at or after `now`, given the tick of one before it (R151). -/
def bitBoundary (fam : BitVec 4) (a now : Nat) : Nat :=
  let n := if isT1 fam then 193 else 256
  let i := ((now - a) * n + 2047) / 2048
  a + (i * 2048 + n - 1) / n

/-- The transmitter of a dropped insertion stops at its next bit boundary, after a whole bit period (R162). DESIGN CHOICE
(assumption 22): the bits are counted at their nominal rate from the boundary at which follow drive began. -/
def Line.stopDriving (l : Line) (now : Nat) : Line :=
  if l.tx = .follow then { l with stopAt := some (bitBoundary l.family l.bitAt now) } else l

/-- Abandon an insertion whose hinge is not energised ("Where things meet" of 05_modes). -/
def abandonInsertion (p : Port) (s : State) : State :=
  (s.setHinge p (fun h => { h with seq := .idle, abandoned := false })).setLine p (fun l => l.stopDriving s.now)

/-- FOLLOW_DRIVE_START (R348, R350, R162): at the next received bit boundary from (T + 1):0:0 on. -/
def doFollowDriveStart (p : Port) (s : State) : State :=
  let h := s.ports[p].hinge
  if h.seq = .building ∧ nextBit s.ports[p].line.family (h.stepTick 0) s.now = true then
    if h.abandoned then abandonInsertion p s
    else (s.setHinge p (fun h => { h with seq := .following })).setLine p (fun l => { l with tx := .follow, bitAt := s.now })
  else s

/-- HINGE_ENERGISE (R343, R350): at (T + 1):1:0. -/
def doHingeEnergise (p : Port) (s : State) : State :=
  let h := s.ports[p].hinge
  if h.seq = .following ∧ s.now = h.stepTick 1 then
    if h.abandoned then abandonInsertion p s
    else s.setHinge p (fun h => { h with seq := .energised, driven := true, lowBefore := false })
  else s

/-- TERMINATION_ON (R155, R350): at (T + 1):25:0. -/
def doTerminationOn (p : Port) (s : State) : State :=
  if s.ports[p].hinge.seq = .energised ∧ s.now = s.ports[p].hinge.stepTick 25 then
    (s.setHinge p (fun h => { h with seq := .terminated })).setLine p (fun l => { l with terminated := true })
  else s

/-- RELEASE_BEGIN (R354, R355): at boundary B the transmitter enters follow drive and the hinge is released. -/
def doReleaseBegin (p : Port) (s : State) : State :=
  if s.ports[p].hinge.seq = .awaitB ∧ releaseDue s p = true then
    let s1 := (s.setHinge p (fun h => { h with seq := .released, driven := false, lowBefore := false, boundary := s.now }))
    followChannel s (s1.setPort p (fun x =>
      { x with line := { x.line with tx := .follow }, tx := { TxSt.silent with follow := x.tx.follow } }))
  else s

/-- TERMINATION_OFF (R155, R354): 9 frames after B. -/
def doTerminationOff (p : Port) (s : State) : State :=
  if s.ports[p].hinge.seq = .released ∧ s.now = s.ports[p].hinge.boundary + 9 * 2048 then
    (s.setHinge p (fun h => { h with seq := .unterminated })).setLine p (fun l => { l with terminated := false })
  else s

/-- RELEASE_COMPLETE (R354, R161, R162): at the next bit boundary from 13 frames after B on. -/
def doReleaseComplete (p : Port) (s : State) : State :=
  if s.ports[p].hinge.seq = .unterminated ∧
      nextBit s.ports[p].line.family (s.ports[p].hinge.boundary + 13 * 2048) s.now = true then
    s.setPort p (fun x =>
      { x with
        hinge := { x.hinge with seq := .idle, role := .bypassed }
        line := { x.line with tx := .hiZ }
        tx := TxSt.silent })
  else s

/-- Main power has failed and the keeper still runs. -/
def State.riding (s : State) : Bool := s.keeper.power == .ride || s.keeper.power == .last

/-- With main stable, the keeper returns to MAIN once no release and no last-words write is in progress: a warm start (R455,
R466). -/
def returnToMain (s : State) : State :=
  if s.keeper.stable && s.riding && s.words.writing.isNone && noRelease s then
    ({ s with keeper := { s.keeper with
        power := .main, stable := false, phase := .waiting
        startKind := if s.keeper.coldDue then .cold else .warm } }).flagPower 2
  else s

def execFollowDriveStart (p : Port) (k : Tick) (s : State) : Host.Outcome State Fault Refusal :=
  .next (doFollowDriveStart p (atTick k s))

def execHingeEnergise (p : Port) (k : Tick) (s : State) : Host.Outcome State Fault Refusal :=
  .next (doHingeEnergise p (atTick k s))

def execTerminationOn (p : Port) (k : Tick) (s : State) : Host.Outcome State Fault Refusal :=
  .next (doTerminationOn p (atTick k s))

def execReleaseBegin (p : Port) (k : Tick) (s : State) : Host.Outcome State Fault Refusal :=
  .next (doReleaseBegin p (atTick k s))

def execTerminationOff (p : Port) (k : Tick) (s : State) : Host.Outcome State Fault Refusal :=
  .next (doTerminationOff p (atTick k s))

def execReleaseComplete (p : Port) (k : Tick) (s : State) : Host.Outcome State Fault Refusal :=
  .next (returnToMain (doReleaseComplete p (atTick k s)))

end Sys2Proof.Machine
end

