-- ==== Sys2Proof/Machine/Line.lean ====
section
/-! DEFINITION. Line front ends (06_line_front_ends): the monitor code in use, LOS, AIS, coding events, the transmit current
limit and VLINE. -/

namespace Sys2Proof.Machine

/-- The MONITOR code whose flat loss the receiver compensates: 0 while the termination is on (R168). -/
def Line.monitorCode (l : Line) : BitVec 2 := if l.terminated then 0 else l.monitor

/-- Ticks in which no edge of RXNn in 32 nominal bit periods means LOS (R171). -/
def idleLimit (fam : BitVec 4) : Nat := if isT1 fam then 340 else 256

/-- The receive clock of an NRZ port has stopped (R171). -/
def clockStopped (fam : BitVec 4) (w : LineObs) : Bool := lineCodeOf fam == .nrz && decide (idleLimit fam ≤ w.idle)

/-- LOS is to be declared (R171). -/
def losMet (fam : BitVec 4) (w : LineObs) : Bool := decide (32 ≤ emptyRun w.pulses) || clockStopped fam w

/-- LOS is to be cleared (R172). -/
def losOver (fam : BitVec 4) (w : LineObs) : Bool :=
  let win := w.pulses.drop (w.pulses.length - 32)
  win.length == 32 && decide (4 ≤ (win.filter isPulse).length) && decide (longestEmpty 0 0 win ≤ 15) && !clockStopped fam w

/-- Bits of an AIS window (R173). -/
def aisWindow (fam : BitVec 4) : Nat := if isT1 fam then 386 else 512

/-- Bits of a frame (R178). -/
def frameBitCount (fam : BitVec 4) : Nat := if isT1 fam then 193 else 256

/-- A bit enters the windows of R173, which run back to back. -/
def AisWin.take (size : Nat) (w : AisWin) (b : Bool) : AisWin :=
  let z := w.zeros + b2n (!b)
  if w.bits + 1 = size then { bits := 0, zeros := 0, last := some z, before := w.last }
  else { w with bits := w.bits + 1, zeros := z }

/-- The windows of a port after more bits (R173). -/
def Line.winAfter (l : Line) (bits : List Bool) : AisWin := bits.foldl (AisWin.take (aisWindow l.family)) l.win

/-- A window has closed with the last bit taken, and of it and the window before it `f` holds. -/
def AisWin.both (f : Nat → Bool) (w : AisWin) : Bool := w.bits == 0 && w.last.any f && w.before.any f

/-- AIS is to be declared: two windows with fewer than 3 zeros each (R173). -/
def aisMet (l : Line) (bits : List Bool) : Bool := (l.winAfter bits).both (fun z => decide (z < 3))

/-- AIS is to be cleared: two windows with 3 zeros or more each (R173). -/
def aisOver (l : Line) (bits : List Bool) : Bool := (l.winAfter bits).both (fun z => decide (3 ≤ z))

/-- Ticks of 32 bit periods, the delay of a line loop (R137): 256 on E1, 339.6 on T1, as a whole number the next above. -/
def loopDelay (fam : BitVec 4) : Nat := if isT1 fam then 340 else 256

/-- The bits received are in LOS, LOF or AIS (R511). -/
def receivesBad (x : PortSt) : Bool := x.line.los || x.line.ais || !x.framer.aligned

/-- A port sends what its partner receives (R137). -/
def loopsBack (s : State) (p : Port) : Bool :=
  let y := s.ports[partnerPort p]
  y.hinge.role == .lineTimed p && y.hinge.content == .lineLoop && y.line.tx == .drive

/-- A line loop follows LOS, LOF and AIS of the port it returns: AIS begins and ends 32 bit periods later (R511). -/
def followLoop (p : Port) (s : State) : State :=
  if loopsBack s p then
    let at_ := s.now + loopDelay s.ports[p].line.family
    let bad := receivesBad s.ports[p]
    s.setPort (partnerPort p) (fun y => { y with tx := { y.tx with ones :=
      match y.tx.ones with
      | (a, none) :: l => if bad then (a, none) :: l else (a, some at_) :: l
      | l => if bad then (at_, none) :: l else l } })
  else s

/-- Add to the events of the present frame of a raw counter (R206, R207). -/
def Raw.note (r : Raw) (i : Fin 19) (n : Nat) : Raw := { r with pend := updV r.pend i (fun x => x + n) }

/-- Loss of the received frames: reads give idle until the next alignment (R202, "Where things meet" of 07_framing). -/
def Slip.suspend (x : Slip) : Slip := { x with waiting := [], reading := false, alignedAt := none, badNow := true }

/-- AIS clears on a port, with its capture event (R173, R402). -/
def clearAis (p : Port) (s : State) : State :=
  if s.ports[p].line.ais then followLoop p (captureEvent p 6 (s.setLine p (fun l => { l with ais := false }))) else s

/-- LOS is declared on a port: AIS clears first (R173, R404). -/
def declareLos (p : Port) (s : State) : State :=
  let l := s.ports[p].line
  if l.running && !l.los then
    let s1 := clearAis p s
    let s2 := s1.setPort p (fun x =>
      { x with line := { x.line with los := true }, raw := { x.raw with los := true }, slip := x.slip.suspend })
    followLoop p (captureEvent p 1 s2)
  else s

/-- LOS clears (R172), and a fresh series of AIS windows begins with the next bit (R173). -/
def clearLos (p : Port) (s : State) : State :=
  let l := s.ports[p].line
  if l.running && l.los && s.keeper.vlineOk then
    followLoop p (captureEvent p 2 (s.setLine p (fun l => { l with los := false, win := .reset })))
  else s

/-- AIS is declared; never while LOS is (R173). -/
def declareAis (p : Port) (s : State) : State :=
  let l := s.ports[p].line
  if l.running && !l.los && !l.ais then
    followLoop p (captureEvent p 5 (s.setPort p (fun x =>
      { x with
        line := { x.line with ais := true }, raw := { x.raw with ais := true }
        slip := { x.slip with badNow := true } })))
  else s

/-- LOS_DECLARE: the line shows what R171 asks for. -/
def losDeclared (p : Port) (w : LineObs) (s : State) : State :=
  if losMet s.ports[p].line.family w then declareLos p s else s

/-- LOS_CLEAR: the line shows what R172 asks for. -/
def losCleared (p : Port) (w : LineObs) (s : State) : State :=
  if losOver s.ports[p].line.family w then clearLos p s else s

/-- AIS_DECLARE, at the end of a window of R173. -/
def aisDeclared (p : Port) (bits : List Bool) (s : State) : State :=
  if aisMet s.ports[p].line bits then declareAis p s else s

/-- AIS_CLEAR, at the end of a window of R173. -/
def aisCleared (p : Port) (bits : List Bool) (s : State) : State :=
  if aisOver s.ports[p].line bits then clearAis p s else s

/-- A coding event, counted while LOS is not declared (R165, R206). -/
def codingEvent (p : Port) (i : Fin 19) (s : State) : State :=
  let l := s.ports[p].line
  if l.running && !l.los then s.setRaw p (fun r => r.note i 1) else s

/-- BIPOLAR_VIOLATION (R165): the decoder reports a pulse that breaks the alternation outside a valid substitution. -/
def violates (p : Port) (w : List Pulse) (i : Nat) (s : State) : State :=
  if violationAt (lineCodeOf s.ports[p].line.family) w i then codingEvent p 7 s else s

/-- EXCESS_ZEROS (R165): at the zero that exceeds the limit of the port's code. -/
def exceedsZeros (p : Port) (w : List Pulse) (s : State) : State :=
  if zerosExceeded (lineCodeOf s.ports[p].line.family) w then codingEvent p 8 s else s

/-- The transmit current limit acts on a driving transmitter (R163). -/
def limitTransmit (p : Port) (s : State) : State :=
  if s.ports[p].line.tx = .hiZ then s else s.setLine p (fun l => { l with txLimit := true })

/-- VLINE leaves its range (R161, R357, "Where things meet" of 06_line_front_ends). -/
def vlineOut (s : State) : State :=
  let s1 := releaseAtOnce (fun _ => true) { s with keeper := { s.keeper with vlineOk := false } }
  let s2 := forEach allPorts (fun p t =>
    if lineCodeOf t.ports[p].line.family = .nrz then t else declareLos p t) s1
  returnToMain (s2.raise .vline)

def execLosDeclare (p : Port) (w : LineObs) (k : Tick) (s : State) : Host.Outcome State Fault Refusal :=
  .next (losDeclared p w (atTick k s))

def execLosClear (p : Port) (w : LineObs) (k : Tick) (s : State) : Host.Outcome State Fault Refusal :=
  .next (losCleared p w (atTick k s))

def execAisDeclare (p : Port) (bits : List Bool) (k : Tick) (s : State) : Host.Outcome State Fault Refusal :=
  .next (aisDeclared p bits (atTick k s))

def execAisClear (p : Port) (bits : List Bool) (k : Tick) (s : State) : Host.Outcome State Fault Refusal :=
  .next (aisCleared p bits (atTick k s))

def execBipolarViolation (p : Port) (w : List Pulse) (i : Nat) (k : Tick) (s : State) : Host.Outcome State Fault Refusal :=
  .next (violates p w i (atTick k s))

def execExcessZeros (p : Port) (w : List Pulse) (k : Tick) (s : State) : Host.Outcome State Fault Refusal :=
  .next (exceedsZeros p w (atTick k s))

def execTransmitCurrentLimit (p : Port) (k : Tick) (s : State) : Host.Outcome State Fault Refusal :=
  .next (limitTransmit p (atTick k s))

def execVlineOutOfRange (k : Tick) (s : State) : Host.Outcome State Fault Refusal :=
  .next (vlineOut (atTick k s))

end Sys2Proof.Machine
end

