-- ==== Sys2Proof/Machine/Framing.lean ====
section
/-! DEFINITION. Receive framers (07_framing): alignment layers, far-end indications, the frame written in line time, and
the per-second counters of a frame (R206 to R209). -/

namespace Sys2Proof.Machine

/-! ### Conditions -/

/-- A multiframe the port runs is not aligned (R206 LOMF_FR, R442). -/
def lomfOf (x : PortSt) : Bool :=
  x.framer.aligned &&
    ((framingOf x.line.family == .e1Crc && x.framer.crcMf != .aligned) ||
     (isE1 x.line.family && x.line.cas && !x.framer.casMf))

/-- Loss of frame: the port runs and is not aligned (R180). -/
def lofOf (x : PortSt) : Bool := x.line.running && !x.framer.aligned

/-- Signal fail on a port's line (R252). -/
def signalFail (x : PortSt) : Bool :=
  x.line.los || lofOf x || x.line.ais || (framingOf x.line.family == .e1Crc && x.framer.crcMf != .aligned) ||
    (isE1 x.line.family && x.line.cas && !x.framer.casMf)

/-- The port is aligned and free of LOS, LOF and AIS (R108, R277). -/
def sourceUp (x : PortSt) : Bool := x.framer.aligned && !x.line.los && !x.line.ais

/-- A framer that starts running is in SEARCH with LOF in force (R180). -/
def Framer.search (f : Framer) : Framer :=
  { f with aligned := false, hunt := [], crcMf := .none, sinceBasic := 0, casMf := false, rai := false, fdl := [], raiAt := 0, crcFresh := false,
           winBlocks := 0, winErrors := 0, frameNo := 0, casNo := 0, eBitFirst := false, eBitSecond := false }

/-! ### Framing bits -/

/-- The F bit a T1 frame must carry; none where the F bit is no framing bit ("T1 SF and ESF alignment"). -/
def expectedF (fr : Framing) (n : Nat) : Option Bool :=
  match fr with
  | .t1Sf => if n % 2 = 1 then some (n / 2 % 2 == 0) else some (n == 6 || n == 8 || n == 10)
  | .t1Esf => if n % 4 = 0 then some (n == 12 || n == 20 || n == 24) else none
  | _ => none

/-- Frames of a T1 superframe. -/
def superLen (fr : Framing) : Nat := match fr with | .t1Sf => 12 | _ => 24

/-- The FAS in bits 2 to 8 of TS0 ("E1 basic frame alignment"). -/
def fasBits : List Bool := [false, false, true, true, false, true, true]

/-- TS0 of an even E1 frame with an error in its FAS. -/
def fasBad (ts0 : Byte) : Bool := ts0.toNat % 128 != 0x1B

/-- The F bit of a T1 frame: bit 7 of its first octet. -/
def fBit (octets : List Byte) : Bool := bitOf (byteAt octets 0).toNat 7

/-- The bits of a frame in the order sent (R178). -/
def frameBitList (fam : BitVec 4) (octets : List Byte) : List Bool := if isT1 fam then t1Bits octets else e1Bits (fitTo 32 octets)

/-! ### The search (R181, R189) -/

/-- The E1 basic frame machine over the bits it has not yet done with. A list that begins with a FAS is a candidate: in
CONFIRM step 1 until bit 2 of TS0 of the next frame has come, in step 2 until the FAS after that; otherwise the machine is
in SEARCH. The answer is what it keeps, and whether it has reached ALIGNED. A failed candidate resumes at the next bit. -/
def huntE1 : List Bool → List Bool × Bool
  | [] => ([], false)
  | b :: l =>
    let w := b :: l
    if w.length < 7 then (w, false)
    else if w.take 7 != fasBits then huntE1 l
    else if w.length < 257 then (w, false)
    else if !w.getD 256 false then huntE1 l
    else if w.length < 519 then (w, false)
    else if (w.drop 512).take 7 == fasBits then (w, true)
    else huntE1 l

/-- Bits from the first to the last framing bit of two T1 superframes. -/
def huntSpan (fr : Framing) : Nat := match fr with | .t1Sf => 193 * 23 + 1 | _ => 193 * 44 + 1

/-- The framing bits of two whole superframes are right at the candidate position whose last bit was received last (R189). -/
def superframesRight (fr : Framing) (w : List Bool) : Bool :=
  let n := huntSpan fr
  let l := superLen fr
  w.length == n && (List.range (2 * l)).all (fun j =>
    match expectedF fr (l - j % l) with
    | some b => decide (n ≤ 193 * j) || w.getD (n - 1 - 193 * j) false == b
    | none => true)

/-- The search takes more bits; whether it has found its alignment at the last of them. -/
def huntOn (fam : BitVec 4) (bits : List Bool) (kept : List Bool) : List Bool × Bool :=
  if isT1 fam then
    let w := kept ++ bits
    let v := w.drop (w.length - huntSpan (framingOf fam))
    (v, superframesRight (framingOf fam) v)
  else huntE1 (kept ++ bits)

/-! ### What the frames since alignment show -/

/-- The frame received `i` frames before the one in receipt, if the port has been aligned since. -/
def ago (x : PortSt) (i : Nat) : Option (List Byte) :=
  if i < x.framer.sinceBasic then (x.slip.history[i]?).map (fun r => r.octets) else none

/-- What held of the frame received `i` frames before the one in receipt. -/
def agoIs (x : PortSt) (i : Nat) (f : List Byte → Bool) : Bool := (ago x i).any f

/-- The F bit received `i` frames before, in the frame of this superframe number, was in error. -/
def fWrong (x : PortSt) (i : Nat) : Bool :=
  let l := superLen (framingOf x.line.family)
  let n := (x.framer.frameNo + 2 * l - i % l - 1) % l + 1
  match expectedF (framingOf x.line.family) n with
  | some b => agoIs x (i - 1) (fun o => fBit o != b)
  | none => false

/-- Counter 9: a FAS or framing bit received in error (R206). -/
def framingError (x : PortSt) (octets : List Byte) : Bool :=
  let n := x.framer.frameNo
  match framingOf x.line.family with
  | .e1Crc | .e1Basic => n % 2 == 0 && fasBad (byteAt octets 0)
  | .off => false
  | fr => match expectedF fr n with
    | some b => fBit octets != b
    | none => false

/-- The framing bits with that of the frame in receipt end alignment: 3 consecutive errored FAS (R181), or 2 of 4 consecutive
Ft or FPS bits in error (R189). -/
def framingLost (x : PortSt) (octets : List Byte) : Bool :=
  x.framer.aligned && framingError x octets &&
    (match framingOf x.line.family with
     | .e1Crc | .e1Basic => agoIs x 1 (fun o => fasBad (byteAt o 0)) && agoIs x 3 (fun o => fasBad (byteAt o 0))
     | .t1Sf => x.framer.frameNo % 2 == 1 && (fWrong x 2 || fWrong x 4 || fWrong x 6)
     | .t1Esf => fWrong x 4 || fWrong x 8 || fWrong x 12
     | .off => false)

/-- A CRC-4 MFAS ends in the frame `i` frames before the one in receipt, 0 for that frame itself with this bit 1
("CRC-4 multiframe and fallback"). -/
def mfasAt (x : PortSt) (bit1 : Bool) (i : Nat) : Bool :=
  let bit := fun (j : Nat) => if j = 0 then some bit1 else (ago x (j - 1)).map fBit
  bit i == some true && bit (i + 2) == some true && bit (i + 4) == some false && bit (i + 6) == some true &&
    bit (i + 8) == some false && bit (i + 10) == some false

/-- Frames of R183's 8 ms. -/
def crcLimit : Nat := 64

/-- Two valid MFAS 2 ms apart or a multiple of it, within 64 frames of basic alignment (R183). -/
def crcFound (x : PortSt) (bit1 : Bool) : Bool :=
  x.framer.frameNo % 2 == 1 && decide (x.framer.sinceBasic ≤ crcLimit) && mfasAt x bit1 0 &&
    (mfasAt x bit1 16 || mfasAt x bit1 32 || mfasAt x bit1 48)

/-- Two valid MFAS 2 ms apart (R184). -/
def crcFoundAgain (x : PortSt) (bit1 : Bool) : Bool :=
  x.framer.frameNo % 2 == 1 && mfasAt x bit1 0 && mfasAt x bit1 16

/-- A CAS MFAS, bits 1 to 4 of TS16 zero. -/
def casMfas (ts16 : Byte) : Bool := ts16.toNat / 16 == 0

/-- TS16 of a frame. -/
def ts16Of (octets : List Byte) : Byte := byteAt octets 16

/-- Two CAS MFAS 16 frames apart, the TS16 before each with a one in it (R187). -/
def casFound (x : PortSt) (ts16 : Byte) : Bool :=
  casMfas ts16 && agoIs x 15 (fun o => casMfas (ts16Of o)) && agoIs x 0 (fun o => ts16Of o != 0) &&
    agoIs x 16 (fun o => ts16Of o != 0)

/-- Two consecutive CAS MFAS in error (R187). -/
def casErrors (x : PortSt) (ts16 : Byte) : Bool :=
  x.framer.casNo == 0 && !casMfas ts16 && agoIs x 15 (fun o => !casMfas (ts16Of o))

/-- TS16 holds only zeros in every frame of one multiframe (R187). -/
def casZeros (x : PortSt) (ts16 : Byte) : Bool :=
  x.framer.casNo == 15 && ts16 == 0 && (List.range 15).all (fun i => agoIs x i (fun o => ts16Of o == 0))

/-- The A bit of TS0 of a NFAS frame. -/
def aBit (octets : List Byte) : Bool := bitOf (byteAt octets 0).toNat 5

/-- Bit 2 of all 24 channels of a T1 frame is 0. -/
def sfAlarmed (octets : List Byte) : Bool := (List.range 24).all (fun i => !bitOf (byteAt octets (i + 1)).toNat 6)

/-- Bit 2 of some channel received is 1. -/
def sfClear (octets : List Byte) : Bool := ((octets.drop 1).take 24).any (fun o => bitOf o.toNat 6)

/-- The RAI word of the FDL: eight ones, then eight zeros (R192). -/
def raiBits : List Bool := List.replicate 8 true ++ List.replicate 8 false

/-- The latest 64 FDL bits with that of the frame in receipt. -/
def fdlNow (x : PortSt) (octets : List Byte) : List Bool :=
  let l := x.framer.fdl ++ [fBit octets]
  l.drop (l.length - 64)

/-- RAI is to be declared (R192). -/
def raiMet (x : PortSt) (octets : List Byte) : Bool :=
  x.framer.aligned && (match framingOf x.line.family with
    | .e1Crc | .e1Basic => x.framer.frameNo % 2 == 1 && aBit octets && agoIs x 1 aBit && agoIs x 3 aBit
    | .t1Sf => x.framer.frameNo == 12 && decide (25 ≤ octets.length) && sfAlarmed octets &&
        (List.range 23).all (fun i => agoIs x i sfAlarmed)
    | .t1Esf => x.framer.frameNo % 2 == 1 && fdlNow x octets == raiBits ++ raiBits ++ raiBits ++ raiBits
    | .off => false)

/-- RAI is to be cleared (R192). The FDL words counted run back to back from the declaration. -/
def raiOver (x : PortSt) (octets : List Byte) : Bool :=
  match framingOf x.line.family with
  | .e1Crc | .e1Basic => x.framer.frameNo % 2 == 1 && !aBit octets && agoIs x 1 (fun o => !aBit o) && agoIs x 3 (fun o => !aBit o)
  | .t1Sf =>
    let n := x.framer.frameNo
    (sfClear octets || (List.range (n - 1)).any (fun i => agoIs x i sfClear)) &&
      (List.range 12).any (fun i => agoIs x (n - 1 + i) sfClear)
  | .t1Esf =>
    let gone := x.slip.nextNo - x.framer.raiAt
    let w := fdlNow x octets
    x.framer.frameNo % 2 == 1 && decide (128 ≤ gone) && gone % 32 == 0 &&
      (List.range 4).all (fun i => (w.drop (16 * i)).take 16 != raiBits)
  | .off => false

/-! ### Checked blocks (R189, R195, R206) -/

/-- The frame of a block with its check bits as the code takes them: bit 1 of an even E1 frame 0 (R195); on T1 the F bit 1
(R189). -/
def uncheck (fam : BitVec 4) (m : Nat) (octets : List Byte) : List Byte :=
  if isT1 fam then (byteAt octets 0 ||| 0x80) :: octets.drop 1
  else if m % 2 = 0 then (byteAt octets 0 &&& 0x7F) :: octets.drop 1
  else octets

/-- A change of a frame as the check bits see it: none in the places that `uncheck` fixes. -/
def uncheckDiff (fam : BitVec 4) (m : Nat) (octets : List Byte) : List Byte :=
  if isT1 fam || m % 2 == 0 then (byteAt octets 0 &&& 0x7F) :: octets.drop 1 else octets

/-- Check bits over a block (R195, R198). -/
def checkOf (fam : BitVec 4) (block : List (List Byte)) : Nat := if isT1 fam then crc6 block else crc4 block

/-- The frames received `i + n - 1` down to `i` frames before, oldest first, if all were received since alignment. -/
def agoList (x : PortSt) (i n : Nat) : Option (List (List Byte)) := ((List.range n).map (fun j => ago x (i + n - 1 - j))).mapM id

/-- Whether the block whose last check bit is received now is errored, and whether it is the second of its multiframe; none
where no check bits end or the block was not received whole (R186, R189, R206). -/
def blockResult (x : PortSt) (check : Bool) : Option (Bool × Bool) :=
  let fam := x.line.family
  let f := x.framer.frameNo
  let got := fun (l : List Nat) =>
    l.foldl (fun (a : Nat) i => 2 * a + b2n (agoIs x i fBit)) 0 * 2 + b2n check
  if isT1 fam then
    if f = 22 then (agoList x 21 24).map (fun b =>
      (checkOf fam ((List.range 24).map (fun i => uncheck fam (i + 1) (b.getD i []))) != got [19, 15, 11, 7, 3], false))
    else none
  else if f % 8 = 6 then (agoList x 6 8).map (fun b =>
      (checkOf fam ((List.range 8).map (fun i => uncheck fam i (b.getD i []))) != got [5, 3, 1], f == 6))
  else none

/-! ### Alignment -/

/-- Basic frame or superframe alignment is gained; the frame in receipt is number `n` (R181, R189). AIS clears at once
(R173), and the LOF clear is recorded (R180). DESIGN CHOICE (assumption 127): until a multiframe of the port is aligned, an E1
port counts its frames mod 16 from this frame as 0, which is what R201 then marks them with. -/
def gainAlignment (p : Port) (n : Nat) (s : State) : State :=
  let x := s.ports[p]
  if x.line.running && !x.framer.aligned then
    let s1 := clearAis p s
    let s2 := s1.setPort p (fun x =>
      let y : PortSt := { x with
        framer := { x.framer.search with
          aligned := true, frameNo := n
          crcMf := if framingOf x.line.family = .e1Crc then .searching else .none }
        slip := { x.slip.suspend with alignedAt := some s.now } }
      { y with raw := { y.raw with lomf := y.raw.lomf || lomfOf y } })
    followLoop p (captureEvent p 4 s2)
  else s

/-- The search takes the bits received, and alignment is gained when it has found it (R181, R189); the frame in receipt is
number `n`. The windows of R173 take the bits before that frame. -/
def hunts (p : Port) (n : Nat) (bits : List Bool) (s : State) : State :=
  let x := s.ports[p]
  if x.line.running && !x.framer.aligned then
    let (l, found) := huntOn x.line.family bits x.framer.hunt
    if found then
      let before := bits.take (bits.length - (if isT1 x.line.family then 1 else 8))
      gainAlignment p n (s.setLine p (fun l => { l with win := l.winAfter before }))
    else s.setFramer p (fun f => { f with hunt := l })
  else s

/-- The framer leaves ALIGNED (R180, R185, R187, R192). -/
def loseAlignment (p : Port) (s : State) : State :=
  let x := s.ports[p]
  if x.line.running && x.framer.aligned then
    followLoop p (captureEvent p 3 (s.setPort p (fun x =>
      { x with
        framer := x.framer.search
        slip := x.slip.suspend
        raw := { (x.raw.note 6 1) with lof := true } })))
  else s

/-- The framing error that ends alignment is itself counted while aligned (R181, R189, R206, "Where things meet"). -/
def endAlignment (p : Port) (octets : List Byte) (s : State) : State :=
  if s.ports[p].line.running && framingLost s.ports[p] octets then
    loseAlignment p (s.setRaw p (fun r => r.note 9 1))
  else s

/-- CRC-4 multiframe alignment, gained in the search or out of fallback (R183, R184): the frame in receipt is frame 11, in
which the second MFAS ends. -/
def gainCrcMf (p : Port) (bit1 : Bool) (s : State) : State :=
  let x := s.ports[p]
  if x.framer.aligned && ((x.framer.crcMf == .searching && crcFound x bit1) || (x.framer.crcMf == .fallback && crcFoundAgain x bit1)) then
    s.setFramer p (fun f =>
      { f with crcMf := .aligned, crcFresh := f.crcMf == .fallback, frameNo := 11, winBlocks := 0, winErrors := 0 })
  else s

/-- CRC-4 fallback (R184), once 64 frames have passed since basic alignment. -/
def fallBack (p : Port) (s : State) : State :=
  let x := s.ports[p]
  if x.framer.aligned && x.framer.crcMf == .searching && decide (crcLimit ≤ x.framer.sinceBasic) then
    (s.setFramer p (fun f => { f with crcMf := .fallback })).setRaw p (fun r => { r with fbTurn := true, lomf := true })
  else s

/-- A window of 1000 checked blocks closes (R186). -/
def closeWindow (p : Port) (s : State) : State :=
  let f := s.ports[p].framer
  if f.crcMf == .aligned && decide (1000 ≤ f.winBlocks) then
    let s1 := s.setFramer p (fun f => { f with winBlocks := 0, winErrors := 0 })
    if 915 ≤ f.winErrors then loseAlignment p s1 else s1
  else s

/-- Blocks are checked on this port now: CRC-4 multiframe aligned, after fallback from the next sub-multiframe on that begins a
multiframe, or ESF aligned (R189, R206, "Where things meet"). -/
def blocksChecked (x : PortSt) : Bool :=
  x.framer.aligned &&
    (match framingOf x.line.family with
     | .e1Crc => x.framer.crcMf == .aligned && !x.framer.crcFresh
     | .t1Esf => true
     | _ => false)

/-- A block has been checked (R186, R197, R206). -/
def countBlock (p : Port) (errored second : Bool) (s : State) : State :=
  s.setPort p (fun x =>
      { x with
        raw := { ((x.raw.note 10 1).note 11 (b2n errored)) with crcTurn := x.raw.crcTurn + b2n errored }
        framer := if isT1 x.line.family then x.framer else
          { x.framer with
            winBlocks := x.framer.winBlocks + 1
            winErrors := x.framer.winErrors + b2n errored
            eBitFirst := x.framer.eBitFirst || (errored && !second)
            eBitSecond := x.framer.eBitSecond || (errored && second) } })

/-- The last check bit of a block is received (R186, R189, R206). -/
def checkBlock (p : Port) (check : Bool) (s : State) : State :=
  let x := s.ports[p]
  match blockResult x check with
  | some (errored, second) => if blocksChecked x then countBlock p errored second s else s
  | none => s

/-- CAS multiframe alignment is gained (R187): the frame in receipt is CAS frame 0. -/
def gainCas (p : Port) (ts16 : Byte) (s : State) : State :=
  let x := s.ports[p]
  if x.framer.aligned && isE1 x.line.family && x.line.cas && !x.framer.casMf && casFound x ts16 then
    s.setFramer p (fun f => { f with casMf := true, casNo := 0 })
  else s

/-- CAS multiframe alignment is lost; an errored MFAS that ends it is counted, and the held signalling keeps its values (R187,
R206). -/
def loseCas (p : Port) (ts16 : Byte) (s : State) : State :=
  let x := s.ports[p]
  if x.framer.casMf && (casErrors x ts16 || casZeros x ts16) then
    (s.setFramer p (fun f => { f with casMf := false })).setRaw p (fun r =>
      { (r.note 13 (b2n (casErrors x ts16))) with lomf := true })
  else s

/-- RAI is declared; only while aligned (R192). -/
def declareRai (p : Port) (octets : List Byte) (s : State) : State :=
  let x := s.ports[p]
  if raiMet x octets && !x.framer.rai then
    (s.setFramer p (fun f => { f with rai := true, raiAt := x.slip.nextNo })).setRaw p (fun r => { r with rai := true })
  else s

/-- RAI clears (R192). -/
def clearRai (p : Port) (octets : List Byte) (s : State) : State :=
  let x := s.ports[p]
  if x.framer.rai && raiOver x octets then s.setFramer p (fun f => { f with rai := false }) else s

/-- What a whole received frame shows the framer, where no event within the frame has told of it: the criteria of R181 to R192
in the order of their bits, and the end of R183's search. -/
def frameShows (p : Port) (octets : List Byte) (s : State) : State :=
  let s1 := fallBack p (gainCrcMf p (fBit octets) (endAlignment p octets s))
  clearRai p octets (declareRai p octets (gainCas p (ts16Of octets) (loseCas p (ts16Of octets) s1)))

/-! ### The frame written in line time -/

/-- The signalling bit that robbed-bit frame `n` carries: 3 for A, 2 for B, 1 for C, 0 for D (R190). -/
def robbedBit (fr : Framing) (n : Nat) : Option Nat :=
  match fr, n with
  | .t1Sf, 6 => some 3
  | .t1Sf, 12 => some 2
  | .t1Esf, 6 => some 3
  | .t1Esf, 12 => some 2
  | .t1Esf, 18 => some 1
  | .t1Esf, 24 => some 0
  | _, _ => none

/-- Counter 12: a received E bit equal to 0 (R193). -/
def farEndError (x : PortSt) (octets : List Byte) : Bool :=
  x.framer.crcMf == .aligned && (x.framer.frameNo == 13 || x.framer.frameNo == 15) &&
    !bitOf (byteAt octets 0).toNat 7

/-- Counter 13: a CAS MFAS received in error (R206). -/
def casError (x : PortSt) (octets : List Byte) : Bool :=
  x.framer.casMf && x.framer.casNo == 0 && (byteAt octets 16).toNat / 16 != 0

/-- The signalling held after this frame (R188, R190). -/
def heldSig (x : PortSt) (octets : List Byte) : Vector (BitVec 4) 32 :=
  if isT1 x.line.family then
    match x.line.robbed, robbedBit (framingOf x.line.family) x.framer.frameNo with
    | true, some b => Vector.ofFn (fun i => setBit x.framer.sig[i] b (bitOf (byteAt octets i.val).toNat 0))
    | _, _ => x.framer.sig
  else if x.framer.casMf && x.framer.casNo != 0 then
    let o := (byteAt octets 16).toNat
    Vector.ofFn (fun i =>
      if i.val = x.framer.casNo then BitVec.ofNat 4 (o / 16)
      else if i.val = x.framer.casNo + 16 then BitVec.ofNat 4 (o % 16)
      else x.framer.sig[i])
  else x.framer.sig

/-- The multiframe frame number after `n` (R178). -/
def nextFrameNo (fam : BitVec 4) (n : Nat) : Nat := followingNo fam n

/-- The number a frame is marked with (R178, R201): its CAS frame number on a basic frame port whose CAS multiframe is
aligned, its number in the framer's count otherwise. -/
def markOf (x : PortSt) : Nat :=
  if framingOf x.line.family == .e1Basic && x.line.cas && x.framer.casMf then x.framer.casNo else x.framer.frameNo

/-- Number of the frame that ends at tick `now`: frame-length intervals in which none was written are counted too (R511). -/
def Slip.numberAt (x : Slip) (now : Nat) : Nat :=
  match x.history.head? with
  | some r => r.number + max 1 ((now - r.doneAt + 1024) / 2048)
  | none => x.nextNo

/-- A frame that ends at tick `now` follows no other in the order received: frames are missing before it, or alignment has just been
gained. -/
def PortSt.rebases (x : PortSt) (now : Nat) : Bool :=
  x.slip.numberAt now != x.slip.nextNo || (x.framer.aligned && x.framer.sinceBasic == 0)

/-- The ports that pass the received frames of `t` on take the frame due by its receipt anew: the delay is exactly one multiframe
again (R133, R511). -/
def rebase (t : Port) (s : State) : State :=
  forEach [t, partnerPort t] (fun p u =>
    if u.ports[p].hinge.role = .lineTimed t then u.setSlip p (fun y => { y with nextOut := none }) else u) s

/-- A received frame enters the receive slip buffer (R201), and the framer's counts go on (R188, R190, R206). -/
def storeFrame (p : Port) (octets : List Byte) (s0 : State) : State :=
    let s := if s0.ports[p].rebases s0.now then rebase p s0 else s0
    let x := s.ports[p]
    let holds := receivesBad x
    let n := x.slip.numberAt s.now
    let r : RxFrame :=
      { octets := fitTo 32 octets, mf := x.framer.frameNo, mark := markOf x, chk := blocksChecked x
        cas0 := x.framer.casMf && x.framer.casNo == 0, number := n, doneAt := s.now, bad := x.slip.badNow || holds }
    s.setPort p (fun x =>
      let al := x.framer.aligned
      { x with
        line := { x.line with win := x.line.winAfter (frameBitList x.line.family octets) }
        raw := if al then
            ((x.raw.note 9 (b2n (framingError x octets))).note 12 (b2n (farEndError x octets))).note 13
              (b2n (casError x octets))
          else x.raw
        framer := if al then
            { x.framer with
              sig := heldSig x octets
              frameNo := nextFrameNo x.line.family x.framer.frameNo
              crcFresh := x.framer.crcFresh && x.framer.frameNo != 15
              casNo := (x.framer.casNo + 1) % 16
              sinceBasic := x.framer.sinceBasic + 1
              fdl := if isT1 x.line.family && x.framer.frameNo % 2 == 1 then fdlNow x octets else x.framer.fdl }
          else { x.framer with hunt := (huntOn x.line.family (frameBitList x.line.family octets) x.framer.hunt).1 }
        slip := { x.slip with
          waiting := if al && !x.line.los then (x.slip.waiting ++ [r]).drop (x.slip.waiting.length + 1 - 5)
            else x.slip.waiting
          history := (r :: x.slip.history).take 160
          nextNo := n + 1
          badNow := holds } })

/-- A received frame is complete (R201, R206). -/
def writeFrame (p : Port) (octets : List Byte) (s : State) : State :=
  if s.ports[p].line.running then storeFrame p octets (frameShows p octets s) else s

/-! ### The counters of a frame -/

/-- What a frame has shown is counted at its end (R206 to R209). -/
def Raw.endFrame (r : Raw) : Raw :=
  let c := r.c
  let add := fun (i : Fin 19) (n : Nat) (v : Vector (BitVec 32) 19) => updV v i (fun x => sat32 x n)
  let c1 := add 6 r.pend[6] c
  let c2 := if r.ran then
      let v := Vector.ofFn (n := 19) (fun i => if i.val = 6 then c1[i] else sat32 c1[i] r.pend[i])
      add 5 (b2n r.rai) (add 4 (b2n r.lomf) (add 3 (b2n r.lof) (add 2 (b2n r.ais) (add 1 (b2n r.los) (add 0 1 v)))))
    else c1
  { r with c := c2, pend := Vector.replicate 19 0 }

/-- A new frame begins: what the port shows now is what the frame has shown so far. -/
def Raw.beginFrame (x : PortSt) : Raw :=
  { x.raw with
    ran := x.line.running, los := x.line.los, ais := x.line.ais, lof := lofOf x, lomf := lomfOf x, rai := x.framer.rai
    fbTurn := x.raw.fbTurn || x.framer.crcMf == .fallback }

/-- FRAME_ALIGNMENT_GAINED: an E1 port's search ends in frame 0 (R181). -/
def e1Hunts (p : Port) (bits : List Bool) (s : State) : State := if isE1 s.ports[p].line.family then hunts p 0 bits s else s

/-- T1_FRAME_ALIGNED: a T1 port's search ends in the last frame of a superframe (R189). -/
def t1Hunts (p : Port) (bits : List Bool) (s : State) : State :=
  if isT1 s.ports[p].line.family then hunts p (superLen (framingOf s.ports[p].line.family)) bits s else s

/-- CRC4_MULTIFRAME_ALIGNED: the search of R183 ends. -/
def crcSearchEnds (p : Port) (bit1 : Bool) (s : State) : State :=
  if s.ports[p].framer.crcMf == .searching then gainCrcMf p bit1 s else s

/-- CRC4_FALLBACK_EXIT: the background search of R184 ends. -/
def fallbackEnds (p : Port) (bit1 : Bool) (s : State) : State :=
  if s.ports[p].framer.crcMf == .fallback then gainCrcMf p bit1 s else s

def execFrameAlignmentGained (p : Port) (bits : List Bool) (k : Tick) (s : State) : Host.Outcome State Fault Refusal :=
  .next (e1Hunts p bits (atTick k s))

def execT1FrameAligned (p : Port) (bits : List Bool) (k : Tick) (s : State) : Host.Outcome State Fault Refusal :=
  .next (t1Hunts p bits (atTick k s))

def execLossOfFrame (p : Port) (head : Byte) (k : Tick) (s : State) : Host.Outcome State Fault Refusal :=
  .next (endAlignment p [head] (atTick k s))

def execCrc4MultiframeAligned (p : Port) (bit1 : Bool) (k : Tick) (s : State) :
    Host.Outcome State Fault Refusal :=
  .next (crcSearchEnds p bit1 (atTick k s))

def execCrc4Fallback (p : Port) (k : Tick) (s : State) : Host.Outcome State Fault Refusal :=
  .next (fallBack p (atTick k s))

def execCrc4FallbackExit (p : Port) (bit1 : Bool) (k : Tick) (s : State) : Host.Outcome State Fault Refusal :=
  .next (fallbackEnds p bit1 (atTick k s))

def execCrc4WindowClose (p : Port) (k : Tick) (s : State) : Host.Outcome State Fault Refusal :=
  .next (closeWindow p (atTick k s))

def execCrcBlockChecked (p : Port) (check : Bool) (k : Tick) (s : State) : Host.Outcome State Fault Refusal :=
  .next (checkBlock p check (atTick k s))

def execCasMultiframeAligned (p : Port) (ts16 : Byte) (k : Tick) (s : State) : Host.Outcome State Fault Refusal :=
  .next (gainCas p ts16 (atTick k s))

def execCasMultiframeLost (p : Port) (ts16 : Byte) (k : Tick) (s : State) : Host.Outcome State Fault Refusal :=
  .next (loseCas p ts16 (atTick k s))

def execRaiDeclare (p : Port) (octets : List Byte) (k : Tick) (s : State) : Host.Outcome State Fault Refusal :=
  .next (declareRai p octets (atTick k s))

def execRaiClear (p : Port) (octets : List Byte) (k : Tick) (s : State) : Host.Outcome State Fault Refusal :=
  .next (clearRai p octets (atTick k s))

end Sys2Proof.Machine
end

