-- ==== Sys2Proof/Machine/Patterns.lean ====
section
/-! DEFINITION. Pattern generator and analyser (10_pattern_engine). Each engine runs them on the same bits (R268) and holds
its own state of them. -/

namespace Sys2Proof.Machine

/-! ### Sequences -/

/-- Register length and second tap of a type's feedback polynomial (R269). -/
def prbsTaps (ty : Nat) : Nat × Nat :=
  match ty with
  | 0 => (9, 5) | 1 => (11, 9) | 2 => (15, 14) | 3 => (20, 3) | 4 => (23, 18) | _ => (20, 17)

/-- The feedback bit of a register whose bit i - 1 holds the bit i places back (R269). -/
def feedback (ty : Nat) (reg : BitVec 23) : Bool :=
  xor (reg.getLsbD ((prbsTaps ty).1 - 1)) (reg.getLsbD ((prbsTaps ty).2 - 1))

/-- Shift a bit in. -/
def shiftIn (reg : BitVec 23) (b : Bool) : BitVec 23 := (reg <<< 1) ||| (if b then 1#23 else 0#23)

/-- QRSS forces to 1 a bit that would be the 15th consecutive zero (R269). -/
def forceOne (ty zeros : Nat) (b : Bool) : Bool := b || (ty == 5 && decide (14 ≤ zeros))

/-- Consecutive zeros after a bit. -/
def zeroRun (zeros : Nat) (b : Bool) : Nat := if b then 0 else zeros + 1

/-- Polarity of a definition: O.150's, inverted once more by the invert flag (R269). -/
def polarity (d : PatDef) : Bool := xor d.invert (d.type != 6 && o150Inverted d.type)

/-- Length of a fixed word; a length outside 1 to 128 acts as the nearer end of the range. -/
def wordLen (d : PatDef) : Nat := if d.len = 0 then 1 else min d.len 128

/-- Bit `i` of a fixed word, bit 7 of its first byte first (R103). -/
def wordBit (d : PatDef) (i : Nat) : Bool := bitOf (byteAt d.word (i / 8)).toNat (7 - i % 8)

/-- One bit of a generator, before injection, and the generator after it (R269, R270): a shift register's output is its
last stage. -/
def genBit (d : PatDef) (g : Gen) : Bool × Gen :=
  if d.type = 6 then
    (xor (wordBit d g.phase) (polarity d), { g with phase := (g.phase + 1) % wordLen d })
  else
    let raw := g.reg.getLsbD ((prbsTaps d.type).1 - 1)
    let b := forceOne d.type g.zeros raw
    (xor b (polarity d), { g with reg := shiftIn g.reg (feedback d.type g.reg), zeros := zeroRun g.zeros b })

/-- A generator at its start (R270). -/
def Gen.start (g : Gen) : Gen := { g with running := true, reg := BitVec.allOnes 23, phase := 0, zeros := 0, counted := 0 }

/-- One generated bit with injection (R282): the bit, whether it was inverted, and the generator after it. -/
def genInjected (d : PatDef) (interval : Nat) (g : Gen) : Bool × Bool × Gen :=
  let (b, g1) := genBit d g
  let n := g.counted + 1
  let inj := g.once || (interval != 0 && n % interval == 0)
  (xor b inj, inj, { g1 with counted := n, once := false })

/-! ### Placement (R271) -/

/-- The selected slots and bit indices of a definition on a port, in transmission order; `cas0`: TS16 is made by the
framer in this frame. -/
def selected (d : PatDef) (l : Line) (cas0 : Bool) : List (Nat × Nat) :=
  (List.range 32).flatMap (fun n =>
    if bitOf d.slotMask n && n != 0 && !(isT1 l.family && decide (24 < n)) && !(cas0 && l.cas && isE1 l.family && n == 16) then
      ((List.range 8).filter (fun i => bitOf d.bitMask (7 - i))).map (fun i => (n, i))
    else [])

/-- The bits of a frame's octets at selected places. -/
def pickBits (octets : List Byte) (sel : List (Nat × Nat)) : List Bool :=
  sel.map (fun x => bitOf (byteAt octets x.1).toNat (7 - x.2))

/-- Write one bit of a slot. -/
def pokeBit (octets : List Byte) (n i : Nat) (b : Bool) : List Byte :=
  octets.set n (setBit (byteAt octets n) (7 - i) b)

/-! ### What acts (R267) -/

/-- The generator of a definition acts. -/
def State.generates (s : State) (i : PatId) : Bool :=
  (s.modes.mode == .pattern) && (s.patDef i).generate && s.inService (s.patDef i).port

/-- The analyser of a definition acts. -/
def State.analyses (s : State) (i : PatId) : Bool :=
  (s.modes.mode == .pattern || s.modes.mode == .watch) && (s.patDef i).analyse && s.inService (s.patDef i).port

/-! ### The generator of a frame (R275) -/

/-- The bits a generator gives for a list of places. -/
def genRun (d : PatDef) (interval : Nat) : List (Nat × Nat) → Gen → List (Nat × Nat × Bool) × Nat × Gen
  | [], g => ([], 0, g)
  | (n, i) :: l, g =>
    let (b, inj, g1) := genInjected d interval g
    let (bs, k, g2) := genRun d interval l g1
    ((n, i, b) :: bs, k + b2n inj, g2)

/-- The generator of a definition runs in an engine for a port. -/
def State.genRuns (s : State) (e : Eng) (p : Port) (i : PatId) : Bool :=
  s.generates i && (s.patDef i).port == p && ((s.eng e).data.pats[i]).gen.running

/-- A place that a lower-numbered definition writes too, and so this one does not ("Where things meet"). -/
def State.genTaken (s : State) (e : Eng) (p : Port) (cas0 : Bool) (i : PatId) (place : Nat × Nat) : Bool :=
  all16.any (fun j => decide (j < i) && s.genRuns e p j && (selected (s.patDef j) s.ports[p].line cas0).contains place)

/-- Run the generators of a port in an engine for one frame: the bits written, lower-numbered definitions written last so that
they stand ("Where things meet" of 10_pattern_engine). -/
def runGenerators (e : Eng) (p : Port) (cas0 : Bool) (s : State) : List (Nat × Nat × Bool) × State :=
  all16.reverse.foldl (fun (acc : List (Nat × Nat × Bool) × State) i =>
    let t := acc.2
    let d := t.patDef i
    if t.genRuns e p i then
      let (bs, inj, g) := genRun d (injectInterval t.cmd) (selected d t.ports[p].line cas0) ((t.eng e).data.pats[i]).gen
      let n := (bs.filter (fun b => !s.genTaken e p cas0 i (b.1, b.2.1))).length
      (acc.1 ++ bs, t.setPat e i (fun x =>
        { x with gen := g, c := updV (updV x.c 0 (fun c => sat32 c n)) 1 (fun c => sat32 c inj) }))
    else acc) ([], s)

/-! ### The analyser (R277 to R281) -/

/-- An analyser in HUNT, with nothing loaded. -/
def Ana.hunt (a : Ana) : Ana :=
  { a with inSync := false, loaded := 0, correct := 0, blkBits := 0, blkErrs := 0, zeros := 0, due := .none }

/-- An analyser at its start: in HUNT with no bits taken. -/
def Ana.fresh (a : Ana) : Ana := { a.hunt with recent := [], rest := [], phase := 0, hunted := false, reg := 0 }

/-- The last `n` bits match the repeated word when the next bit is at `phase` (R278). -/
def wordMatches (d : PatDef) (recent : List Bool) (n phase : Nat) : Bool :=
  (List.range n).all (fun j =>
    (recent.getD j false) == xor (wordBit d ((phase + wordLen d * (j / wordLen d + 1) - (j + 1)) % wordLen d))
      (polarity d))

/-- The earliest phase that matches (R278). -/
def matchPhase (d : PatDef) (recent : List Bool) : Option Nat :=
  let n := max (2 * wordLen d) 64
  if n ≤ recent.length then (List.range (wordLen d)).find? (wordMatches d recent n) else none

/-- One bit in HUNT (R278). -/
def huntBit (d : PatDef) (b : Bool) (a : Ana) : Ana :=
  let a1 := { a with recent := (b :: a.recent).take 256, hunted := true }
  if d.type = 6 then
    match matchPhase d a1.recent with
    | some ph => { a1 with phase := ph, due := .sync }
    | none => a1
  else
    let raw := xor b (polarity d)
    let r := (prbsTaps d.type).1
    if a.loaded < r then
      { a1 with reg := shiftIn a.reg raw, loaded := a.loaded + 1, zeros := zeroRun a.zeros raw }
    else
      let fb := feedback d.type a.reg
      let want := forceOne d.type a.zeros fb
      if raw = want then
        { a1 with reg := shiftIn a.reg fb, zeros := zeroRun a.zeros want, correct := a.correct + 1,
                  due := if 64 ≤ a.correct + 1 then .sync else .none }
      else { a1 with loaded := 0, correct := 0, zeros := 0 }

/-- The bit the reference sequence has next (R278). -/
def refBit (d : PatDef) (a : Ana) : Bool :=
  if d.type = 6 then xor (wordBit d a.phase) (polarity d)
  else xor (forceOne d.type a.zeros (feedback d.type a.reg)) (polarity d)

/-- One bit in SYNC (R278, R279): the analyser, and whether the bit was in error. -/
def syncBit (d : PatDef) (b : Bool) (a : Ana) : Ana × Bool :=
  let err := xor b (refBit d a)
  let fb := feedback d.type a.reg
  let want := forceOne d.type a.zeros fb
  let n := a.blkBits + 1
  let e := a.blkErrs + b2n err
  let a1 := { a with
    recent := (b :: a.recent).take 256
    reg := if d.type = 6 then a.reg else shiftIn a.reg fb
    zeros := if d.type = 6 then a.zeros else zeroRun a.zeros want
    phase := if d.type = 6 then (a.phase + 1) % wordLen d else a.phase
    blkBits := if n = 128 then 0 else n
    blkErrs := if n = 128 then 0 else e
    due := if n = 128 ∧ 32 ≤ e then .loss else .none }
  (a1, err)

/-- Take bits until they are all taken or a transition is due; the rest then waits. -/
def feed (d : PatDef) : List Bool → PatSt → PatSt
  | [], x => x
  | b :: bs, x =>
    if x.ana.due ≠ .none then { x with ana := { x.ana with rest := x.ana.rest ++ (b :: bs) } }
    else if x.ana.inSync then
      let (a, err) := syncBit d b x.ana
      feed d bs { x with ana := a, c := updV (updV x.c 2 (fun c => sat32 c 1)) 3 (fun c => sat32 c (b2n err)) }
    else
      feed d bs { x with
        ana := huntBit d b x.ana
        c := if x.ana.hunted then x.c else updV x.c 5 (fun c => sat32 c 1) }

/-- An analyser takes the bits of one frame; none when the frame is not compared (R277). -/
def analyseFrame (d : PatDef) (bits : Option (List Bool)) (x : PatSt) : PatSt :=
  let x1 := { x with ana := { x.ana with hunted := false } }
  match bits with
  | some bs => feed d bs x1
  | none =>
    { x1 with
      c := updV x.c 5 (fun c => sat32 c 1)
      ana := if x.ana.inSync then { x1.ana with due := .loss } else x1.ana }

/-- ALL0 and ALL1 (R281): the last 128 compared bits. -/
def Ana.all0 (a : Ana) : Bool := decide (128 ≤ a.recent.length) && (a.recent.take 128).all (fun b => !b)
def Ana.all1 (a : Ana) : Bool := decide (128 ≤ a.recent.length) && (a.recent.take 128).all (fun b => b)

/-- The analyser enters SYNC, if that is due, and goes on with the bits that waited (R278). -/
def PatSt.enterSync (d : PatDef) (x : PatSt) : PatSt :=
  if x.ana.due = .sync then
    feed d x.ana.rest { x with ana := { x.ana with inSync := true, blkBits := 0, blkErrs := 0, due := .none, rest := [] } }
  else x

/-- The analyser falls back to HUNT, if that is due: counted, and on with the bits that waited (R277, R279). -/
def PatSt.loseSync (d : PatDef) (x : PatSt) : PatSt :=
  if x.ana.due = .loss then
    feed d x.ana.rest { x with
      ana := { x.ana.hunt with rest := [] }
      c := updV x.c 4 (fun c => sat32 c 1) }
  else x

/-- Change a definition in both engines. -/
def mapPat (i : PatId) (f : PatSt → PatSt) (s : State) : State := forEach engines (fun e t => t.setPat e i f) s

/-- ANALYSER_SYNC (R278), in each engine where it is due. -/
def doAnalyserSync (i : PatId) (s : State) : State := mapPat i (PatSt.enterSync (s.patDef i)) s

/-- ANALYSER_SYNC_LOSS (R277, R279), in each engine where it is due. -/
def doAnalyserSyncLoss (i : PatId) (s : State) : State := mapPat i (PatSt.loseSync (s.patDef i)) s

/-- Make every transition due among the bits that wait; each takes at least one of them or is the last. -/
def PatSt.settle (d : PatDef) : Nat → PatSt → PatSt
  | 0, x => x
  | n + 1, x =>
    match x.ana.due with
    | .none => x
    | .sync => PatSt.settle d n (x.enterSync d)
    | .loss => PatSt.settle d n (x.loseSync d)

/-- The transitions due in the last frame of a turn happen with it, so that they count in its second (R283). -/
def settlePatterns (s : State) : State :=
  forEach all16 (fun i t =>
    if engines.any (fun e => ((t.eng e).data.pats[i]).ana.due != .none) then
      mapPat i (fun x => x.settle (t.patDef i) (x.ana.rest.length + 1)) t
    else t) s

/-- A generator starts (R270, R274). -/
def startGenerator (i : PatId) (s : State) : State :=
  if s.generates i then mapPat i (fun x => { x with gen := x.gen.start }) s else s

/-- What acts after a change of mode, page or start (R267, R274, R276): generators that come to act start, those that
cease stop; analysers that come to act hunt afresh, one whose source changes enters HUNT without a loss, its last compared bits still
those of ALL0 and ALL1 (R281); those that cease are discarded. `sourceChanged`: the mode went between PATTERN and WATCH. -/
def refreshPatterns (sourceChanged : Bool) (s : State) : State :=
  forEach all16 (fun i t =>
    let g := t.generates i
    let a := t.analyses i
    mapPat i (fun x =>
      { x with
        active := g || a
        gen := if g then (if x.gen.running then x.gen else x.gen.start) else { x.gen with running := false, once := false }
        ana :=
          if a && x.active then (if sourceChanged then { x.ana.hunt with rest := [] } else x.ana) else x.ana.fresh }) t) s

/-- All generator and analyser state is discarded ("Where things meet" of 10_pattern_engine). -/
def discardPatterns (s : State) : State :=
  forEach all16 (fun i t => mapPat i (fun x =>
    { x with active := false, gen := { x.gen.start with running := false, once := false }, ana := x.ana.fresh }) t) s

/-- A definition restarts: its generator starts, its analyser hunts, and one that was in SYNC counts a loss. -/
def PatSt.restart (x : PatSt) : PatSt :=
  if x.active then
    { x with
      gen := if x.gen.running then x.gen.start else x.gen
      ana := x.ana.fresh
      c := if x.ana.inSync then updV x.c 4 (fun c => sat32 c 1) else x.c }
  else x

/-- An engine that was not in lock-step starts every generator and hunts with every analyser (R335). -/
def restartPatterns (e : Eng) (s : State) : State := s.setData e (fun d => { d with pats := d.pats.map PatSt.restart })

/-- A new active engine that held no pattern state starts every generator and hunts with every analyser; those that were in SYNC
in the engine before count a loss ("Where things meet": WARM fail-over). DESIGN CHOICE (assumption 141): the counts of the open
second go on from those of that engine. -/
def takePatterns (e : Eng) (s : State) : State :=
  let old := (s.eng e.other).data.pats
  s.setData e (fun d => { d with pats := old.map PatSt.restart })

def execAnalyserSync (i : PatId) (s : State) : Host.Outcome State Fault Refusal := .next (doAnalyserSync i s)

def execAnalyserSyncLoss (i : PatId) (s : State) : Host.Outcome State Fault Refusal := .next (doAnalyserSyncLoss i s)

end Sys2Proof.Machine
end

