-- ==== Sys2Proof/Machine/Slots.lean ====
section
/-! DEFINITION. The path of a slot (08_slot_fabric, and the slip buffers of 07_framing): reading the receive slip
buffers, input cells, the output stage, and the output latches. -/

namespace Sys2Proof.Machine

/-! ### Reading the receive slip buffers (R201, R202) -/

/-- The first read after alignment, at boundary tick `b` (R202): the newest complete frame that began after the
alignment and is at least 1.5 frames old. -/
def Slip.first (b : Nat) (x : Slip) : Slip :=
  match x.alignedAt with
  | none => x
  | some al =>
    match (x.waiting.filter (fun f => decide (al + 2048 < f.doneAt ∧ f.doneAt + 3072 ≤ b))).getLast? with
    | none => x
    | some f =>
      { x with reading := true, lastRead := some f, waiting := x.waiting.filter (fun g => decide (f.number < g.number)) }

/-- What a later read does (R202). -/
inductive SlipAct where
  | plain
  | repeated
  | deleted
  deriving DecidableEq, Repr

/-- A later read at boundary tick `b`. -/
def Slip.next (b : Nat) (x : Slip) : Slip × SlipAct :=
  match x.waiting with
  | [] => (x, .repeated)
  | f :: rest =>
    if b < f.doneAt + 512 then (x, .repeated)
    else if f.doneAt + 6656 < b then
      match rest with
      | g :: more => ({ x with waiting := more, lastRead := some g }, .deleted)
      | [] => ({ x with waiting := [], lastRead := some f }, .plain)
    else ({ x with waiting := rest, lastRead := some f }, .plain)

/-- The read of one port at boundary tick `b`; a slip is counted in the frame that ends there ("Where things meet" of
07_framing). -/
def slipRead (b : Nat) (x : PortSt) : PortSt :=
  if x.line.running && x.framer.aligned && !x.line.los then
    if x.slip.reading then
      match x.slip.next b with
      | (y, .plain) => { x with slip := y }
      | (y, .repeated) => { x with slip := { y with slipTurn := true }, raw := x.raw.note 14 1 }
      | (y, .deleted) => { x with slip := { y with slipTurn := true }, raw := x.raw.note 15 1 }
    else { x with slip := x.slip.first b }
  else x

/-! ### Input cells (R217, R191) -/

/-- The signalling of source slot `n` of a port (R191). -/
def sigOf (x : PortSt) (n : Nat) : BitVec 4 :=
  let held := match x.framer.sig[n]? with | some v => v | none => 15#4
  if !x.framer.aligned then 15#4
  else match framingOf x.line.family with
    | .t1Esf => if x.line.robbed && decide (1 ≤ n ∧ n ≤ 24) then held else 15#4
    | .t1Sf =>
      if x.line.robbed && decide (1 ≤ n ∧ n ≤ 24) then BitVec.ofNat 4 (held.toNat / 4 * 4 + held.toNat / 4) else 15#4
    | .off => 15#4
    | _ => if x.framer.casMf && n != 0 && n != 16 then held else 15#4

/-- Sixteen bytes of signalling nibbles, the low nibble for even slots (R217). -/
def nibbleBytes (f : Nat → Nat) : List Byte :=
  (List.range 16).map (fun i => BitVec.ofNat 8 (f (2 * i) % 16 + f (2 * i + 1) % 16 * 16))

/-- The octets of a frame as a cell carries them: on T1 the F bit alone in byte 0 and nothing above channel 24. -/
def cellOctets (fam : BitVec 4) (octets : List Byte) : List Byte :=
  let l := fitTo 32 octets
  if isT1 fam then (byteAt l 0 &&& 0x80) :: ((l.drop 1).take 24 ++ zeros 7) else l

/-- The status byte of an input cell (R217). -/
def statusByte (x : PortSt) : Byte :=
  BitVec.ofNat 8 (b2n (x.framer.aligned && x.slip.reading) + 2 * b2n x.line.los + 4 * b2n (lofOf x) + 8 * b2n x.line.ais +
    16 * b2n (isT1 x.line.family) + 32 * b2n x.framer.casMf)

/-- The payload of a port's input cell for the frame just read (R217). -/
def inputPayload (x : PortSt) : List Byte :=
  let r := if x.slip.reading then x.slip.lastRead else none
  let oct := match r with | some f => f.octets | none => []
  let mf := match r with | some f => f.mark | none => 0
  cellOctets x.line.family oct ++ nibbleBytes (fun n => (sigOf x n).toNat) ++ [statusByte x, BitVec.ofNat 8 mf] ++ zeros 6

/-- Frame `n` of the walking pattern (R140): one bit of the 256 differs from the rest, the next one in each frame; a one walks
in 256 frames and a zero in the next 256. DESIGN CHOICE (assumption 142): the manual does not say which bit walks when. -/
def proofOctets (n : Nat) : List Byte :=
  let b := n % 256
  (List.range 32).map (fun i =>
    (if i = b / 8 then BitVec.ofNat 8 (2 ^ (7 - b % 8)) else 0) ^^^ (if n / 256 % 2 = 0 then 0x00 else 0xFF))

/-- The payload of a port's input cell in PROOF (R140): the frame that its transmit data path has just sent, looped inside the die
after the coder. -/
def proofPayload (x : PortSt) : List Byte := fitTo 32 (x.tx.octets.getD []) ++ zeros 24

/-- A circuit cell that is no output cell. -/
def inputCell (e : Eng) (p : Port) (frame : Nat) (payload : List Byte) : Cell :=
  { cls := .circuit, dest := 0, src := p.val, seq := seqOf frame, copy := 0, cm := false, bt := false, dirn := false,
    eng := e == .ey, frag := 3, len := 56, page := 0, payload := payload }

/-- Circuit flows of the listed numbers are done: all their cells have been released, and the next cell begins the flow
anew, so that no window of R215 runs for cells that were never built (R215, R216). -/
def endFlows (done : Nat → Bool) (l : List FlowSt) : List FlowSt :=
  l.filter (fun f => !(f.flow.cls == .circuit && done (f.flow.src + f.flow.dest)))

/-- In PROOF the transmit data path of a port is looped inside its die (R140), from when the port is bypassed: before that it sends what
its role asks for (R126). -/
def State.looped (s : State) (p : Port) : Bool :=
  s.modes.mode == .proof && s.ports[p].hinge.role == .bypassed && s.ports[p].hinge.seq == .idle

/-- The input cell of one port is built and sprayed to the engines that run (R17, R217). -/
def buildInput (frame : Nat) (p : Port) (s : State) : State :=
  if s.inService p && (s.die (dieOf p)).powered && !(s.die (dieOf p)).lost then
    let pl := if s.looped p then proofPayload s.ports[p] else inputPayload s.ports[p]
    let s1 := s.setPort p (fun x => { x with inCell := some pl })
    forEach engines (fun e t =>
      if (t.eng e).ctl.running then sprayUp (dieOf p) e (inputCell e p frame pl) t else t) s1
  else
    let s1 := s.setPort p (fun x => { x with inCell := none })
    forEach engines (fun e t => t.setData e (fun d => { d with flows := endFlows (· == p.val) d.flows })) s1

/-! ### Copies (R218) -/

/-- The port sends its partner's payload (R137); one that waits for boundary B keeps what it sent. -/
def State.payloadLooped (s : State) (d : Port) : Bool :=
  if s.ports[d].hinge.seq = .awaitB then s.ports[d].hinge.content == .payload else s.loopKind d == .payload

/-- The destinations of a source slot: its copy list, and its partner while that sends its payload (R137). -/
def slotDests (s : State) (cp : Copy) (pg : Nat) (src : Port) (n : Nat) : BitVec 32 :=
  let m := copyList s.image.flash cp pg src.val n
  if s.payloadLooped (partnerPort src) then setBit m (partnerPort src).val true else m

/-- The union mask of an input cell (R218). -/
def unionMask (s : State) (cp : Copy) (pg : Nat) (src : Port) : BitVec 32 :=
  (List.range 32).foldl (fun m n => m ||| slotDests s cp pg src n) 0

/-- The payload of the copy to `d`: slots without `d` hold ones (R218). -/
def copyPayload (s : State) (cp : Copy) (pg : Nat) (src : Port) (d : Nat) (pl : List Byte) : List Byte :=
  let has := fun n => (slotDests s cp pg src n).getLsbD d
  (List.range 32).map (fun n => if has n then byteAt pl n else 0xFF) ++
    nibbleBytes (fun n => if has n then fieldOf (byteAt pl (32 + n / 2)).toNat (4 * (n % 2)) 4 else 15) ++
    (pl.drop 48)

/-- The copy cells of an input cell, in ascending order of destination (R218). -/
def copiesOf (s : State) (cp : Copy) (pg : Nat) (src : Port) (c : Cell) : List Cell :=
  let u := unionMask s cp pg src
  (allPorts.filter (fun d => u.getLsbD d.val)).map (fun d =>
    { c with
      dest := d.val
      copy := ((List.range d.val).filter (fun b => u.getLsbD b)).length
      payload := copyPayload s cp pg src d.val c.payload })

/-! ### The output stage (R220, R221) -/

/-- The source port of a copy cell is up (R108). -/
def statusUp (pl : List Byte) : Bool :=
  let st := (byteAt pl 48).toNat
  bitOf st 0 && !bitOf st 1 && !bitOf st 2 && !bitOf st 3

/-- The copy of SEQ `q` from a source to a destination at the output stage. -/
def stageCopy (dt : EngData) (q : BitVec 16) (src dest : Port) : Option (List Byte) :=
  (dt.stage.find? (fun c => c.seq == q && c.src == src.val && c.dest == dest.val)).map (fun c => c.payload)

/-- The copy that feeds an entry of destination `d`, if its source is up and its slot is carried to `d` (R108, R220). -/
def feeds (s : State) (dt : EngData) (q : BitVec 16) (d : Port) (e : Dest) : Option (List Byte) :=
  let slot := slotOfPos s.ports[e.srcPort].line.family e.srcPos
  match stageCopy dt q e.srcPort d with
  | none => none
  | some pl =>
    if statusUp pl && (copyList s.image.flash dt.activeCopy dt.active e.srcPort.val slot).getLsbD d.val then some pl
    else none

/-- The bit an entry that acts on one position gives (R108). -/
def entryBit (s : State) (dt : EngData) (q : BitVec 16) (d : Port) (b : Nat) : Bool :=
  let e := destEntry s.image.flash dt.activeCopy dt.active d b
  let idle := bitOf e.idle.toNat (7 - bitOfPos s.ports[d].line.family b)
  let fam := s.ports[e.srcPort].line.family
  if e.v && !e.w && posExists fam e.srcPos then
    match feeds s dt q d e with
    | some pl => bitOf (byteAt pl (slotOfPos fam e.srcPos)).toNat (7 - bitOfPos fam e.srcPos)
    | none => idle
  else idle

/-- The idle bits of a slot, each from its own entry (R108). -/
def idleOctet (s : State) (dt : EngData) (d : Port) (start : Nat) : Byte :=
  bitsOctet ((List.range 8).map (fun i =>
    bitOf (destEntry s.image.flash dt.activeCopy dt.active d (start + i)).idle.toNat (7 - i)))

/-- LAW (R286). -/
def convert (law : Nat) (o : Byte) : Byte :=
  match law with
  | 1 => alawToMulaw o
  | 2 => mulawToAlaw o
  | _ => o

/-- The entry switches a whole slot (R108): W = 1 on a slot-start entry whose source is slot-start too. -/
def wholeSlot (s : State) (e : Dest) : Bool :=
  e.v && e.w && isSlotStart s.ports[e.srcPort].line.family e.srcPos &&
    posExists s.ports[e.srcPort].line.family e.srcPos

/-- The octet of destination slot `n` as the entries produce it (R108, R286, R288). -/
def slotOctet (s : State) (dt : EngData) (q : BitVec 16) (d : Port) (n : Nat) : Byte :=
  let start := slotStart s.ports[d].line.family n
  let e := destEntry s.image.flash dt.activeCopy dt.active d start
  if wholeSlot s e then
    match feeds s dt q d e with
    | some pl => convert e.law (byteAt pl (slotOfPos s.ports[e.srcPort].line.family e.srcPos))
    | none => idleOctet s dt d start
  else bitsOctet ((List.range 8).map (fun i => entryBit s dt q d (start + i)))

/-- A slot whose bits the entries give. -/
def entrySlot (fam : BitVec 4) (n : Nat) : Bool := n != 0 && (!isT1 fam || decide (n ≤ 24))

/-- The RB slot of a T1 destination (R221). -/
def rbSlot (s : State) (dt : EngData) (d : Port) (n : Nat) : Bool :=
  let fam := s.ports[d].line.family
  let e := destEntry s.image.flash dt.activeCopy dt.active d (slotStart fam n)
  isT1 fam && entrySlot fam n && e.v && e.w && e.rb

/-- The signalling nibble of an RB slot: that of its source as its copy cell has it, held while the source is aligned, whether or
not it is in LOS or AIS (R191, R221); all ones where no copy carries the slot. -/
def rbNibble (s : State) (dt : EngData) (q : BitVec 16) (d : Port) (n : Nat) : Nat :=
  let e := destEntry s.image.flash dt.activeCopy dt.active d (slotStart s.ports[d].line.family n)
  let m := slotOfPos s.ports[e.srcPort].line.family e.srcPos
  match stageCopy dt q e.srcPort d with
  | some pl =>
    if (copyList s.image.flash dt.activeCopy dt.active e.srcPort.val m).getLsbD d.val then
      fieldOf (byteAt pl (32 + m / 2)).toNat (4 * (m % 2)) 4
    else 15
  | none => 15

/-- What the output stage gives for a port: octets, RB mask, signalling nibbles (R221). -/
structure Built where
  octets : List Byte
  rb     : List Bool
  sig    : List Nat
  deriving DecidableEq, Repr

/-- The page's content for destination `d`. -/
def pageBuilt (s : State) (dt : EngData) (q : BitVec 16) (d : Port) : Built :=
  let fam := s.ports[d].line.family
  { octets := (List.range 32).map (fun n => if entrySlot fam n then slotOctet s dt q d n else 0)
    rb := (List.range 32).map (rbSlot s dt d)
    sig := (List.range 32).map (fun n => if rbSlot s dt d n then rbNibble s dt q d n else 15) }

/-- The content of a payload-looped port (R137): its partner's slots, all ones while the partner is down. -/
def loopBuilt (s : State) (dt : EngData) (q : BitVec 16) (d : Port) : Built :=
  let fam := s.ports[d].line.family
  let src := (stageCopy dt q (partnerPort d) d).filter statusUp
  { octets := (List.range 32).map (fun n =>
      if entrySlot fam n then (match src with | some pl => byteAt pl n | none => 0xFF) else 0)
    rb := List.replicate 32 false
    sig := List.replicate 32 15 }

/-- Generated bits replace what the page gives (R275). -/
def Built.poke (b : Built) (x : Nat × Nat × Bool) : Built :=
  { octets := pokeBit b.octets x.1 x.2.1 x.2.2, rb := b.rb.set x.1 false, sig := b.sig.set x.1 15 }

/-- The payload of an output cell (R221). -/
def Built.payload (b : Built) : List Byte :=
  fitTo 32 b.octets ++
    leBytes 4 ((List.range 32).foldl (fun a n => a + b2n (b.rb.getD n false) * 2 ^ n) 0) ++
    nibbleBytes (fun n => b.sig.getD n 15) ++ zeros 4

/-- An output cell of an engine (R221). -/
def outputCell (e : Eng) (q : BitVec 16) (d : Port) (pg : Nat) (b : Built) : Cell :=
  { cls := .circuit, dest := d.val, src := 0, seq := q, copy := 0, cm := false, bt := false, dirn := true, eng := e == .ey,
    frag := 3, len := 56, page := pg, payload := b.payload }

/-- The port sends, or is about to send, what its latch gives: it is grid-timed, or inserts slots in THROUGH. From boundary B
of a release on it sends in follow drive (R354). -/
def latchUsed (x : PortSt) : Bool :=
  x.hinge.role != .bypassed && x.hinge.seq != .released && x.hinge.seq != .unterminated &&
    (match x.hinge.content with
     | .page | .payload | .through => true
     | _ => false)

/-- Output cells are built for this port: it is in service and not of a running pair (R220, R246), or it keeps its old role up to
boundary B of its release (R126, R354). In PROOF the proof engine's cells go to every port (R140). -/
def State.builds (s : State) (d : Port) : Bool :=
  (s.inService d && s.modes.mode != .rest && !s.pairs[pairOf d].running) || latchUsed s.ports[d]

/-- Sources whose copy to `d` was due and is not at the output stage (R220). -/
def missingCopies (s : State) (dt : EngData) (q : BitVec 16) (d : Port) : List Port :=
  allPorts.filter (fun p => s.ports[p].inCell.isSome && (unionMask s dt.activeCopy dt.active p).getLsbD d.val &&
    (stageCopy dt q p d).isNone)

/-- The proof engine's bits for destination `d` in frame `q`, if they have crossed the core (R140). -/
def proofBuilt (dt : EngData) (q : BitVec 16) (d : Port) : Option Built :=
  (dt.stage.find? (fun c => c.seq == q && c.src == 33 && c.dest == d.val)).map (fun c =>
    { octets := c.payload.take 32, rb := List.replicate 32 false, sig := List.replicate 32 15 })

/-- What the output stage gives port `d` for frame `q`; in PROOF nothing where the proof engine's cell is missing. -/
def builtAt (s : State) (dt : EngData) (q : BitVec 16) (d : Port) : Option Built :=
  if s.modes.mode = .proof ∧ ¬ latchUsed s.ports[d] then proofBuilt dt q d
  else some (if s.payloadLooped d then loopBuilt s dt q d else pageBuilt s dt q d)

/-- The output flows of an engine to ports it builds no cell for are done. -/
def endOutputs (e : Eng) (builds : Port → Bool) (s : State) : State :=
  let idle := fun n => !allPorts.any (fun p => p.val == n && builds p)
  forEach lineDies (fun d t => t.setDie d (fun x =>
    match e with
    | .ex => { x with flowsX := endFlows idle x.flowsX }
    | .ey => { x with flowsY := endFlows idle x.flowsY })) s

/-- The cells of frame `q` at the output stage, and those still in their VOQs, are removed (R230). -/
def EngData.endFrame (x : EngData) (q : BitVec 16) (built : List Cell) : EngData :=
  { x with built := built, stage := x.stage.filter (fun c => c.seq != q), circuit := x.circuit.filter (fun c => c.cell.seq != q) }

/-- The output stage of one engine for frame `q` (R220): its cells are built and sprayed, missing copies are counted as
late, and what is left of frame `q` is removed (R230). An engine that computes no output cells builds none. -/
def outputStage (e : Eng) (q : Nat) (bits : Port → List (Nat × Nat × Bool)) (s : State) : State :=
  if (s.eng e).ctl.computing && (s.eng e).ctl.running then
    let dt := (s.eng e).data
    let sq := seqOf q
    let dests := allPorts.filter s.builds
    let cells := dests.filterMap (fun d => (builtAt s dt sq d).map (fun b =>
      outputCell e sq d dt.active ((bits d).foldl Built.poke b)))
    let late := if s.modes.mode = .proof then [] else dests.flatMap (fun d => (missingCopies s dt sq d).map (fun p =>
      { inputCell e p q [] with dest := d.val }))
    let s1 := forEach late (fun c t => countCopy e .late 1 c t) s
    let s2 := if late.isEmpty then s1 else s1.setCtl e (fun c => { c with lateNow := true })
    let s3 := s2.setData e (fun x => x.endFrame sq cells)
    forEach cells (fun c t => sprayDown (if c.dest < 16 then .lda else .ldb) e c t) (endOutputs e s.builds s3)
  else endOutputs e (fun _ => false) (s.setData e (fun x => x.endFrame (seqOf q) []))

/-- The proof engine's cells of frame `n` in an engine (R140): one enters at every input, for an output that moves on by one in
each frame, through the circuit VOQs in 32 frames and the packet VOQs in the next 32 (DESIGN CHOICE, assumption 142). -/
def proofCells (e : Eng) (n : Nat) : List QCell :=
  allPorts.map (fun i =>
    let o : Port := ⟨(i.val + n) % 32, Nat.mod_lt _ (by decide)⟩
    { inp := i, out := o
      cell := { cls := if n / 32 % 2 = 0 then .circuit else .packet, dest := o.val, src := 33, seq := seqOf n, copy := 0, cm := false
                bt := false, dirn := false, eng := e == .ey, frag := 3, len := 56, page := 0
                payload := proofOctets n ++ zeros 24 } })

/-- In PROOF the proof engine of each engine that computes sends its cells of frame `n` (R140). -/
def launchProof (n : Nat) (s : State) : State :=
  if s.modes.mode = .proof then
    forEach engines (fun e t =>
      if (t.eng e).ctl.computing && (t.eng e).ctl.running then
        forEach (proofCells e n) (fun q u => u.setData e (fun d =>
          if q.cell.cls = .circuit then enqueueCircuit u.fabric.cMark q d else enqueuePacket u.fabric.pMark q d)) t
      else t) s
  else s

/-- Bits of a returned frame that differ from the proof pattern of frame `n`. -/
def proofErrors (n : Nat) (payload : List Byte) : Nat :=
  ((List.zipWith (fun a b => ((List.range 8).filter (fun i => (a ^^^ b).getLsbD i)).length) (proofOctets n) (fitTo 32 payload))).foldl
    (· + ·) 0

/-- The proof engine compares a returned frame with the cell that the latch sent three frames before (R140). -/
def compareProof (e : Eng) (c : Cell) (s : State) : State :=
  let n := s.pos.frames - (seqOf s.pos.frames - c.seq).toNat
  let p : Port := ⟨c.src % 32, Nat.mod_lt _ (by decide)⟩
  let from_ := max (s.modes.proofFrom + 3) (s.ports[p].hinge.boundary / 2048 + 18)
  if s.modes.proofOn && s.looped p && decide (from_ ≤ n) && decide (3 ≤ (s.eng e).ctl.computed) &&
      decide (3 ≤ (s.eng s.ports[p].latch.accepted).ctl.computed) then
    s.setEngTally e (fun t => { t with proofErr := t.proofErr + proofErrors (n - 3) c.payload })
  else s

/-- The cell that an engine built for a port. -/
def builtFor (s : State) (e : Eng) (d : Port) : Option Cell := (s.eng e).data.built.find? (fun c => c.dest == d.val)

/-- The bits an engine's generators write for every port for frame `q`, and the generators after them (R275). -/
def generateAll (e : Eng) (q : Nat) (s : State) : List (Port × List (Nat × Nat × Bool)) × State :=
  if (s.eng e).ctl.computing then
    allPorts.foldl (fun (acc : List (Port × List (Nat × Nat × Bool)) × State) p =>
      if acc.2.builds p then
        let (bs, t) := runGenerators e p ((q + 2) % 16 == 0) acc.2
        ((p, bs) :: acc.1, t)
      else acc) ([], s)
  else ([], s)

/-- The octets an engine's analyser compares for a frame: the input cell in PATTERN, where its status lets it be compared, and the
output cell in WATCH (R267, R277). DESIGN CHOICE (assumption 175): the status of the input cell of the definition's port is no test of
its output cell. DESIGN CHOICE (assumption 176): an engine that lost the input cell on its links compares it all the same. -/
def analysed (s : State) (e : Eng) (d : PatDef) : Option (List Byte) :=
  if s.modes.mode = .watch then (builtFor s e d.port).map (fun c => c.payload)
  else (s.ports[d.port].inCell).filter statusUp

/-- An engine's analysers take the bits of frame `q` (R277). In WATCH the framer's positions are those of the frame in which the
output cell would be sent. DESIGN CHOICE (assumption 177): in PATTERN TS16 of a CAS port is the framer's in the frame received as frame
0 of an aligned CAS multiframe, and in none while that is not aligned (R271). -/
def runAnalysers (e : Eng) (q : Nat) (s : State) : State :=
  if (s.eng e).ctl.computing then
    forEach all16 (fun i t =>
      if t.analyses i then
        let d := t.patDef i
        let x := t.ports[d.port]
        let cas0 := if t.modes.mode = .watch then (q + 2) % 16 == 0
          else match x.slip.lastRead with | some r => r.cas0 | none => false
        t.setPat e i (analyseFrame d ((analysed t e d).map (fun o => pickBits o (selected d x.line cas0))))
      else t) s
  else s

/-- One engine's work for frame `q`: its generators, its output stage and its analysers (R305). -/
def engineFrame (e : Eng) (q : Nat) (s : State) : State :=
  let (g, s1) := generateAll e q s
  let bits := fun d => match g.find? (fun x => x.1 == d) with | some x => x.2 | none => []
  runAnalysers e q (outputStage e q bits s1)

/-- The work of both engines for frame `q`. -/
def outputStages (q : Nat) (s : State) : State := forEach engines (fun e t => engineFrame e q t) s

/-! ### The output latches (R327 to R331) -/

/-- Cells of an engine at a latch. -/
def Latch.cellsOf (l : Latch) (e : Eng) : List OutCell :=
  match e with
  | .ex => l.cellsX
  | .ey => l.cellsY

/-- The cell of SEQ `q` of an engine. -/
def Latch.cell (l : Latch) (e : Eng) (q : BitVec 16) : Option OutCell := (l.cellsOf e).find? (fun c => c.seq == q)

/-- What a latch does for a frame. -/
inductive LatchAct where
  | accept (c : OutCell)
  | substitute (c : OutCell)
  | hold
  deriving DecidableEq, Repr

/-- The choice of a latch for SEQ `q` (R315, R316, R330, R331). -/
def latchAct (s : State) (p : Port) (q : BitVec 16) : LatchAct :=
  let l := s.ports[p].latch
  let d := dieOf p
  let a := l.accepted
  match eligible s d a, l.cell a q, eligible s d a.other, l.cell a.other q with
  | true, some c, _, _ => .accept c
  | true, none, true, some c => .substitute c
  | false, _, true, some c => .accept c
  | _, _, _, _ => .hold

/-- An eligible engine that should have sent a cell of frame `q` for this port has sent none (R328). -/
def cellMissing (s : State) (p : Port) (q : BitVec 16) (e : Eng) : Bool :=
  eligible s (dieOf p) e && (s.eng e).ctl.computing && decide (1 ≤ (s.eng e).ctl.computed) && s.builds p &&
    (s.ports[p].latch.cell e q).isNone

/-- A missing cell is evidence against the engine that did not send it (R328). -/
def noteMissing (p : Port) (q : BitVec 16) (s : State) : State :=
  forEach engines (fun e t => if cellMissing s p q e then t.setCtl e (fun c => { c with lateNow := true }) else t) s

/-- The cells a latch keeps at the start of a frame: those named, and on a line-timed port those of the frame in transmission
(R329). -/
def Latch.trim (keep : List (BitVec 16)) (x : PortSt) (l : Latch) : Latch :=
  let k := match x.hinge.role with | .lineTimed _ => x.tx.seq :: keep | _ => keep
  { l with cellsX := l.cellsX.filter (fun c => c.seq ∈ k), cellsY := l.cellsY.filter (fun c => c.seq ∈ k) }

/-- A latch consumes SEQ `q`; cells before it are dropped. DESIGN CHOICE (assumption 178): the mismatch that a substitution is charged
as carries a mask of ones, for the manual gives it none (R330). -/
def latchFrame (q : BitVec 16) (keep : List (BitVec 16)) (p : Port) (s0 : State) : State :=
  let s := noteMissing p q s0
  let x := s.ports[p]
  let used := latchUsed x
  let trim := Latch.trim keep x
  match latchAct s p q with
  | .accept c => s.setLatch p (fun l => { (trim l) with last := some c, held := if l.ais then l.held else 0 })
  | .substitute c =>
    let e := x.latch.accepted
    let s1 := s.setLatch p (fun l => { (trim l) with last := some c, held := if l.ais then l.held else 0 })
    let s2 := (s1.setCtl e (fun t => { t with lateNow := true })).setEngTally e.other (fun t =>
      { t with subst := satAdd 0xFFFFFFFF t.subst 1 })
    { s2 with duplex := { s2.duplex with mismatches := ⟨some p, q, 0xFFFFFFFF, some e⟩ :: s2.duplex.mismatches } }
  | .hold =>
    let s1 := s.setLatch p trim
    if used then
      let n := x.latch.held + 1
      let s2 := s1.setLatch p (fun l => { l with held := n, ais := l.ais || decide (64 < n) })
      { s2 with duplex := { s2.duplex with
          heldFrames := if n ≤ 64 then s2.duplex.heldFrames + 1 else s2.duplex.heldFrames
          aisFrames := if n ≤ 64 then s2.duplex.aisFrames else s2.duplex.aisFrames + 1 } }
    else s1

/-- A latch that sent AIS is done with it once its port is bypassed (R331). -/
def endLatchAis (p : Port) (s : State) : State :=
  let x := s.ports[p]
  if x.hinge.role = .bypassed ∧ x.hinge.seq = .idle then s.setLatch p (fun l => { l with ais := false, held := 0 }) else s

/-- ALARM_N stands while any latch holds or sends AIS (R331). -/
def latchAlarm (s : State) : State :=
  s.setAlarm .latch (allPorts.any (fun p =>
    latchUsed s.ports[p] && (decide (0 < s.ports[p].latch.held) || s.ports[p].latch.ais)))

/-- All latches take the cells of the frame `n - 2` for the frame `n` that begins (R27, R330). -/
def latchFrames (n : Nat) (s : State) : State :=
  let q := seqOf (n - 2)
  latchAlarm (forEach allPorts (fun p t => endLatchAis p (latchFrame q [q, seqOf (n - 1), seqOf n] p t)) s)

end Sys2Proof.Machine
end

