-- ==== Sys2Proof/Machine/Transmit.lean ====
section
/-! DEFINITION. What the transmitters send: generated framing (R194 to R198), passing frames with inserted slots (R132 to
R135, R222, R223), the selector of a protected pair (R247 to R251, R262, R263), line loops (R137), AIS (R511), and the
events LATCH_AIS, LATCH_FAILOVER, TAKEOVER, LINE_TIMED_FRAME_START and FRAME_WRITTEN_IN_LINE_TIME. -/

namespace Sys2Proof.Machine

/-! ### Carriage bits (R199, R200, R362, R363) -/

/-- What fills a port's carriage bits: its own bits, the partner channel's, or flags alone. -/
inductive CarriageUse where
  | none
  | stream
  | flags
  deriving DecidableEq, Repr

/-- The use of the carriage bits of a port (R362, R363). -/
def State.carriageUse (s : State) (p : Port) : CarriageUse :=
  if !s.partnerOn || !accessOpen s.ports[p] then .none
  else if s.partnerTx = some p then .stream
  else if p = s.fabric.port && s.passesThrough p then .flags
  else .none

/-- A flag, 0x7E, as bits (R198, R363). -/
def flagBits : List Bool := [false, true, true, true, true, true, true, false]

/-- Take `n` bits; `more` follows when those pending run out. -/
def takeBits (n : Nat) (more pend : List Bool) : List Bool × List Bool :=
  let l := if pend.length < n then pend ++ more else pend
  (l.take n, l.drop n)

/-- Bits of the port's own fill. -/
def fillBits (n : Nat) (rai : Bool) (t : TxSt) : List Bool × TxSt :=
  let pend := if t.fillRai = rai then t.fill else []
  let (b, r) := takeBits n (if rai then raiBits else flagBits) pend
  (b, { t with fill := r, fillRai := rai })

/-- Ticks from the beginning of a frame to bit `i` of its carriage: Sa4 is bit 4 of TS0 and Sa5 bit 5; the FDL bit is the F bit. -/
def carriageTick (c : Carriage) (i : Nat) : Nat :=
  match c with
  | .sa4 => 24
  | .sa58 => 32 + 8 * i
  | .fdl => 0

/-- The access point gives `n` bits to the frame that begins at tick `a`. The first bit of octet 0 leaves with its launch stamp
(R372). -/
def DieSt.giveBits (c : Carriage) (n a : Nat) (q : BitVec 8) (rest : List Bool) (d : DieSt) : DieSt :=
  match d.outLead with
  | some i =>
    if i < n then { d with outBits := rest, outLead := none, outStamp := some (a + carriageTick c i, q) }
    else { d with outBits := rest, outLead := some (i - n) }
  | none => { d with outBits := rest }

/-- The next `n` carriage bits of a port. DESIGN CHOICE (assumption 167): while the access point is closed, the rest of a frame in
transmission waits in it, and goes on when it opens; the manual says only that it stops. -/
def carriageBits (p : Port) (n : Nat) (u : CarriageUse) (s : State) : List Bool × State :=
  match u with
  | .stream =>
    let (b, r) := takeBits n flagBits (s.die (dieOf p)).outBits
    (b, s.setDie (dieOf p) (DieSt.giveBits s.partner.carriage n s.now s.time.qual r))
  | _ =>
    let (b, t) := fillBits n false s.ports[p].tx
    (b, s.setPort p (fun x => { x with tx := t }))

/-- Bits per NFAS frame of a carriage. -/
def carriageWidth (c : Carriage) : Nat := match c with | .sa58 => 4 | _ => 1

/-- Sa4 to Sa8 of an NFAS octet, in its bits 4 to 0, with the carriage bits put in. -/
def putSa (c : Carriage) (sa : Nat) (bits : List Bool) : Nat :=
  match c with
  | .sa4 => sa % 16 + 16 * b2n (bits.getD 0 false)
  | .sa58 => sa / 16 * 16 + 8 * b2n (bits.getD 0 false) + 4 * b2n (bits.getD 1 false) + 2 * b2n (bits.getD 2 false) +
      b2n (bits.getD 3 false)
  | .fdl => sa

/-! ### Extraction at the access point (R199, R200) -/

/-- The carriage bits of a received NFAS frame, or of a T1 frame with an FDL bit, in the order received: Sa4, or Sa5 to Sa8,
or the F bit. -/
def carriageOf (c : Carriage) (octets : List Byte) : List Bool :=
  let o := (byteAt octets 0).toNat
  match c with
  | .sa4 => [bitOf o 4]
  | .sa58 => [bitOf o 3, bitOf o 2, bitOf o 1, bitOf o 0]
  | .fdl => [fBit octets]

/-- Bits kept of a carriage at most: more than a frame of 256 octets fills with every zero inserted. -/
def carriageKept : Nat := 4096

/-- The access point extracts a bit at tick `a`; the first after a flag may be that of octet 0 of a frame (R372). -/
def DieSt.takeBit (a : Nat) (q : BitVec 8) (b : Bool) (d : DieSt) : DieSt :=
  let l := d.inBits
  let k := l ++ [b]
  { d with
    inBits := k.drop (k.length - carriageKept)
    inFirst := if l.drop (l.length - 8) == flagBits then some (a, q) else d.inFirst }

/-- The access point of the partner port takes the carriage bits of the frame just received, which ends at this tick (R199); while
the port is not aligned or in fallback it takes none, and what it had gathered is no frame (R200). -/
def extractCarriage (p : Port) (s : State) : State :=
  if s.partnerOn && p == s.fabric.port then
    let x := s.ports[p]
    match x.slip.history.head? with
    | some r =>
      let c := s.partner.carriage
      if !accessOpen x then s.setDie (dieOf p) (fun d => { d with inBits := [], inFirst := none })
      else if r.mf % 2 = 1 then
        s.setDie (dieOf p) (fun d => (carriageOf c r.octets).zipIdx.foldl (fun d b =>
          d.takeBit (s.now - 2048 + carriageTick c b.2) s.time.qual b.1) d)
      else s
    | none => s
  else s

/-! ### Generated framing -/

/-- The port's own receiver declares LOS, LOF or AIS (R195, R198). -/
def receiverDown (x : PortSt) : Bool := x.line.los || lofOf x || x.line.ais

/-- Multiframe frame number of position frame `n` on a grid-timed port (R194). -/
def gridFrameNo (fam : BitVec 4) (n : Nat) : Nat :=
  match framingOf fam with
  | .t1Esf => n % 24 + 1
  | .t1Sf => n % 12 + 1
  | _ => n % 16

/-- The CRC-4 MFAS bit of an NFAS frame below 12 (0b001011). -/
def mfasBit (m : Nat) : Bool := m == 5 || m == 9 || m == 11

/-- The E bit sent: 0 for an errored sub-multiframe, always 0 in fallback, always 1 while not aligned (R197). -/
def eBit (x : PortSt) (errored : Bool) : Bool :=
  match x.framer.crcMf with
  | .aligned => !errored
  | .fallback => false
  | _ => true

/-- Bit 1 of TS0 of E1 frame `m` (R195). -/
def e1Bit1 (x : PortSt) (m : Nat) : Bool :=
  if framingOf x.line.family != .e1Crc then true
  else if m % 2 = 0 then bitOf x.tx.check (3 - m % 8 / 2)
  else if m = 13 then eBit x x.tx.eFirst
  else if m = 15 then eBit x x.tx.eSecond
  else mfasBit m

/-- TS0 of E1 frame `m`, with Sa4 to Sa8 in the five low bits of `sa` (R195). -/
def e1Ts0 (x : PortSt) (m sa : Nat) : Byte :=
  if m % 2 = 0 then BitVec.ofNat 8 (128 * b2n (e1Bit1 x m) + 0x1B)
  else BitVec.ofNat 8 (128 * b2n (e1Bit1 x m) + 64 + 32 * b2n (receiverDown x) + sa)

/-- TS16 of CAS frame 0 (R195). -/
def casTs16 (x : PortSt) : Byte := BitVec.ofNat 8 (0x0B + 4 * b2n (!x.framer.casMf))

/-- The F bit that carries a check bit of ESF frame `m`: C1 in frame 2 to C6 in frame 22 (R189). -/
def esfCheckBit (check m : Nat) : Bool := bitOf check (5 - (m - 2) / 4)

/-- The robbed bits of a frame (R190, R222): `m` is the port's own superframe frame, `pl` the output cell's payload. -/
def robSlots (fr : Framing) (m : Nat) (pl octets : List Byte) : List Byte :=
  match robbedBit fr m with
  | none => octets
  | some b =>
    let mask := leField pl 32 4
    (List.range octets.length).map (fun n =>
      if bitOf mask n then
        setBit (byteAt octets n) 0 (bitOf (fieldOf (byteAt pl (36 + n / 2)).toNat (4 * (n % 2)) 4) b)
      else byteAt octets n)

/-- SF remote alarm: bit 2 of every channel is 0 (R198). -/
def sfAlarm (octets : List Byte) : List Byte := octets.take 1 ++ (octets.drop 1).map (fun o => o &&& 0xBF)

/-- An AIS frame. -/
def aisOctets (fam : BitVec 4) : List Byte :=
  if isT1 fam then (0x80 : Byte) :: (List.replicate 24 0xFF ++ zeros 7) else List.replicate 32 0xFF

/-- A frame whose content nothing has given yet: free values. -/
def freeFrame (s : State) : List Byte × State :=
  ((List.range 56).map (fun i => Config.freeByte (s.freeIdx + i)), { s with freeIdx := s.freeIdx + 56 })

/-- Frame `m` begins a checked block. -/
def beginsBlock (fam : BitVec 4) (m : Nat) : Bool := if isT1 fam then m == 1 else m % 8 == 0

/-- The bits of a frame from bit `i` on, which is sent at tick `start + i` bit periods, with ones in the spans of an AIS. -/
def onesIn (fam : BitVec 4) (t : TxSt) (octets : List Byte) : List Bool :=
  let n := frameBitCount fam
  (frameBitList fam octets).zipIdx.map (fun (b, i) =>
    let at_ := t.start + i * 2048 / n
    b || t.ones.any (fun w => decide (w.1 ≤ at_) && (match w.2 with | some e => decide (at_ < e) | none => true)))

/-- The bits of the frame being sent, as they leave the framer (R137, R511). -/
def TxSt.bits (fam : BitVec 4) (t : TxSt) : List Bool :=
  match t.octets with
  | some o => onesIn fam t o
  | none => []

/-- The bit periods in which the frame being sent reaches the line (R164). -/
def TxSt.pulses (fam : BitVec 4) (t : TxSt) : List Pulse := (encodeBits (lineCodeOf fam) t.coder (t.bits fam)).1

/-- The encoder goes on past the frame that was being sent (R164). -/
def TxSt.advance (fam : BitVec 4) (t : TxSt) : TxSt :=
  { t with coder := (encodeBits (lineCodeOf fam) t.coder (t.bits fam)).2 }

/-- A frame begins to be sent: what it is made of, whether it is AIS, and the tick of its first bit. -/
def TxSt.send (fam : BitVec 4) (octets : List Byte) (ais : Bool) (start : Nat) (t : TxSt) : TxSt :=
  { t.advance fam with octets := some octets, ais := ais, start := start }

/-- Turn to the next block where one begins: the check bits of the block just ended are sent in it. -/
def TxSt.turnBlock (t : TxSt) (fam : BitVec 4) (m : Nat) : TxSt :=
  if beginsBlock fam m then { t with check := checkOf fam t.block, block := [] } else t

/-- A grid-timed E1 frame begins: a block that begins takes the check bits of the one before it, and a multiframe the errors
found since the one before it (R195, R197). -/
def gridBegin (m : Nat) (x : PortSt) : PortSt :=
  let t := x.tx.turnBlock x.line.family m
  if m = 0 then
    { x with
      tx := { t with eFirst := x.framer.eBitFirst, eSecond := x.framer.eBitSecond }
      framer := { x.framer with eBitFirst := false, eBitSecond := false } }
  else { x with tx := t }

/-- One grid-timed E1 frame: the octets of slots 1 to 31 under generated framing. -/
def gridE1 (p : Port) (m : Nat) (oct : List Byte) (s : State) : State :=
  let s0 := s.setPort p (gridBegin m)
  let u := s0.carriageUse p
  let (sa, s1) :=
    if m % 2 = 1 ∧ u ≠ .none then
      let (b, t) := carriageBits p (carriageWidth s0.partner.carriage) u s0
      (putSa s0.partner.carriage 31 b, t)
    else (31, s0)
  let x := s1.ports[p]
  let o1 := e1Ts0 x m sa :: (fitTo 32 oct).drop 1
  let o := if x.line.cas && m == 0 then o1.set 16 (casTs16 x) else o1
  s1.setPort p (fun x =>
    { x with tx := { x.tx.send x.line.family o false s.now with block := x.tx.block ++ [uncheck x.line.family m o] } })

/-- An ESF port that begins to send RAI ends the channel's frame in transmission, whose bits give way to the RAI word, as with an abort; it
counts as sent ("Where things meet" of 14_partner_channel). -/
def raiCuts (p : Port) (s : State) : State :=
  if s.partnerOn && p == s.fabric.port && s.partner.carriage == .fdl && s.partner.out.isSome then cutChannel p s else s

/-- One grid-timed T1 frame: channels 1 to 24 under generated framing. -/
def gridT1 (p : Port) (m : Nat) (oct : List Byte) (s : State) : State :=
  let fam := s.ports[p].line.family
  let s0 := s.setPort p (fun x => { x with tx := x.tx.turnBlock fam m })
  let rai := receiverDown s0.ports[p]
  let (f, s1) :=
    match framingOf fam with
    | .t1Esf =>
      if m % 2 = 1 then
        if rai then
          let (b, t) := fillBits 1 true s0.ports[p].tx
          (b.getD 0 false, raiCuts p (s0.setPort p (fun x => { x with tx := t })))
        else
          let u := if s0.partner.carriage = Carriage.fdl then s0.carriageUse p else .none
          let (b, t) := carriageBits p 1 u s0
          (b.getD 0 false, t)
      else if m % 4 = 0 then ((expectedF .t1Esf m).getD false, s0)
      else (esfCheckBit s0.ports[p].tx.check m, s0)
    | fr => ((expectedF fr m).getD false, s0)
  let body := (fitTo 32 oct).drop 1
  let o1 := BitVec.ofNat 8 (128 * b2n f) :: body
  let o := if rai && framingOf fam == Framing.t1Sf then sfAlarm o1 else o1
  s1.setPort p (fun x =>
    { x with tx := { x.tx.send fam o false s.now with block := x.tx.block ++ [uncheck fam m o] } })

/-- A port whose insertion builds the stream of a grid-timed role, which is not sent before the takeover (R350). -/
def buildsGrid (x : PortSt) : Bool := x.hinge.role == .bypassed && x.hinge.inserting && x.hinge.target == .grid

/-- The frame that a grid-timed port sends, or builds, in position frame `n` (R26, R194, R222, R350). -/
def gridFrame (n : Nat) (p : Port) (s : State) : State :=
  let x := s.ports[p]
  if (x.hinge.role = .grid ∧ driving x) ∨ buildsGrid x then
    let fam := x.line.family
    let m := gridFrameNo fam n
    let (pl, s1) := match x.latch.last with
      | some c => (c.payload, s)
      | none => freeFrame s
    let s2 := s1.setPort p (fun y => { y with tx := { y.tx with mf := m, seq := seqOf (n - 2), cas0 := m == 0 } })
    if x.latch.ais then s2.setPort p (fun y => { y with tx := y.tx.send fam (aisOctets fam) true s.now })
    else
      let oct := robSlots (framingOf fam) m pl (fitTo 32 pl)
      if isT1 fam then gridT1 p m oct s2 else gridE1 p m oct s2
  else s

/-- In PROOF, what a port's latch accepted goes down its transmit data path, to be looped inside the die (R140). -/
def proofFrame (p : Port) (s : State) : State :=
  let x := s.ports[p]
  if s.looped p then
    s.setPort p (fun x => { x with tx := { x.tx with octets := x.latch.last.map (fun c => c.payload.take 32) } })
  else s

/-- Every grid-timed port's transmit frame begins (R26), and in PROOF that of every port that is bypassed. -/
def gridFrames (n : Nat) (s : State) : State :=
  let s1 := forEach allPorts (gridFrame n) s
  if s.modes.mode = .proof then forEach allPorts proofFrame s1 else s1

/-! ### Passing frames -/

/-- A received frame of a port by its number. -/
def Slip.frame (x : Slip) (n : Nat) : Option RxFrame := x.history.find? (fun f => f.number == n)

/-- Tick at which frame `n` of a line was complete, reckoned from the latest one where it has not been received. -/
def Slip.doneOf (x : Slip) (n : Nat) : Int :=
  match x.frame n with
  | some f => f.doneAt
  | none => match x.history with
    | f :: _ => (f.doneAt : Int) + ((n : Int) - f.number) * 2048
    | [] => 0

/-- Number of the received frame whose completion is nearest to tick `t`. -/
def Slip.nearest (x : Slip) (t : Int) : Nat :=
  match x.history with
  | [] => x.nextNo
  | f :: fs => (fs.foldl (fun (b : RxFrame) (g : RxFrame) =>
      if ((g.doneAt : Int) - t).natAbs < ((b.doneAt : Int) - t).natAbs then g else b) f).number

/-- The copy whose V bits of a page the port's line die holds (R223). -/
def State.vCopy (s : State) (pg : Nat) (d : Port) : Option Copy :=
  ((s.die (dieOf d)).vPages.find? (fun x => x.1 == pg)).map (fun x => x.2)

/-- Position `b` of the port's frame is inserted from a cell of page `pg`: its V bit is set, or that of the slot-start entry that
switches the whole slot (R108, R132, R223). -/
def insertedAt (s : State) (pg : Nat) (d : Port) (b : Nat) : Bool :=
  let fam := s.ports[d].line.family
  match s.vCopy pg d with
  | none => false
  | some c => wholeSlot s (destEntry s.image.flash c pg d (slotStart fam (slotOfPos fam b))) || (destEntry s.image.flash c pg d b).v

/-- The octet of slot `n` with the cell's bits at the inserted positions. -/
def insertSlot (s : State) (pg : Nat) (d : Port) (n : Nat) (passed cell : Byte) : Byte :=
  let start := slotStart s.ports[d].line.family n
  bitsOctet ((List.range 8).map (fun i =>
    if insertedAt s pg d (start + i) then bitOf cell.toNat (7 - i) else bitOf passed.toNat (7 - i)))

/-- A passing frame with its inserted slots from slot `lo` on (R132, R223); `cas0`: frame 0 of a CAS multiframe, whose TS16 is
the framer's on a CAS-enabled port (R196). -/
def insertFrom (s : State) (d : Port) (c : OutCell) (m lo : Nat) (cas0 : Bool) (octets : List Byte) : List Byte :=
  let l := s.ports[d].line
  let fam := l.family
  let cell := robSlots (framingOf fam) m c.payload (fitTo 32 c.payload)
  (List.range 32).map (fun n =>
    if lo ≤ n ∧ entrySlot fam n ∧ !framerMade l cas0 (slotStart fam n) then insertSlot s c.page d n (byteAt octets n) (byteAt cell n) else byteAt octets n)

/-- Octet-wise exclusive-OR. -/
def xorOctets (a b : List Byte) : List Byte := List.zipWith (fun x y => x ^^^ y) a b

/-- The check bit that frame `m` carries, by its place among the check bits; none where it carries none. -/
def checkPlace (fam : BitVec 4) (m : Nat) : Option Nat :=
  if isT1 fam then (if m % 4 = 2 then some (5 - (m - 2) / 4) else none)
  else if m % 2 = 0 then some (3 - m % 8 / 2) else none

/-- Compensate the check bit of a passing frame, and take its change into the block in progress (R134). -/
def compensate (fam : BitVec 4) (m : Nat) (rx sent : List Byte) (t : TxSt) : List Byte × TxSt :=
  let t1 := t.turnBlock fam m
  let out := match checkPlace fam m with
    | some i => (byteAt sent 0 ^^^ (if bitOf t1.check i then 0x80 else 0)) :: sent.drop 1
    | none => sent
  (out, { t1 with block := t1.block ++ [uncheckDiff fam m (xorOctets rx sent)] })

/-- Put the partner channel's bits into a passing frame (R134). -/
def passCarriage (p : Port) (m : Nat) (oct : List Byte) (s : State) : List Byte × State :=
  let fam := s.ports[p].line.family
  let u := s.carriageUse p
  if u = .none ∨ m % 2 = 0 then (oct, s)
  else if isT1 fam then
    if s.partner.carriage = .fdl ∧ framingOf fam = .t1Esf then
      let (b, t) := carriageBits p 1 u s
      ((setBit (byteAt oct 0) 7 (b.getD 0 false)) :: oct.drop 1, t)
    else (oct, s)
  else
    let (b, t) := carriageBits p (carriageWidth s.partner.carriage) u s
    let o := (byteAt oct 0).toNat
    (BitVec.ofNat 8 (o / 32 * 32 + putSa s.partner.carriage (o % 32) b) :: oct.drop 1, t)

/-- Number of the frame of a line that begins at tick `now`. -/
def Slip.beginning (x : Slip) (now : Nat) : Nat :=
  match x.history.head? with
  | some r => r.number + 1 + (now - r.doneAt + 1024) / 2048
  | none => x.nextNo

/-- The frame a line-timed port passes on next when it begins to pass line `t` now: the one received one multiframe ago (R133, R248,
R352). A pair's port sets its phase by the working line, or by the protect line's time while the working line is not aligned. -/
def firstPassed (s : State) (p t : Port) : Nat :=
  let lag := lagFrames s.ports[p].line.family
  let r := phaseLine s p t
  let n := s.ports[r].slip.beginning s.now - lag
  if r = t then n else s.ports[t].slip.nearest (s.ports[r].slip.doneOf n)

/-- An AIS frame takes the place of a frame (R250, R511). -/
def sendAis (p : Port) (s : State) : State :=
  s.setPort p (fun x =>
    { x with tx := { x.tx.send x.line.family (aisOctets x.line.family) true s.now with
        mf := nextFrameNo x.line.family x.tx.mf, block := [], check := 0 } })

/-- A passing port sends received frame `r` of line `t` (R133, R134, R247). A change is compensated in every frame whose blocks
were checked as it was received, also when alignment has been lost since. -/
def passFrame (p : Port) (r : RxFrame) (s : State) : State :=
  let x := s.ports[p]
  let fam := x.line.family
  let ins := match x.hinge.content, x.latch.last with
    | .through, some c => insertFrom s p c r.mf 0 r.cas0 r.octets
    | _, _ => r.octets
  let (oct, s1) := passCarriage p r.mf ins s
  let (out, tx) := if r.chk then compensate fam r.mf r.octets oct s1.ports[p].tx
    else (oct, s1.ports[p].tx)
  s1.setPort p (fun x =>
    { x with tx := { tx.send fam out false s.now with mf := r.mf, cas0 := r.cas0, seq := seqOf (s.pos.frames - 2) } })

/-- The transmit slip of a THROUGH port: the inserted slots of position frame `q` follow those of frame `lastQ`
(R135, R204). -/
def transmitSlip (p : Port) (q : Nat) (s : State) : State :=
  let x := s.ports[p]
  let note := fun (i : Fin 19) (s : State) => s.setPort p (fun x =>
    { x with raw := x.raw.note i 1, slip := { x.slip with slipTurn := true } })
  let s1 := match x.slip.lastQ with
    | none => s
    | some q0 => if q ≤ q0 then note 16 s else if q0 + 2 ≤ q then note 17 s else s
  s1.setSlip p (fun y => { y with lastQ := some q })

/-! ### The selector (R251, R262, R263) -/

/-- The selection word that a line die holds for a pair. -/
def DieSt.word (d : DieSt) (g : PairId) : Option Bool := (d.words.find? (fun w => w.1 == g)).map (fun w => w.2)

/-- Ticks of `d` bits on a line (R7, R151). -/
def bitTicks (fam : BitVec 4) (d : Int) : Int := if isT1 fam then d * 2048 / 193 else d * 8

/-- A changed selection takes effect at an output frame boundary of the working port (R262, R263); the answer says
whether the frame is sent as all ones. Without a confirmed offset the new line's frames follow by frame alignment: on E1 the nearest in
time, on T1 at the offset that superframe alignment gives. -/
def takeSelection (p : Port) (s : State) : Bool × State :=
  let g := pairOf p
  let pr := s.pairs[g]
  match (s.die (dieOf p)).word g with
  | some w =>
    if pr.running && w != pr.protect && p == workPort g then
      let old := s.selectedPort g
      let new := partnerPort old
      let hitless := s.ports[old].framer.aligned && s.ports[new].framer.aligned && pr.conf
      let n := s.ports[p].slip.nextOut.getD 0
      let d := if hitless || isT1 s.ports[p].line.family then bitTicks s.ports[p].line.family pr.d else 0
      let at_ := s.ports[old].slip.doneOf n + (if w then d else -d)
      let m := s.ports[new].slip.nearest at_
      let s1 := s.setPair g (fun x => { x with protect := w })
      let s2 := s1.setPort p (fun x =>
        { x with
          hinge := { x.hinge with role := .lineTimed new }
          slip := { x.slip with nextOut := some (if hitless then m else m + 1) } })
      (!hitless, captureEvent p (if w then 7 else 8) s2)
    else (false, s)
  | none => (false, s)

/-- The alignment buffer keeps the delay within 8 frames of the lag (R251): the frame to send, after any slip. -/
def windowSlip (p t : Port) (s : State) : State :=
  let x := s.ports[p]
  let lag := lagFrames x.line.family
  match x.slip.nextOut with
  | none => s
  | some n =>
    let begun := s.ports[t].slip.doneOf n - 2048
    let delay := (s.now : Int) - begun
    let slip := fun (i : Fin 19) (m : Nat) (s : State) =>
      (s.setPort p (fun x =>
        { x with raw := x.raw.note i 1, slip := { x.slip with nextOut := some m, slipTurn := true } })).setPair (pairOf p)
        (fun g => { g with slip := true })
    if delay < ((lag : Int) - 8) * 2048 then slip 16 (n - 1) s
    else if ((lag : Int) + 8) * 2048 < delay then slip 17 (n + 1) s
    else s

/-- The frame due on a line-timed port is sent: its delayed frame, or AIS for an interval received in LOS, LOF or AIS, or
received not at all (R250, R511), or from a latch that sends AIS (R331). Once a line is received again the frame due is the one of a
multiframe ago. -/
def sendPassed (p t : Port) (s : State) : State :=
  let x := s.ports[p]
  let n := x.slip.nextOut.getD (firstPassed s p t)
  let s1 := s.setSlip p (fun y => { y with nextOut := some (n + 1) })
  match s.ports[t].slip.frame n with
  | none => sendAis p s1
  | some r =>
    if r.bad || (x.latch.ais && x.hinge.content == .through) then sendAis p s1 else passFrame p r s1

/-- A transmitted frame of a line-timed port begins (R135, R262). -/
def lineTimedFrame (p : Port) (s : State) : State :=
  let x := s.ports[p]
  match x.hinge.role, x.hinge.content with
  | .lineTimed _, .selected =>
    if driving x then
      let (ones, s1) := takeSelection p s
      let t := match s1.ports[p].hinge.role with | .lineTimed t => t | _ => p
      if ones then sendAis p s1 else sendPassed p t (windowSlip p t s1)
    else s
  | .lineTimed t, .through =>
    if driving x then sendPassed p t (transmitSlip p (s.pos.frames - 2) s) else s
  | .lineTimed t, .pass => if driving x then sendPassed p t s else s
  | _, _ => s

/-! ### Line loops (R137, R511) -/

/-- The spans of AIS that reach past a tick. -/
def onesPast (at_ : Nat) (l : List (Nat × Option Nat)) : List (Nat × Option Nat) :=
  l.filter (fun w => match w.2 with | some e => decide (at_ < e) | none => true)

/-- The line-looped partner of a port sends each bit 32 bit periods after its receipt (R137): of the frame whose last bit has
just been received, it has sent all but the last 32 bits, from `loopDelay` after the frame began. Bits received in LOS, LOF
or AIS leave as ones (R511), whether or not frames come. -/
def loopBack (p : Port) (s : State) : State :=
  let q := partnerPort p
  if loopsBack s p ∧ s.ports[p].line.running then
    match s.ports[p].slip.history.head? with
    | some r =>
      let at_ := r.doneAt + loopDelay s.ports[p].line.family - 2048
      s.setPort q (fun x =>
        { x with tx :=
            let t := { x.tx.send x.line.family r.octets false at_ with mf := r.mf }
            { t with ones := onesPast at_ t.ones } })
    | none => s
  else s

/-! ### Takeover (R350 to R353) -/

/-- The change that the downstream equipment saw in frame `n`, which it received once live, one lag later, and whose
place in the multiframe the delayed frame takes (R352). -/
def liveDiff (x : PortSt) (lag n : Nat) : List Byte :=
  match x.slip.frame (n + lag), x.slip.frame n with
  | some a, some b => uncheckDiff x.line.family b.mf (xorOctets a.octets b.octets)
  | _, _ => zeros 32

/-- The block in progress at a takeover, and the check bits of the block before it (R352); where the first frame passed begins a block,
the one before it is still to be checked. -/
def takeoverBlock (x : PortSt) (n : Nat) (t : TxSt) : TxSt :=
  let fam := x.line.family
  let lag := lagFrames fam
  let m := match x.slip.frame n with | some r => r.mf | none => 0
  let into := if isT1 fam then m - 1 else m % 8
  let len := if isT1 fam then 24 else 8
  let diffs := fun (lo cnt : Nat) => (List.range cnt).map (fun i => liveDiff x lag (lo + i))
  if into = 0 then { t with block := diffs (n - len) len, check := 0 }
  else { t with block := diffs (n - into) into, check := checkOf fam (diffs (n - into - len) len) }

/-- TAKEOVER (R350 to R353), at the boundary of R351: the transmitter leaves follow drive and sends the new role's stream: of a
grid-timed role the one it has built since the insertion began, whose frame of this boundary has just begun; of a line loop what its
partner's line has brought. -/
def doTakeover (p : Port) (s : State) : State :=
  let h := s.ports[p].hinge
  if h.seq = .terminated ∧ takeoverDue s p = true then
    let s1 := s.setPort p (fun x =>
      { x with
        hinge := { x.hinge with seq := .idle, role := h.target }
        line := { x.line with tx := .drive }
        latch := { x.latch with held := 0, ais := false }
        tx := if h.target = .grid then { x.tx with follow := [] } else { TxSt.silent with start := s.now } })
    match h.target with
    | .lineTimed t =>
      if h.content = .lineLoop then followLoop t (loopBack t s1)
      else
        let n := firstPassed s p t
        let s2 := s1.setSlip p (fun x => { x with nextOut := some n, lastQ := none })
        if t = p ∧ blocksChecked s.ports[p] then
          s2.setPort p (fun x => { x with tx := takeoverBlock s.ports[p] n x.tx })
        else s2
    | .grid | .bypassed => s1
  else s

/-! ### Fail-over and AIS at a latch -/

/-- The first slot of the frame in transmission that begins at or after `elapsed` ticks from its start (R329). -/
def nextSlot (fam : BitVec 4) (elapsed : Nat) : Nat :=
  let bits := if isT1 fam then 193 else 256
  ((List.range 32).find? (fun n => decide (elapsed * bits ≤ slotStart fam n * 2048))).getD 32

/-- The block in progress with the change of its latest frame (R195, R198). -/
def TxSt.changeLast (fam : BitVec 4) (old new : List Byte) (t : TxSt) : List (List Byte) :=
  match t.block.getLast? with
  | some b => t.block.dropLast ++ [xorOctets b (uncheckDiff fam t.mf (xorOctets old new))]
  | none => []

/-- The rest of the frame in transmission comes from another cell of the same SEQ (R329). -/
def overlay (p : Port) (c : OutCell) (s : State) : State :=
  let x := s.ports[p]
  let fam := x.line.family
  match x.tx.octets with
  | none => s
  | some old =>
    let lo := max 1 (nextSlot fam (s.now - x.tx.start))
    let new := match x.hinge.content with
      | .through => insertFrom s p c x.tx.mf lo x.tx.cas0 old
      | _ =>
        let cell := robSlots (framingOf fam) x.tx.mf c.payload (fitTo 32 c.payload)
        (List.range 32).map (fun n =>
          if lo ≤ n ∧ !framerMade x.line x.tx.cas0 (slotStart fam n) then byteAt cell n else byteAt old n)
    let out := if receiverDown x && framingOf fam == .t1Sf && x.hinge.content != .through then sfAlarm new else new
    s.setPort p (fun x => { x with tx := { x.tx with octets := some out, block := x.tx.changeLast fam old out } })

/-- LATCH_FAILOVER (R315, R329): the latch changes to the engine of higher effective claim. What it gave of a frame still to be sent, and
the rest of the frame in transmission, come from that engine's cells of the same SEQ. -/
def failOver (p : Port) (s : State) : State :=
  match preferred s p with
  | none => s
  | some e =>
    let x := s.ports[p]
    if e = x.latch.accepted then s
    else
      let s1 := s.setLatch p (fun l =>
        { l with accepted := e, last := l.last.map (fun c => (l.cell e c.seq).getD c) })
      if latchUsed x && driving x && !x.tx.ais then
        match x.latch.cell e x.tx.seq with
        | some c => overlay p c s1
        | none => s1
      else s1

/-- LATCH_AIS (R331): a hold that has lasted 64 frames turns into AIS. -/
def latchAis (p : Port) (s : State) : State :=
  let x := s.ports[p]
  if latchUsed x && decide (64 ≤ x.latch.held) && !x.latch.ais then
    let s1 := (s.setLatch p (fun l => { l with ais := true })).raise .latch
    if driving x then
      s1.setPort p (fun x => { x with tx := { x.tx with octets := some (aisOctets x.line.family), ais := true } })
    else s1
  else s

def execLatchAis (p : Port) (k : Tick) (s : State) : Host.Outcome State Fault Refusal := .next (latchAis p (atTick k s))

def execLatchFailover (p : Port) (k : Tick) (s : State) : Host.Outcome State Fault Refusal :=
  .next (failOver p (atTick k s))

def execTakeover (p : Port) (k : Tick) (s : State) : Host.Outcome State Fault Refusal :=
  .next (doTakeover p (atTick k s))

def execLineTimedFrameStart (p : Port) (k : Tick) (s : State) : Host.Outcome State Fault Refusal :=
  .next (lineTimedFrame p (atTick k s))

/-- The octets of a received frame as the decoder of its port gives them (R165). -/
def rxOctets (x : PortSt) (w : RxPulses) : List Byte :=
  frameOctets (isT1 x.line.family) (rxBits (lineCodeOf x.line.family) w)

/-- In follow drive the transmitter reproduces every bit period of its receive pair, pulse for pulse, violations and framing with it, and
sends nothing where there is none (R348). -/
def followDrive (p : Port) (l : List Pulse) (s : State) : State :=
  if s.ports[p].line.tx = .follow then s.setPort p (fun x => { x with tx := { x.tx with follow := l } }) else s

/-- FRAME_WRITTEN_IN_LINE_TIME (R137, R165, R199, R201): the decoded frame is in the slip buffers, its carriage bits at the access point,
and a line loop returns it. -/
def frameWritten (p : Port) (w : RxPulses) (s : State) : State :=
  loopBack p (extractCarriage p (writeFrame p (rxOctets s.ports[p] w) (followDrive p w.frame s)))

end Sys2Proof.Machine
end

