-- ==== Sys2Proof/Machine/Cells.lean ====
section
/-! DEFINITION. Cells as they arrive (08_slot_fabric, and the rally cells and beats of 12_duplicate_engines): header check,
resequencers, multicast copies, the packet class, output cells at the latches, rally checks, beats and lane lock. -/

namespace Sys2Proof.Machine

/-! ### Resequencers (R215, R240) -/

/-- Distance of a SEQ above another, mod 65 536. -/
def seqAbove (a b : BitVec 16) : Nat := (a - b).toNat

/-- A SEQ lies below another. -/
def seqBelow (a b : BitVec 16) : Bool := decide (32768 ≤ seqAbove a b)

/-- Hold a cell in SEQ order. -/
def insertHeld (next : BitVec 16) (h : HeldCell) : List HeldCell → List HeldCell
  | [] => [h]
  | g :: l => if seqAbove h.cell.seq next < seqAbove g.cell.seq next then h :: g :: l else g :: insertHeld next h l

/-- Release what follows without a gap. -/
def drainHeld : List HeldCell → BitVec 16 → List Cell × List HeldCell × BitVec 16
  | [], n => ([], [], n)
  | g :: l, n =>
    if g.cell.seq = n then
      let (r, h, m) := drainHeld l (n + 1)
      (g.cell :: r, h, m)
    else ([], g :: l, n)

/-- What a resequencer does with an arriving cell: it is late, or some cells are released in SEQ order. -/
structure Reseq where
  late     : Bool
  released : List Cell
  flow     : FlowSt
  deriving DecidableEq, Repr

/-- A cell arrives at its flow (R215). -/
def FlowSt.arrive (c : Cell) (now : Nat) (f : FlowSt) : Reseq :=
  if seqBelow c.seq f.next then ⟨true, [], f⟩
  else if c.seq = f.next then
    let (r, h, n) := drainHeld f.held (f.next + 1)
    ⟨false, c :: r, { f with next := n, held := h }⟩
  else ⟨false, [], { f with held := insertHeld f.next ⟨c, now⟩ f.held }⟩

/-- Cells of a flow that have waited 32 ticks are released, with all of lower SEQ (R215). -/
def FlowSt.expire (now : Nat) (f : FlowSt) : Reseq :=
  match (f.held.filter (fun h => decide (h.at_ + 32 ≤ now))).getLast? with
  | none => ⟨false, [], f⟩
  | some t =>
    let top := seqAbove t.cell.seq f.next
    let out := (f.held.filter (fun h => decide (seqAbove h.cell.seq f.next ≤ top))).map (fun h => h.cell)
    let rest := f.held.filter (fun h => decide (top < seqAbove h.cell.seq f.next))
    let (r, h, n) := drainHeld rest (t.cell.seq + 1)
    ⟨false, out ++ r, { f with next := n, held := h }⟩

/-- A flow that has seen no cell begins with its first cell; of a packet frame, with the frame's first cell, which lies at
most four below (R212, R237). -/
def newFlow (c : Cell) : FlowSt :=
  ⟨flowOf c, if c.cls = .packet && (c.frag == 0 || c.frag == 2) && decide (4 ≤ c.seq.toNat) then c.seq - 4
    else if c.cls = .packet && (c.frag == 0 || c.frag == 2) then 0 else c.seq, []⟩

/-- The flow of a cell among those of a receiver. -/
def flowFor (l : List FlowSt) (c : Cell) : FlowSt := (l.find? (fun f => f.flow == flowOf c)).getD (newFlow c)

/-- Put a flow back. -/
def putFlow (f : FlowSt) (l : List FlowSt) : List FlowSt := f :: l.filter (fun g => g.flow != f.flow)

/-- The resequencer flows of a receiver. -/
def State.flowsAt (s : State) (r : Receiver) : List FlowSt :=
  match r with
  | .engine e _ | .engineKeeper e => (s.eng e).data.flows
  | .line d .ex => (s.die d).flowsX
  | .line d .ey => (s.die d).flowsY
  | .keeper .ex => s.duplex.flowsX
  | .keeper .ey => s.duplex.flowsY

/-- Set the resequencer flows of a receiver. -/
def State.setFlows (s : State) (r : Receiver) (l : List FlowSt) : State :=
  match r with
  | .engine e _ | .engineKeeper e => s.setData e (fun d => { d with flows := l })
  | .line d .ex => s.setDie d (fun x => { x with flowsX := l })
  | .line d .ey => s.setDie d (fun x => { x with flowsY := l })
  | .keeper .ex => { s with duplex := { s.duplex with flowsX := l } }
  | .keeper .ey => { s with duplex := { s.duplex with flowsY := l } }

/-- The engine at one end of every link. -/
def recvEng : Receiver → Eng
  | .engine e _ | .engineKeeper e | .line _ e | .keeper e => e

/-! ### The input stage: circuit cells (R218, R224, R230) -/

/-- An input cell is released to the input stage: its copies enter the circuit VOQs, whether or not the engine computes output cells
(R218). In PROOF that of a looped port goes to the proof engine (R140). -/
def inputStage (e : Eng) (c : Cell) (s : State) : State :=
  let src : Port := ⟨c.src % 32, Nat.mod_lt _ (by decide)⟩
  if s.looped src then compareProof e c s
  else if c.src < 32 then
    let (cp, pg) := pageFor s (s.eng e).data c.seq
    forEach (copiesOf s cp pg src c) (fun k t =>
      t.setData e (enqueueCircuit s.fabric.cMark ⟨src, ⟨k.dest % 32, Nat.mod_lt _ (by decide)⟩, k⟩)) s
  else s

/-! ### The packet class (R236 to R242) -/

/-- The port whose VOQ a packet cell uses: both its input and its output (R228). -/
def packetPort (c : Cell) : Port :=
  if c.src < 32 then ⟨c.src % 32, Nat.mod_lt _ (by decide)⟩ else ⟨c.dest % 32, Nat.mod_lt _ (by decide)⟩

/-- The cell is the first, or the last, of its frame (R210). -/
def Cell.isFirst (c : Cell) : Bool := c.frag == 1 || c.frag == 3
def Cell.isLast (c : Cell) : Bool := c.frag == 2 || c.frag == 3

/-- Room for one more packet cell in a VOQ (R231). -/
def admits (d : EngData) (p : Port) : Bool :=
  decide (occ d.packet p p < 2) || decide (poolUse d.packet < 3008)

/-- The frame of a flow that is still being received. -/
def openFrame (d : EngData) (w : Flow) : Option PacketFrame := d.frames.find? (fun f => f.flow == w && !f.complete)

/-- Change the frame of a flow that is still being received. -/
def mapOpen (w : Flow) (f : PacketFrame → PacketFrame) : List PacketFrame → List PacketFrame
  | [] => []
  | x :: l => if x.flow == w && !x.complete then f x :: l else x :: mapOpen w f l

/-- Set BT on the last cell of a flow in the queue (R239, R242). -/
def markTail (w : Flow) (l : List QCell) : List QCell :=
  match (l.reverse.find? (fun q => flowOf q.cell == w)) with
  | none => l
  | some t => l.map (fun q => if q == t then { q with cell := { q.cell with bt := true } } else q)

/-- A frame ends short: BT on the last cell it has in the queue, and nothing more of it is taken (R240, R242). -/
def cutFrame (e : Eng) (w : Flow) (s : State) : State :=
  match openFrame (s.eng e).data w with
  | none => s
  | some f =>
    if f.discard then s
    else
      s.setData e (fun d =>
        { d with packet := markTail w d.packet, frames := mapOpen w (fun x => { x with discard := true, gap := true }) d.frames })

/-- Drop the cells of the open frame of a flow that are in the queue (R239). -/
def dropOpen (w : Flow) (n : Nat) (l : List QCell) : List QCell :=
  let mine := l.filter (fun q => flowOf q.cell == w)
  let keep := mine.take (mine.length - n)
  l.filter (fun q => flowOf q.cell != w || keep.contains q)

/-- Cells that a frame of these octets fills. -/
def cellsOfOctets (n : Nat) : Nat := ceilDiv n 56

/-- The frame of a flow is done with: remove it from the list. -/
def forgetOpen (w : Flow) (l : List PacketFrame) : List PacketFrame :=
  l.filter (fun f => !(f.flow == w && !f.complete))

/-- The open frame of a flow is done with: it is kept until the last of its cells has left the queue. -/
def endOpen (w : Flow) (d : EngData) : EngData :=
  match openFrame d w with
  | none => d
  | some f =>
    let queued := !f.octets.isEmpty && d.packet.any (fun q => flowOf q.cell == w)
    { d with frames := if queued then mapOpen w (fun x => { x with complete := true }) d.frames else forgetOpen w d.frames }

/-- The rest of the open frame of a flow is discarded; with its last cell it is done with (R242). -/
def discardOpen (w : Flow) (last : Bool) (d : EngData) : EngData :=
  if last then endOpen w d else { d with frames := mapOpen w (fun x => { x with discard := true }) d.frames }

/-- A cell of a packet frame that is being taken is admitted to its VOQ, and its FCS checked at its end (R231, R239). A cell of a frame
cut short by a gap, or without a beginning, is discarded (R240). -/
def takePacket (e : Eng) (c : Cell) (s : State) : State :=
  let w := flowOf c
  let p := packetPort c
  let d := (s.eng e).data
  match openFrame d w with
  | none => s
  | some f =>
    if f.discard then
      let s1 := if f.gap then s else countSelect e .dropped 1 c s
      if c.isLast then s1.setData e (endOpen w) else s1
    else if admits d p then
      let oct := f.octets ++ c.payload.take c.len
      let bad := c.isLast && !fcsGood oct
      if bad && !f.cut then
        let s1 := countSelect e .badTail 1 c s
        s1.setData e (fun d =>
          { d with packet := dropOpen w (cellsOfOctets f.octets.length) d.packet, frames := forgetOpen w d.frames })
      else
        let c1 := { c with cm := c.cm || f.cm, bt := c.bt || bad }
        let s1 := if f.cm then countSelect e .marked 1 c1 s else s
        let s2 := if bad then countSelect e .badTail 1 c1 s1 else s1
        s2.setData e (fun d =>
          let d1 := { d with frames := mapOpen w (fun x => { x with octets := oct, complete := c.isLast }) d.frames }
          enqueuePacket s.fabric.pMark ⟨p, p, c1⟩ d1)
    else
      let s1 := countSelect e .dropped 1 c s
      if c.isFirst then
        s1.setData e (discardOpen w c.isLast)
      else
        let s2 := countSelect e .badTail 1 c s1
        s2.setData e (fun d => discardOpen w c.isLast { d with packet := markTail w d.packet })

/-- A transmitter still holds, or sends, a packet cell for a destination. -/
def Lane.carries (l : Lane) (dest : Nat) : Bool :=
  l.fifo.any (fun c => c.cls == .packet && c.dest == dest) || l.now.any (fun c => c.cls == .packet && c.dest == dest)

/-- A resequencer holds a packet cell for a destination. -/
def heldFor (l : List FlowSt) (dest : Nat) : Bool := l.any (fun f => f.flow.cls == .packet && f.flow.dest == dest && !f.held.isEmpty)

/-- The delivery point of a flow is idle: no packet frame queued for it in this engine, none on its links, none being sent at its
access point (R238). -/
def deliveryIdle (s : State) (e : Eng) (c : Cell) : Bool :=
  let d := (s.eng e).data
  !(d.frames.any (fun f => f.flow.dest == c.dest)) &&
    (if c.dest = 32 then !d.toKeeper.carries 32 && !heldFor (match e with | .ex => s.duplex.flowsX | .ey => s.duplex.flowsY) 32 &&
        !s.partner.inOpen
     else
      let x := s.die (dieOf (packetPort c))
      !((x.links e).toList.any (fun k => k.down.carries c.dest)) && !heldFor (match e with | .ex => x.flowsX | .ey => x.flowsY) c.dest &&
        !x.outOpen && x.outBits.isEmpty)

/-- A packet cell is released to the input stage: the first of a frame is looked up (R238, R241). -/
def packetStage (e : Eng) (c : Cell) (s : State) : State :=
  if !(s.eng e).ctl.computing then s
  else if c.isFirst then
    let s0 := match openFrame (s.eng e).data (flowOf c) with
      | some f =>
        let t := if f.discard then s else countSelect e .badTail 1 c (cutFrame e (flowOf c) s)
        t.setData e (endOpen (flowOf c))
      | none => s
    let p := packetPort c
    let full := decide (s0.fabric.depth ≤ occ (s0.eng e).data.packet p p)
    let cut := deliveryIdle s0 e c && c.dest != 32
    let f : PacketFrame :=
      { flow := flowOf c, cut := cut, discard := full && !s0.fabric.mark, gap := false, complete := false, octets := [],
        cm := full && s0.fabric.mark }
    takePacket e c (s0.setData e (fun d => { d with frames := d.frames ++ [f] }))
  else takePacket e c s

/-- A gap in a packet flow cuts the frame in receipt short (R240). -/
def packetGap (e : Eng) (w : Flow) (c : Cell) (s : State) : State :=
  match openFrame (s.eng e).data w with
  | some f => if f.discard then s else countSelect e .badTail 1 c (cutFrame e w s)
  | none => s

/-- Release packet cells in order to where they are taken; a break in their numbers is a gap (R240). -/
def packetRelease (gap take : Cell → State → State) : List Cell → BitVec 16 → State → State
  | [], _, s => s
  | c :: l, next, s =>
    let s1 := if c.seq = next then s else gap c s
    packetRelease gap take l (c.seq + 1) (take c s1)

/-! ### Delivery of packet cells -/

/-- Octets as bits, least significant first, with zero-bit insertion (R237, R363). -/
def stuffBits : Nat → List Bool → List Bool
  | _, [] => []
  | ones, true :: l => if ones = 4 then true :: false :: stuffBits 0 l else true :: stuffBits (ones + 1) l
  | _, false :: l => false :: stuffBits 0 l

/-- Ones at the end of bits sent, since the latest zero sent or inserted. -/
def onesAfter : Nat → List Bool → Nat
  | n, [] => n
  | n, true :: l => onesAfter (if n = 4 then 0 else n + 1) l
  | _, false :: l => onesAfter 0 l

/-- The bits of octets, the least significant first (R363). -/
def lsbBits (octets : List Byte) : List Bool := octets.flatMap (fun o => (List.range 8).map (fun i => bitOf o.toNat i))

/-- A frame begins at the access point, with its opening flag. -/
def DieSt.openFrame (x : DieSt) : DieSt :=
  { x with
    outBits := x.outBits ++ flagBits, outOpen := true, outMade := 8, outOnes := 0, outLead := some (x.outBits.length + 8)
    outStamp := none }

/-- Octets of the open frame follow, with zero-bit insertion. -/
def DieSt.addOctets (octets : List Byte) (x : DieSt) : DieSt :=
  let b := stuffBits x.outOnes (lsbBits octets)
  { x with outBits := x.outBits ++ b, outMade := x.outMade + b.length, outOnes := onesAfter x.outOnes (lsbBits octets) }

/-- The open frame ends with its closing flag. -/
def DieSt.closeFrame (x : DieSt) : DieSt := { x with outBits := x.outBits ++ flagBits, outOpen := false, outMade := 0, outOnes := 0 }

/-- The open frame ends badly: with an abort of seven ones when its sending has begun, and otherwise it is discarded (R239). -/
def DieSt.abortFrame (x : DieSt) : DieSt :=
  if !x.outOpen then x
  else
    { x with
      outBits := if x.outBits.length < x.outMade then x.outBits ++ List.replicate 7 true else x.outBits.take (x.outBits.length - x.outMade)
      outOpen := false, outMade := 0, outOnes := 0
      outLead := if x.outBits.length < x.outMade then x.outLead else none }

/-- A packet cell reaches the access point of a line die (R236, R237, R239): its octets are sent as it comes; a cell of a frame that
has no beginning here is discarded (R240). On a port that cannot transmit nothing is inserted, and the frame is discarded
("Where things meet" of 08_slot_fabric). -/
def accessPoint (d : LineDie) (e : Eng) (c : Cell) (s : State) : State :=
  let p : Port := ⟨c.dest % 32, Nat.mod_lt _ (by decide)⟩
  if s.ports[p].latch.accepted != e then s
  else if s.partnerTx.isNone then countSelect e .dropped 1 c (s.setDie d DieSt.abortFrame)
  else s.setDie d (fun x =>
    let y := if c.isFirst then x.abortFrame.openFrame else x
    if !y.outOpen then y
    else
      let z := y.addOctets (c.payload.take c.len)
      if c.bt then z.abortFrame else if c.isLast then z.closeFrame else z)

/-- A cell of the frame in receipt at the access point is missing (R240). -/
def accessGap (d : LineDie) (e : Eng) (c : Cell) (s : State) : State :=
  let p : Port := ⟨c.dest % 32, Nat.mod_lt _ (by decide)⟩
  if s.ports[p].latch.accepted == e && (s.die d).outOpen then countSelect e .badTail 1 c (s.setDie d DieSt.abortFrame) else s

/-- KP discards the frame in receipt. -/
def dropInbound (s : State) : State := { s with partner := { s.partner with inOctets := [], inOpen := false } }

/-- A packet cell reaches KP from the engine that leads (R236, R239). -/
def keeperCell (e : Eng) (c : Cell) (s : State) : State :=
  if s.leadEng != e || !(c.isFirst || s.partner.inOpen) then s
  else if c.bt then dropInbound s
  else
    let oct := (if c.isFirst then [] else s.partner.inOctets) ++ c.payload.take c.len
    { s with partner := { s.partner with inOctets := oct, inOpen := !c.isLast } }

/-- A cell of the frame in receipt at KP is missing (R240). -/
def keeperGap (e : Eng) (c : Cell) (s : State) : State :=
  if s.leadEng == e && s.partner.inOpen then countSelect e .badTail 1 c (dropInbound s) else s

/-! ### Output cells at a latch (R221, R227, R327) -/

/-- The mask of differing octets of two output cells (R327). -/
def diffMask (a b : OutCell) : BitVec 32 :=
  maskOf 32 (fun n => byteAt a.payload n != byteAt b.payload n ||
    (n == 31 && (a.seq != b.seq || a.page != b.page || a.payload.drop 32 != b.payload.drop 32)))

/-- Both engines' cells are compared at the latches of a die (R327). -/
def compares (s : State) (d : LineDie) : Bool :=
  engines.all (fun e => eligible s d e && (s.eng e).ctl.computing)

/-- An output cell reaches its latch. -/
def latchCell (d : LineDie) (e : Eng) (c : Cell) (s : State) : State :=
  if 16 ≤ c.dest ↔ d = .ldb then
    let p : Port := ⟨c.dest % 32, Nat.mod_lt _ (by decide)⟩
    let age := seqAbove (seqOf s.pos.frames) c.seq
    if 2 ≤ age ∧ age < 32768 then
      (countSelect e .late 1 c s).setCtl e (fun x => { x with lateNow := true })
    else
      let o : OutCell := ⟨c.seq, c.page, fitTo 56 c.payload⟩
      let s1 := s.setLatch p (fun l =>
        match e with
        | .ex => { l with cellsX := o :: l.cellsX }
        | .ey => { l with cellsY := o :: l.cellsY })
      match s.ports[p].latch.cell e.other c.seq with
      | some b =>
        if compares s d && o != b then
          { s1 with duplex := { s1.duplex with mismatches := ⟨some p, c.seq, diffMask o b, none⟩ :: s1.duplex.mismatches } }
        else s1
      | none => s1
  else s

/-! ### Release to the receiver -/

/-- Cells released by a resequencer go where their receiver takes them. -/
def deliver (r : Receiver) (w : Flow) (from_ : BitVec 16) (l : List Cell) (s : State) : State :=
  match r, w.cls with
  | .engine e _, .circuit => forEach l (inputStage e) s
  | .engine e _, .packet | .engineKeeper e, .packet => packetRelease (packetGap e w) (packetStage e) l from_ s
  | .line d e, .circuit => forEach l (latchCell d e) s
  | .line d e, .packet => packetRelease (accessGap d e) (accessPoint d e) l from_ s
  | .keeper e, .packet => packetRelease (keeperGap e) (keeperCell e) l from_ s
  | _, _ => s

/-- Put an arriving cell through its resequencer (R215). -/
def resequence (r : Receiver) (c : Cell) (s : State) : State :=
  let f := flowFor (s.flowsAt r) c
  let q := f.arrive c s.now
  if q.late then countSelect (recvEng r) .late 1 c s
  else deliver r f.flow f.next q.released (s.setFlows r (putFlow q.flow (s.flowsAt r)))

/-- RESEQUENCER_TIMEOUT (R215, R240). -/
def resequencerExpires (r : Receiver) (w : Flow) (s : State) : State :=
  match (s.flowsAt r).find? (fun f => f.flow == w) with
  | none => s
  | some f =>
    let q := f.expire s.now
    deliver r w f.next q.released (s.setFlows r (putFlow q.flow (s.flowsAt r)))

/-! ### Rally cells (R319 to R323) -/

/-- The launch tick of a rally cell within its frame. -/
def rallyTick (d : LineDie) (r : Nat) : Nat := 128 + 512 * d.num + 1024 * r

/-- 44 octets of the 2^15 - 1 sequence from a loaded register (R320). -/
def rallyOctets (seed : Nat) : List Byte :=
  let d : PatDef := { type := 2, invert := false, generate := true, analyse := false, port := 0, bitMask := 255, slotMask := 0,
                      len := 0, word := [] }
  let step := fun (acc : List Byte × Gen) (_ : Nat) =>
    let (bs, g) := (List.range 8).foldl (fun (a : List Bool × Gen) _ =>
      let (b, g) := genBit d a.2
      (a.1 ++ [b], g)) ([], acc.2)
    (acc.1 ++ [bitsOctet bs], g)
  ((List.range 44).foldl step ([], { running := true, reg := BitVec.ofNat 23 seed, phase := 0, zeros := 0, counted := 0, once := false })).1

/-- Rally cell r of line die d in frame n, as the engine must receive it (R319, R320). -/
def rallyCell (d : LineDie) (r : Nat) (e : Eng) (n : Nat) : Cell :=
  let i := 16 * d.num + (n + 8 * r) % 16
  let o := (n / 16 + 16 * r) % 32
  let sq := (2 * n + r) % 65536
  { cls := .rally, dest := o, src := i, seq := BitVec.ofNat 16 sq, copy := 0, cm := false, bt := false, dirn := false,
    eng := e == .ey, frag := 3, len := 56, page := 0
    payload := leBytes 8 (n * 2048 + rallyTick d r) ++ (leBytes 1 d.num ++ leBytes 1 r ++ leBytes 1 i ++ leBytes 1 o) ++
      rallyOctets (sq % 32767 + 1) }

/-- A rally check fails at an engine (R323). -/
def rallyFailsAtEngine (e : Eng) (s : State) : State :=
  (lowerHealth e 0 .rally s).setCtl e (fun c => { c with rallyFail := true })

/-- A rally check fails at a line die: it holds the failure against the engine (R323). -/
def rallyFailsAtDie (d : LineDie) (e : Eng) (s : State) : State :=
  s.setDie d (fun x => x.setOfEng e (fun k => { k with hold := true, failedNow := true, passRun := 0 }))

/-- The line die that checks a rally cell on its return: that of its destination port. -/
def rallyReturn (n r : Nat) : LineDie := if (n / 16 + 16 * r) % 32 < 16 then .lda else .ldb

/-- A line die works: powered and not lost, or reset after it was found again (R506). -/
def DieSt.works (x : DieSt) : Bool := x.powered && (!x.lost || x.found)

/-- RALLY_LAUNCH (R319): the cell goes to each engine that runs. -/
def launchRally (d : LineDie) (r : Fin 2) (s : State) : State :=
  if (s.die d).works then
    let n := s.pos.frames
    forEach engines (fun e t =>
      if (t.eng e).ctl.running then
        let t1 := pushUp d e r (rallyCell d r.val e n) t
        { t1 with duplex := { t1.duplex with
            rallies := ({ die := d, r := r, eng := e, number := n, stage := .atEngine, due := s.now + 4 } : Rally) :: t1.duplex.rallies } }
      else t) s
  else s

/-- A rally cell that failed at its engine, or never came there, is still due at its line die (R321). -/
def Rally.onward (y : Rally) : Rally := { y with stage := .atDie, due := y.due + 4 }

/-- A rally cell arrives at an engine and is checked (R321): passed on through the rally queue, or failed. -/
def rallyAtEngine (e : Eng) (d : LineDie) (l : LinkId) (hdr : BitVec 64) (c : Cell) (s : State) : State :=
  match s.duplex.rallies.find? (fun y => y.eng == e && y.die == d && y.r == l && y.stage == .atEngine) with
  | none => s
  | some y =>
    let want := rallyCell d y.r.val e y.number
    let s0 := { s with duplex := { s.duplex with rallies := y.onward :: s.duplex.rallies.erase y } }
    if hdr = headerOf want ∧ c.payload = want.payload ∧ s.now ≤ y.due then
      let i : Port := ⟨want.src % 32, Nat.mod_lt _ (by decide)⟩
      let o : Port := ⟨want.dest % 32, Nat.mod_lt _ (by decide)⟩
      s0.setData e (fun x => { x with rally := x.rally ++ [⟨i, o, want⟩] })
    else rallyFailsAtEngine e s0

/-- A rally cell returns to a line die and is checked (R321). -/
def rallyAtDie (d : LineDie) (e : Eng) (l : LinkId) (hdr : BitVec 64) (c : Cell) (s : State) : State :=
  match s.duplex.rallies.find? (fun y => y.eng == e && y.stage == .atDie && rallyReturn y.number y.r.val == d &&
      (y.r.val + y.die.num) % 2 == l.val) with
  | none => s
  | some y =>
    let want := { rallyCell y.die y.r.val e y.number with dirn := true }
    let s1 := { s with duplex := { s.duplex with rallies := s.duplex.rallies.erase y } }
    if hdr = headerOf want ∧ c.payload = want.payload ∧ s.now ≤ y.due then s1 else rallyFailsAtDie d e s1

/-- RALLY_DEADLINE (R321): a cell that has not arrived by its deadline fails. -/
def rallyExpires (d : LineDie) (r : Fin 2) (e : Eng) (st : RallyStage) (s : State) : State :=
  match s.duplex.rallies.find? (fun y => y.eng == e && y.die == d && y.r == r && y.stage == st && decide (y.due ≤ s.now)) with
  | none => s
  | some y =>
    let rest := s.duplex.rallies.erase y
    match st with
    | .atEngine => rallyFailsAtEngine e { s with duplex := { s.duplex with rallies := y.onward :: rest } }
    | .atDie => rallyFailsAtDie (rallyReturn y.number y.r.val) e { s with duplex := { s.duplex with rallies := rest } }

/-- RALLY_FAILURE_REPORT (R323): KP orders the engine to health 0. -/
def rallyReported (d : LineDie) (e : Eng) (s : State) : State :=
  if ((s.die d).ofEng e).hold then rallyFailsAtEngine e s else s

/-! ### Beats (R314, R317, R318) -/

/-- A beat with a good header brings the engine's claim to a line die; a claim that differs from the wires is told to
the tally. -/
def takeBeat (d : LineDie) (e : Eng) (payload : List Byte) (s : State) : State :=
  let b := BitVec.ofNat 4 ((byteAt payload 0).toNat % 16)
  let s1 := s.setDie d (fun x => x.setOfEng e (fun k => { k with beat := b, beatAt := s.now }))
  if b.toNat = (s.eng e).ctl.claim then s1 else s1.setEngTally e (fun t => { t with disagreed := true })

/-- Header errors are counted on the link the cell arrived on (R211), and a cell so lost to an engine is evidence against
that engine (R328). -/
def countHec (r : Receiver) (l : LinkId) (s : State) : State :=
  match r with
  | .engine e d =>
    (s.setDie d (fun x => x.setLink e l (fun k => { k with hecUp := k.hecUp + 1 }))).setCtl e (fun c => { c with lateNow := true })
  | .line d e => s.setDie d (fun x => x.setLink e l (fun k => { k with hecDown := k.hecDown + 1 }))
  | .engineKeeper e =>
    (s.setEngTally e (fun t => { t with hecKeeper := t.hecKeeper + 1 })).setCtl e (fun c => { c with lateNow := true })
  | .keeper e => s.setEngTally e (fun t => { t with hecAtKeeper := t.hecAtKeeper + 1 })

/-- The receiver runs. -/
def State.receives (s : State) (r : Receiver) : Bool :=
  match r with
  | .engine e _ | .engineKeeper e => (s.eng e).ctl.running
  | .line d _ => (s.die d).works
  | .keeper _ => true

/-- CELL_ARRIVAL (R211, R215). -/
def cellArrives (r : Receiver) (l : LinkId) (hdr : BitVec 64) (payload : List Byte) (s : State) : State :=
  if !s.receives r then s
  else if !hecGood hdr then countHec r l s
  else
    let c := cellOf hdr payload
    match c.cls, r with
    | .rally, .engine e d => rallyAtEngine e d l hdr c s
    | .rally, .line d e => rallyAtDie d e l hdr c s
    | .rally, _ => s
    | .beat, .line d e => takeBeat d e c.payload s
    | .beat, _ => s
    | _, _ => resequence r c s

/-- BEAT_RECEIVED (R314, R318): a beat whose HEC fails counts as missing. -/
def beatArrives (d : LineDie) (e : Eng) (l : LinkId) (hdr : BitVec 64) (payload : List Byte) (s : State) : State :=
  if !s.receives (.line d e) then s
  else if !hecGood hdr then countHec (.line d e) l s
  else if (cellOf hdr payload).cls = .beat then takeBeat d e payload s
  else s

/-- BEAT_TIMEOUT (R314): no beat for 1024 ticks. -/
def beatExpires (d : LineDie) (e : Eng) (s : State) : State :=
  if ((s.die d).ofEng e).beatAt + 1024 ≤ s.now then
    s.setDie d (fun x => x.setOfEng e (fun k => { k with beat := 0 }))
  else s

/-! ### Lane lock (R214) -/

/-- LANE_LOCK_LOSS: the link leaves spraying, and what its FIFOs hold is lost. -/
def laneLost (d : LineDie) (e : Eng) (l : LinkId) (s : State) : State :=
  s.setDie d (fun x => x.setLink e l (fun k => { k with locked := false, spraying := false, up := .idle, down := .idle }))

/-- LINK_REGAINS_LOCK: the link re-enters spraying only at a turn boundary. -/
def laneRegained (d : LineDie) (e : Eng) (l : LinkId) (s : State) : State :=
  s.setDie d (fun x => x.setLink e l (fun k => { k with locked := true }))

/-- Locked links re-enter spraying, at a turn boundary. -/
def reenterSpray (s : State) : State :=
  forEach lineDies (fun d t => t.setDie d (fun x =>
    { x with
      linkX := x.linkX.map (fun k => { k with spraying := k.locked })
      linkY := x.linkY.map (fun k => { k with spraying := k.locked }) })) s

/-! ### Frames lifted at the access point (R199, R237) -/

/-- Cut a frame into packet cells of 56 octets (R210, R237). -/
def packetCells (src dest : Nat) (dirn : Bool) (e : Eng) (first : BitVec 16) (octets : List Byte) : List Cell :=
  let n := cellsOfOctets octets.length
  (List.range n).map (fun i =>
    let part := (octets.drop (56 * i)).take 56
    { cls := .packet, dest := dest, src := src, seq := first + BitVec.ofNat 16 i, copy := 0, cm := false, bt := false,
      dirn := dirn, eng := e == .ey,
      frag := if n = 1 then 3 else if i = 0 then 1 else if i + 1 = n then 2 else 0
      len := part.length, page := 0, payload := fitTo 56 part })

/-- The bits before the first flag in a list, if there is one (R363). -/
def untilFlag : List Bool → Option (List Bool)
  | [] => none
  | b :: l => if (b :: l).take 8 == flagBits then some [] else (untilFlag l).map (fun r => b :: r)

/-- Bits without the zeros inserted after five ones (R237). -/
def unstuff : Nat → List Bool → List Bool
  | _, [] => []
  | n, b :: l => if n = 5 ∧ b = false then unstuff 0 l else b :: unstuff (if b then n + 1 else 0) l

/-- Whole octets of bits, the least significant first (R363). -/
def octetsOf (l : List Bool) : List Byte :=
  (List.range (l.length / 8)).map (fun i => bitsOctet ((l.drop (8 * i)).take 8).reverse)

/-- The frame that ends with the last of these bits: its octets, and whether an abort of seven ones ended it; none where no frame
ends here. -/
def deframe (l : List Bool) : Option (List Byte × Bool) :=
  let r := l.reverse
  if r.take 7 == List.replicate 7 true then
    (untilFlag (r.drop 7)).map (fun b => (octetsOf (unstuff 0 b.reverse), true))
  else if r.take 8 == flagBits then
    match untilFlag (r.drop 8) with
    | some b => if b.isEmpty then none else some (octetsOf (unstuff 0 b.reverse), false)
    | none => none
  else none

/-- LIFTED_FRAME (R199, R237): the frame that ends with these carriage bits of the frame in receipt goes as cells to both engines;
one longer than 256 octets is discarded. One that ends in an abort carries BT in its last cell. -/
def liftFrame (p : Port) (octets : List Byte) (aborted : Bool) (s : State) : State :=
  if !octets.isEmpty then
    let d := dieOf p
    if 256 < octets.length then
      let c := (packetCells p.val 32 false .ex 0 (octets.take 56)).head?
      forEach engines (fun e t =>
        match c with
        | some k => if (t.eng e).ctl.running then countSelect e .badTail 1 k t else t
        | none => t) s
    else
      let sq := (s.die d).packetSeq
      let s1 := s.setDie d (fun x => { x with packetSeq := sq + BitVec.ofNat 16 (cellsOfOctets octets.length) })
      forEach engines (fun e t =>
        if (t.eng e).ctl.running then
          forEach (packetCells p.val 32 false e sq octets) (fun c u => sprayUp d e { c with bt := aborted && c.isLast } u) t
        else t) s1
  else s

/-- A lifted frame is a TIME: the die keeps the tick at which its first bit was extracted (R366, R372). -/
def DieSt.stampTime (octets : List Byte) (x : DieSt) : DieSt :=
  if octets.length = 24 ∧ (byteAt octets 2).toNat / 16 = 3 then { x with inStamp := x.inFirst } else x

/-- LIFTED_FRAME at the access point of the partner port (R199, R200). -/
def frameLifted (p : Port) (bits : List Bool) (s : State) : State :=
  if s.partnerOn && p == s.fabric.port && accessOpen s.ports[p] then
    match deframe ((s.die (dieOf p)).inBits ++ bits) with
    | some (octets, aborted) => liftFrame p octets aborted (s.setDie (dieOf p) (DieSt.stampTime octets))
    | none => s
  else s

/-! ### The meanings -/

def execCellArrival (r : Receiver) (l : LinkId) (hdr : BitVec 64) (payload : List Byte) (k : Tick) (s : State) :
    Host.Outcome State Fault Refusal :=
  .next (cellArrives r l hdr payload (atTick k s))

def execResequencerTimeout (r : Receiver) (w : Flow) (k : Tick) (s : State) : Host.Outcome State Fault Refusal :=
  .next (resequencerExpires r w (atTick k s))

def execLaneLockLoss (d : LineDie) (e : Eng) (l : LinkId) (k : Tick) (s : State) : Host.Outcome State Fault Refusal :=
  .next (laneLost d e l (atTick k s))

def execLinkRegainsLock (d : LineDie) (e : Eng) (l : LinkId) (k : Tick) (s : State) : Host.Outcome State Fault Refusal :=
  .next (laneRegained d e l (atTick k s))

def execBeatReceived (d : LineDie) (e : Eng) (l : LinkId) (hdr : BitVec 64) (payload : List Byte) (k : Tick) (s : State) :
    Host.Outcome State Fault Refusal :=
  .next (beatArrives d e l hdr payload (atTick k s))

def execBeatTimeout (d : LineDie) (e : Eng) (k : Tick) (s : State) : Host.Outcome State Fault Refusal :=
  .next (beatExpires d e (atTick k s))

def execRallyLaunch (d : LineDie) (r : Fin 2) (s : State) : Host.Outcome State Fault Refusal :=
  .next (launchRally d r (atTick (BitVec.ofNat 11 (rallyTick d r.val)) s))

def execRallyDeadline (d : LineDie) (r : Fin 2) (e : Eng) (st : RallyStage) (k : Tick) (s : State) :
    Host.Outcome State Fault Refusal :=
  .next (rallyExpires d r e st (atTick k s))

def execRallyFailureReport (d : LineDie) (e : Eng) (k : Tick) (s : State) : Host.Outcome State Fault Refusal :=
  .next (rallyReported d e (atTick k s))

def execLiftedFrame (p : Port) (bits : List Bool) (k : Tick) (s : State) : Host.Outcome State Fault Refusal :=
  .next (frameLifted p bits (atTick k s))

end Sys2Proof.Machine
end

