-- ==== Sys2Proof/Machine/Protection.lean ====
section
/-! DEFINITION. Line protection in GUARD (09_line_protection): conditions, requests and selection words as each engine computes
them (R261), the differential delay and its confirmation, exercises, and the pair state words. -/

namespace Sys2Proof.Machine

/-! ### Conditions and requests -/

/-- SF on the two lines of a pair (R252). -/
def sfOf (s : State) (g : PairId) (l : PairLine) : Bool :=
  signalFail s.ports[match l with | .working => workPort g | .protect => protPort g]

/-- SD as reported: never while SF is declared on the line (R253). -/
def sdOf (s : State) (g : PairId) (l : PairLine) : Bool :=
  let x := s.pairs[g]
  (match l with | .working => x.sdW | .protect => x.sdP) && !sfOf s g l

/-- A condition of a line as it stands. -/
def condOf (s : State) (g : PairId) (l : PairLine) (c : FailCond) : Bool :=
  match c with
  | .sf => sfOf s g l
  | .sd => sdOf s g l

/-- The requests of a pair in an engine. -/
def State.req (s : State) (e : Eng) (g : PairId) : PairReq := (s.eng e).data.reqs[g]

/-- The hold-off of a condition of a line. -/
def PairReq.hold (x : PairReq) (l : PairLine) (c : FailCond) : HoldOff :=
  match l, c with
  | .working, .sf => x.hoSfW
  | .working, .sd => x.hoSdW
  | .protect, .sf => x.hoSfP
  | .protect, .sd => x.hoSdP

/-- Change the hold-off of a condition of a line. -/
def PairReq.setHold (x : PairReq) (l : PairLine) (c : FailCond) (h : HoldOff) : PairReq :=
  match l, c with
  | .working, .sf => { x with hoSfW := h }
  | .working, .sd => { x with hoSdW := h }
  | .protect, .sf => { x with hoSfP := h }
  | .protect, .sd => { x with hoSdP := h }

/-- Boundaries at which a condition must have held before it is a request (R254): the first with hold-off 0, and 800 h
frames after the first otherwise. -/
def holdFrames (h : Nat) : Nat := h * 800 + 1

/-- No condition holds. -/
def HoldOff.clear : HoldOff := { frames := 0, request := false }

/-- A condition at a frame boundary: with hold-off 0 it is a request at once, and so is one whose hold-off ran out at the boundary
before; one that has cleared ends its request and its hold-off (R254). -/
def HoldOff.frame (h : HoldOff) (steps : Nat) (holds : Bool) : HoldOff :=
  if holds then { frames := h.frames + 1, request := h.request || steps == 0 || decide (holdFrames steps ≤ h.frames) } else HoldOff.clear

/-- The code of a command (R257). -/
def PairCmd.code : PairCmd → Nat
  | .none => 0 | .lockout => 10 | .forced => 8 | .manualP => 4 | .manualW => 3 | .exercise => 1

/-- The request that a command, or a timer's exercise, raises on a pair (R257). -/
def PairSt.command (x : PairSt) : Nat := if x.exNow then max 1 x.cmd.code else x.cmd.code

/-- The request of highest priority, a command of code `cmd` among them (R257). -/
def PairReq.request (cmd : Nat) (x : PairReq) : Nat :=
  let pick := fun (b : Bool) (n a : Nat) => if b then max n a else a
  pick x.hoSfP.request 9 (pick x.hoSfW.request 7 (pick x.hoSdP.request 6 (pick x.hoSdW.request 5
    (pick x.wtr.isSome 2 cmd))))

/-- The selection a request makes; `rev`: the pair is revertive, `now`: protect is selected (R257). -/
def selects (rev : Bool) (req : Nat) (now : Bool) : Bool :=
  match req with
  | 10 | 9 | 6 | 3 => false
  | 8 | 7 | 5 | 4 | 2 => true
  | 1 => now
  | _ => if rev then false else now

/-- WTR after a frame boundary (R259): it starts when SF-W or SD-W, the request in force just before, has ended while
protect is selected; a request of higher priority cancels it. -/
def PairReq.waitToRestore (cmd : Nat) (x : PairReq) (e : ProtEntry) : Option Nat :=
  if { x with wtr := none }.request cmd > 2 then none
  else if x.hoSfW.request || x.hoSdW.request then none
  else if e.revertive && x.word && (x.req == 7 || x.req == 5) then (if e.wtr = 0 then none else some (e.wtr * 80000))
  else x.wtr.bind (fun n => if n = 0 then none else some (n - 1))

/-- Settle the request in force and the selection word (R257, R261). -/
def PairReq.decide (cmd : Nat) (rev : Bool) (x : PairReq) : PairReq :=
  let r := x.request cmd
  { x with req := r, word := selects rev r x.word }

/-- The requests and the selection of one pair in one engine for the frame just ended (R261). -/
def pairFrame (e : Eng) (g : PairId) (s : State) : State :=
  if s.pairs[g].running then
    let p := s.prot g
    let cmd := s.pairs[g].command
    let step := fun (l : PairLine) (c : FailCond) (x : PairReq) => x.setHold l c ((x.hold l c).frame p.holdoff (condOf s g l c))
    s.setReq e g (fun x =>
      let y := step .working .sf (step .protect .sf (step .working .sd (step .protect .sd x)))
      let z := { y with wtr := y.waitToRestore cmd p }
      z.decide cmd p.revertive)
  else s

/-- An engine returns selection words: it is powered and out of retention, and claims more than 0. -/
def returnsWords (s : State) (e : Eng) : Bool := (s.eng e).ctl.running && decide (0 < (s.eng e).ctl.claim)

/-- Some powered engine returns selection words. -/
def State.selecting (s : State) : Bool := engines.any (returnsWords s)

/-- The engine whose selection words KP passes on: the one of higher claim (R261). DESIGN CHOICE (assumption 144): of two equal
claims, EX's words are passed on. -/
def wordEng (s : State) : Eng :=
  if returnsWords s .ey && (!returnsWords s .ex || decide (s.engX.ctl.claim < s.engY.ctl.claim)) then .ey else .ex

/-- The selection words of the two engines differ for a running pair (R261, R327). -/
def wordsDiffer (s : State) : Bool :=
  engines.all (returnsWords s) && all16.any (fun g =>
    s.pairs[g].running && ((s.req .ex g).word != (s.req .ey g).word || (s.req .ex g).req != (s.req .ey g).req))

/-- Both lines of a pair are aligned. -/
def bothAligned (s : State) (g : PairId) : Bool := s.ports[workPort g].framer.aligned && s.ports[protPort g].framer.aligned

/-- Confirmation is lost while either line is not aligned (R256), and a timer's exercise has been decided on. -/
def endPairFrame (s : State) : State :=
  forEach all16 (fun g t => t.setPair g (fun x => { x with conf := x.conf && bothAligned t g, exNow := false })) s

/-- The requests and selections of all pairs at a frame boundary, in every powered engine; a difference between the engines' words is
a mismatch (R261, R327). -/
def pairFrames (s : State) : State :=
  if s.pairs.toList.all (fun x => !x.running) then s
  else
    let s1 := forEach engines (fun e t => if (t.eng e).ctl.running then forEach all16 (pairFrame e) t else t) s
    let s2 := endPairFrame s1
    if wordsDiffer s2 then
      { s2 with duplex := { s2.duplex with mismatches := ⟨none, seqOf s2.pos.frames, 0, none⟩ :: s2.duplex.mismatches } }
    else s2

/-- An engine's hold-off has run out (R254). -/
def holdOffDue (s : State) (g : PairId) (l : PairLine) (c : FailCond) (e : Eng) : Bool :=
  let h := (s.req e g).hold l c
  (s.eng e).ctl.running && decide (holdFrames (s.prot g).holdoff ≤ h.frames) && !h.request

/-- HOLD_OFF_EXPIRY (R254): a condition that has held throughout becomes a request. -/
def holdOffExpires (g : PairId) (l : PairLine) (c : FailCond) (s : State) : State :=
  let p := s.prot g
  let cmd := s.pairs[g].command
  if s.pairs[g].running then
    forEach engines (fun e t =>
      if holdOffDue s g l c e then
        t.setReq e g (fun x =>
          let y := x.setHold l c { x.hold l c with request := true }
          ({ y with wtr := none }).decide cmd p.revertive)
      else t) s
  else s

/-- WTR_EXPIRY (R259): WTR ends at this boundary, and the requests of the frame that begins here are decided without it. DEDUCED
(assumption 174): NR takes over, and selects working, with that decision (R257, R261). -/
def wtrExpires (g : PairId) (s : State) : State :=
  if s.pairs[g].running then
    forEach engines (fun e t =>
      if (t.req e g).wtr == some 0 then t.setReq e g (fun x => { x with wtr := none }) else t) s
  else s

/-- SELECTION_WORD_RECEIVED (R261): the words of the die's pairs, which act at each working port's next output frame
(R262). -/
def selectionWords (d : LineDie) (s : State) : State :=
  if s.selecting then
    let ws := (all16.filter (fun g => s.pairs[g].running && dieOf (workPort g) == d)).map (fun g => (g, (s.req (wordEng s) g).word))
    s.setDie d (fun x => { x with words := ws })
  else s

/-! ### Differential delay (R255) -/

/-- What R255 lays down for a framing: frames of the multiframe, the number of its first frame, bits of a frame, and the limit of
|d| in bits within which an offset can be confirmed. -/
structure DelayRow where
  frames : Nat
  first  : Nat
  bits   : Nat
  limit  : Nat
  deriving DecidableEq, Repr

/-- The row of R255 that applies to a pair; none where d is never confirmed. -/
def delayRow (s : State) (g : PairId) : Option DelayRow :=
  let x := s.ports[workPort g]
  let y := s.ports[protPort g]
  match framingOf x.line.family with
  | .t1Esf => some ⟨24, 1, 193, 1351⟩
  | .t1Sf => some ⟨12, 1, 193, 965⟩
  | .e1Crc => if x.framer.crcMf == .aligned && y.framer.crcMf == .aligned then some ⟨16, 0, 256, 1792⟩ else none
  | .e1Basic => if x.framer.casMf && y.framer.casMf then some ⟨16, 0, 256, 1792⟩ else none
  | .off => none

/-- The limit of |d| in bits within which an offset can be confirmed; none: never (R255). -/
def confirmLimit (s : State) (g : PairId) : Option Nat := (delayRow s g).map (fun r => r.limit)

/-- The number of a received frame in the multiframe of R255: the CAS number on a port without CRC-4. -/
def delayNo (x : PortSt) (f : RxFrame) : Nat := if framingOf x.line.family = .e1Basic then f.mark else f.mf

/-- A received frame begins a multiframe of R255, of which the port was aligned as it was received. -/
def startsMultiframe (r : DelayRow) (x : PortSt) (f : RxFrame) : Bool :=
  if framingOf x.line.family = .e1Basic then f.cas0 else f.mf == r.first && (isT1 x.line.family || f.chk)

/-- Tick at which the latest multiframe of a line began, less one frame: of those received since it was aligned. -/
def latestStart (r : DelayRow) (x : PortSt) : Option Nat :=
  ((x.slip.history.take x.framer.sinceBasic).find? (startsMultiframe r x)).map (fun f => f.doneAt)

/-- Reduce a lag to the range of R255: from minus half of the multiframe on. -/
def DelayRow.reduce (r : DelayRow) (x : Int) : Int :=
  let m : Int := r.frames * r.bits
  (x + m / 2) % m - m / 2

/-- The differential delay as the latest multiframe starts of the two lines give it, in bits of the working line (R255). -/
def measured (s : State) (g : PairId) : Option Int :=
  if !bothAligned s g then none
  else match delayRow s g with
    | none => none
    | some r =>
      match latestStart r s.ports[workPort g], latestStart r s.ports[protPort g] with
      | some a, some b => some (r.reduce ((((b : Int) - a) * r.bits + 1024) / 2048))
      | _, _ => none

/-! ### Confirmation (R256) -/

/-- The protect line's copy of a working line's frame at offset `d`. -/
def twin (s : State) (g : PairId) (d : Int) (f : RxFrame) : Option RxFrame :=
  let at_ : Int := f.doneAt + bitTicks s.ports[workPort g].line.family d
  s.ports[protPort g].slip.history.find? (fun r => decide (((r.doneAt : Int) - at_).natAbs ≤ 1024))

/-- The check bits of two copies of a frame agree: C bits in FAS frames, Sa4 to Sa8 in NFAS frames, TS16, CRC-6 bits, or the 24
channel octets (R256). -/
def bitsAgree (fr : Framing) (m : Nat) (a b : RxFrame) : Bool :=
  let x := (byteAt a.octets 0) ^^^ (byteAt b.octets 0)
  match fr with
  | .e1Crc => if m % 2 = 0 then !x.getLsbD 7 else x &&& 0x1F == 0
  | .e1Basic => byteAt a.octets 16 == byteAt b.octets 16
  | .t1Esf => m % 4 != 2 || !x.getLsbD 7
  | .t1Sf => (a.octets.drop 1).take 24 == (b.octets.drop 1).take 24
  | .off => false

/-- A frame of the working line agrees with its copy; none where the copy is not held. -/
def frameAgrees (s : State) (g : PairId) (d : Int) (f : RxFrame) : Option Bool :=
  (twin s g d f).map (fun r => bitsAgree (framingOf s.ports[workPort g].line.family) (delayNo s.ports[workPort g] f) f r)

/-- Frames in a block of the check: a sub-multiframe, a CAS multiframe, or a superframe. -/
def blockFrames (fr : Framing) : Nat := match fr with | .e1Crc => 8 | .t1Esf => 24 | .t1Sf => 12 | _ => 16

/-- The working line's frames of the kind `keep` in the block that ends with frame `n`, all with their copies: they agree; none where a
frame or a copy is not held. -/
def blockAgrees (s : State) (g : PairId) (d : Int) (keep : Nat → Bool) (n : Nat) : Option Bool :=
  let x := s.ports[workPort g]
  let k := blockFrames (framingOf x.line.family)
  let fs := (x.slip.history.filter (fun f => decide (f.number ≤ n ∧ n < f.number + k)))
  if fs.length = k then
    (fs.filter (fun f => keep (delayNo x f))).foldl (fun a f => match a, frameAgrees s g d f with
      | some p, some q => some (p && q)
      | _, _ => none) (some true)
  else none

/-- The latest four blocks of the working line that can be judged, latest first (R256). -/
def judgedBlocks (s : State) (g : PairId) (d : Int) (keep : Nat → Bool) : List Bool :=
  let x := s.ports[workPort g]
  let fr := framingOf x.line.family
  let k := blockFrames fr
  let ends := x.slip.history.filter (fun f =>
    let m := delayNo x f
    if isT1 x.line.family then m == k else m % k == k - 1)
  (ends.filterMap (fun f => blockAgrees s g d keep f.number)).take 4

/-- The latest `n` frames of a kind that can be judged all agree. -/
def framesAgree (s : State) (g : PairId) (d : Int) (n : Nat) (keep : Nat → Bool) : Bool :=
  let x := s.ports[workPort g]
  let l := ((x.slip.history.filter (fun f => keep (delayNo x f))).filterMap (frameAgrees s g d)).take n
  decide (l.length = n) && l.all id

/-- The check of R256 passes at offset `d`. -/
def checkPasses (s : State) (g : PairId) (d : Int) : Bool :=
  let three := fun (l : List Bool) => decide (l.length = 4) && decide (3 ≤ (l.filter id).length)
  match framingOf s.ports[workPort g].line.family with
  | .e1Crc => three (judgedBlocks s g d (fun m => m % 2 == 0)) && framesAgree s g d 8 (fun m => m % 2 == 1)
  | .e1Basic => framesAgree s g d 16 (fun _ => true)
  | .t1Esf => three (judgedBlocks s g d (fun _ => true))
  | .t1Sf => framesAgree s g d 12 (fun _ => true)
  | .off => false

/-- The check of R256 has failed in four consecutive blocks. DEDUCED (assumption 143): a sub-multiframe fails when its C bits or its Sa
bits differ. -/
def checkFails (s : State) (g : PairId) (d : Int) : Bool :=
  let l := judgedBlocks s g d (fun _ => true)
  decide (l.length = 4) && l.all (fun b => !b)

/-- The offset can be confirmed (R256). -/
def confirmable (s : State) (g : PairId) (d : Int) : Bool :=
  bothAligned s g && (match confirmLimit s g with | some n => decide (d.natAbs ≤ n) | none => false)

/-- The offset is what the lines show, to a bit (R255). -/
def offsetSeen (s : State) (g : PairId) (d : Int) : Bool := (measured s g).any (fun m => decide ((m - d).natAbs ≤ 1))

/-- The offset is what the lines show, and its check passes (R255, R256). -/
def showsOffset (s : State) (g : PairId) (d : Int) : Bool := offsetSeen s g d && checkPasses s g d

/-- OFFSET_CONFIRMED (R255, R256). -/
def offsetConfirmed (g : PairId) (d : Int) (s : State) : State :=
  if s.pairs[g].running && confirmable s g d && showsOffset s g d then s.setPair g (fun x => { x with d := d, conf := true }) else s

/-- The offset held is no longer confirmed: no offset is measured any more, or the one that the lines show, `d`, is outside the limit or
fails its check (R256). -/
def showsLoss (s : State) (g : PairId) (d : Int) : Bool :=
  (measured s g).isNone || (offsetSeen s g d && (!confirmable s g d || checkFails s g s.pairs[g].d))

/-- CONFIRMATION_LOST (R256). -/
def confirmationLost (g : PairId) (d : Int) (s : State) : State :=
  if s.pairs[g].running && showsLoss s g d then
    s.setPair g (fun x => { x with d := if offsetSeen s g d then d else x.d, conf := false })
  else s

/-- A frame of either line has been received: d is measured, and confirmed or not, whether or not an event has told; another offset
than the one held is confirmed by its own check (R255, R256). -/
def trackPair (p : Port) (s : State) : State :=
  let g := pairOf p
  if s.pairs[g].running then
    match measured s g with
    | none => s.setPair g (fun x => { x with conf := false })
    | some d =>
      let c := confirmable s g d && 
        (if s.pairs[g].conf && decide ((d - s.pairs[g].d).natAbs ≤ 1) then !checkFails s g d else checkPasses s g d)
      s.setPair g (fun x => { x with d := d, conf := c })
  else s

/-! ### Turn boundaries -/

/-- A pair with working selected and nothing running (R244, "Where things meet": DOZE or RESET_N). -/
def PairSt.fresh (x : PairSt) : PairSt :=
  { x with
    protect := false, sdW := false, sdP := false, d := 0, conf := false, slip := false, slipOld := false, cmd := .none, exNow := false }

/-- A pair starts afresh, in its die and in both engines. -/
def freshPair (g : PairId) (s : State) : State :=
  let s1 := (s.setPair g PairSt.fresh).setDie (dieOf (workPort g)) (fun d => { d with words := d.words.filter (fun w => w.1 != g) })
  forEach engines (fun e t => t.setReq e g (fun _ => .reset)) s1

/-- Which pairs run now (R244, R245). -/
def refreshPairs (s : State) : State :=
  forEach all16 (fun g t =>
    let run := t.pairRuns g
    let en := t.modes.mode == .guarded && (t.prot g).enabled
    let t1 := if run && t.pairs[g].running then t else freshPair g t
    t1.setPair g (fun x => { x with running := run, invalid := en && !run })) s

/-- SD of one line at a turn boundary, from the CRC_ERR events of the 250 turns that end there (R253). -/
def sdEval (e : ProtEntry) (x : PortSt) : Bool :=
  e.sd && (x.framer.crcMf == .aligned || framingOf x.line.family == .t1Esf) &&
    decide (e.threshold ≤ x.raw.crcTurns.foldl (· + ·) 0)

/-- Signal degrade of every running pair (R253). -/
def evalSignalDegrade (s : State) : State :=
  forEach all16 (fun g t =>
    if t.pairs[g].running then
      t.setPair g (fun x =>
        { x with sdW := sdEval (t.prot g) t.ports[workPort g], sdP := sdEval (t.prot g) t.ports[protPort g] })
    else t) s

/-- The alignment buffer holds the protect frame that the working port's next output frame would need (R260). -/
def bufferHolds (s : State) (g : PairId) : Bool :=
  let x := s.ports[workPort g]
  let y := s.ports[protPort g].slip
  match x.slip.nextOut with
  | none => false
  | some n =>
    if s.pairs[g].protect then (y.frame n).isSome
    else
      let due := s.ports[workPort g].slip.doneOf n + bitTicks x.line.family s.pairs[g].d
      match y.frame (y.nearest due) with
      | some f => decide (((f.doneAt : Int) - due).natAbs ≤ 1024)
      | none => false

/-- One exercise of a pair (R260): it never changes the selection. -/
def exercise (g : PairId) (s : State) : State :=
  if s.pairs[g].running then
    let ok := !sfOf s g .protect && !sdOf s g .protect && s.pairs[g].conf && bufferHolds s g
    s.setPair g (fun x => { x with exd := true, exp := ok })
  else s

/-- A timer's exercise (R260): it is performed, and the next decision has it as a request (R257). DESIGN CHOICE (assumption 145): for
one frame. -/
def timerExercise (g : PairId) (s : State) : State :=
  if s.pairs[g].running then (exercise g s).setPair g (fun x => { x with exNow := true }) else s

/-- The command that KEY_CMD in effect raises on every running pair (R258); `took`: its value took effect at this
boundary, `old`: the value before. -/
def applyCommand (took : Bool) (old : BitVec 4) (s : State) : State :=
  let clear := took && (s.cmd == 0 || s.cmd == 15) && !(old == 0 || old == 15)
  let n := if took then 0 else s.modes.cmdTurns + 1
  forEach all16 (fun g t =>
    let c := if t.pairs[g].running then pairCmdOf t.cmd g else .none
    let t1 := t.setPair g (fun x => { x with cmd := c })
    let t2 := if clear then forEach engines (fun e u => u.setReq e g (fun x => { x with wtr := none })) t1 else t1
    if c = .exercise && n % 250 == 0 then exercise g t2 else t2) { s with modes := { s.modes with cmdTurns := n } }

/-- Values of a turn move to the turn before. -/
def PairSt.newTurn (x : PairSt) : PairSt := { x with slipOld := x.slip, slip := false }

/-- The pair state word (R266); `slip`: the alignment buffer slipped in the turn it tells of. DESIGN CHOICE (assumption 173): of a pair
that does not run, what tells of its lines and its selection is 0. -/
def pairWord (slip : Bool) (s : State) (g : PairId) : Nat :=
  let x := s.pairs[g]
  if !x.running then b2n x.exd * 1024 + b2n x.exp * 2048 + b2n x.invalid * 8192
  else
    let d : Nat := if bothAligned s g then (BitVec.ofInt 14 x.d).toNat else 0
    b2n x.protect + 2 * (s.req (wordEng s) g).req + 32 * b2n (x.conf && bothAligned s g) + 64 * b2n (sfOf s g .working) + 128 * b2n (sfOf s g .protect) +
      256 * b2n (sdOf s g .working) + 512 * b2n (sdOf s g .protect) + 1024 * b2n x.exd + 2048 * b2n x.exp +
      4096 * b2n slip + 8192 * b2n x.invalid + 65536 * d

/-- A frame of either line of a pair is written, and its delay is measured again. -/
def execFrameWrittenInLineTime (p : Port) (w : RxPulses) (k : Tick) (s : State) : Host.Outcome State Fault Refusal :=
  .next (trackPair p (frameWritten p w (atTick k s)))

def execSelectionWordReceived (d : LineDie) (k : Tick) (s : State) : Host.Outcome State Fault Refusal :=
  .next (selectionWords d (atTick k s))

def execHoldOffExpiry (g : PairId) (l : PairLine) (c : FailCond) (s : State) : Host.Outcome State Fault Refusal :=
  .next (holdOffExpires g l c s)

def execWtrExpiry (g : PairId) (s : State) : Host.Outcome State Fault Refusal := .next (wtrExpires g s)

def execOffsetConfirmed (g : PairId) (d : Int) (k : Tick) (s : State) : Host.Outcome State Fault Refusal :=
  .next (offsetConfirmed g d (atTick k s))

def execConfirmationLost (g : PairId) (d : Int) (k : Tick) (s : State) : Host.Outcome State Fault Refusal :=
  .next (confirmationLost g d (atTick k s))

end Sys2Proof.Machine
end

