-- ==== Sys2Proof/Machine/Capture.lean ====
section
/-! DEFINITION. Capture: tapped octets, the codecs (R293 to R298), and the records of the capture ring (R419, R443 to
R446). -/

namespace Sys2Proof.Machine

/-! ### Codecs -/

/-- Octets equal to the first from the front on, at most `n` (R297). -/
def runLen (b : Byte) : Nat → List Byte → Nat
  | 0, _ => 0
  | _, [] => 0
  | n + 1, x :: l => if x = b then runLen b n l + 1 else 0

/-- Length of the literal at the front, at most `n` octets: it ends before a pair of equal octets (R297). -/
def literalLen : Nat → List Byte → Nat
  | 0, _ => 0
  | _, [] => 0
  | _, [_] => 1
  | n + 1, x :: y :: l => if x = y then 0 else literalLen n (y :: l) + 1

/-- The tokens of an IDLE-RUN stream, each with its octet count (R297); the fuel bounds their number. -/
def tokens : Nat → List Byte → List (List Byte × Nat)
  | 0, _ => []
  | _, [] => []
  | f + 1, x :: l =>
    let r := runLen x 129 (x :: l)
    if 2 ≤ r then ([BitVec.ofNat 8 (0x80 + (r - 2)), x], r) :: tokens f ((x :: l).drop r)
    else
      let j := literalLen 128 (x :: l)
      (BitVec.ofNat 8 (j - 1) :: (x :: l).take j, j) :: tokens f ((x :: l).drop j)

/-- A token that no later octet can change: a repeat of full length (R297). -/
def tokenFull (t : List Byte × Nat) : Bool := t.2 == 129

/-- The bytes of the completed tokens; at the stream's end the last token is complete too (R443). -/
def idleRun (octets : List Byte) (ended : Bool) : List Byte :=
  let ts := tokens octets.length octets
  let done := match ts.getLast? with
    | some t => if ended || tokenFull t then ts else ts.dropLast
    | none => ts
  done.flatMap (fun t => t.1)

/-- The codewords of an ADPCM32 stream (R298). -/
def adpcmWords (aLaw : Bool) (octets : List Byte) : List (BitVec 4) :=
  adpcm32 aLaw octets

/-- Codewords packed two to a byte, the earlier in bits 3:0 (R298). -/
def packWords : List (BitVec 4) → Bool → List Byte
  | [], _ => []
  | [a], ended => if ended then [BitVec.ofNat 8 a.toNat] else []
  | a :: b :: l, ended => BitVec.ofNat 8 (a.toNat + 16 * b.toNat) :: packWords l ended

/-- The completed bytes of a stream (R295 to R298, R443). -/
def streamBytes (codec : BitVec 2) (aLaw : Bool) (octets : List Byte) (ended : Bool) : List Byte :=
  match codec.toNat with
  | 1 => idleRun octets ended
  | 2 => packWords (adpcmWords aLaw octets) ended
  | _ => octets

/-- Octets of the token of an IDLE-RUN stream that is still open (R297). -/
def openToken (octets : List Byte) : List Byte :=
  match (tokens octets.length octets).getLast? with
  | some t => if tokenFull t then [] else octets.drop (octets.length - t.2)
  | none => []

/-- The encoder of an ADPCM32 stream after its octets (R298). -/
def adpcmAfter (aLaw : Bool) (octets : List Byte) : Adpcm :=
  octets.foldl (fun a o => (a.encode (if aLaw then alawLinear o else mulawLinear o)).2) Adpcm.reset

/-- The state variables of the encoder as bytes. -/
def Adpcm.bytes (a : Adpcm) : List Byte :=
  let f := fun (x : Float11) => [(b2n x.neg : Int), x.exp, x.mant]
  ([a.yl, a.yu, a.dms, a.dml, a.ap, a.a1, a.a2, b2n a.pk1, b2n a.pk2, b2n a.td] ++ a.b ++ a.dq.flatMap f ++ a.sr.flatMap f).flatMap
    (fun x => leBytes 4 (BitVec.ofInt 32 x).toNat)

/-- What the coder of a stream holds beside the bytes it has completed: an open token, or the encoder's state and a codeword that
waits for the next (R297, R298). -/
def Stream.coder (aLaw : Bool) (x : Stream) : List Byte :=
  match x.codec.toNat with
  | 1 => openToken x.octets
  | 2 => (adpcmAfter aLaw x.octets).bytes ++
      (if x.octets.length % 2 = 1 then ((adpcm32 aLaw x.octets).getLast?.toList).map (fun w => BitVec.ofNat 8 w.toNat) else [])
  | _ => []

/-! ### Taps (R109, R293) -/

/-- The superframe frame in which a destination framer sends the cell of frame `q` (R194, R293); on a line-timed port the
frame that its next transmitted frame carries. -/
def tapFrameNo (s : State) (d : Port) (q : Nat) : Nat :=
  let x := s.ports[d]
  match x.hinge.role with
  | .lineTimed t =>
    match x.slip.nextOut with
    | some n => match s.ports[t].slip.frame (n + 1) with
      | some r => r.mf
      | none => gridFrameNo x.line.family (q + 2)
    | none => gridFrameNo x.line.family (q + 2)
  | _ => gridFrameNo x.line.family (q + 2)

/-- The octet as sent of a slot (R109, R293). -/
def tappedOctet (s : State) (d : Port) (q : Nat) (pl : List Byte) (n : Nat) : Byte :=
  byteAt (robSlots (framingOf s.ports[d].line.family) (tapFrameNo s d q) pl (pl.take 32)) n

/-- The slot-start entry of a destination slot under the active page of an engine. -/
def tapEntry (s : State) (e : Eng) (d : Port) (n : Nat) : Dest :=
  destEntry s.image.flash (s.eng e).data.activeCopy (s.eng e).data.active d (slotStart s.ports[d].line.family n)

/-- A stream of this slot still runs with this codec. -/
def Stream.runs (x : Stream) (d : Port) (n : Nat) (c : BitVec 2) : Bool :=
  x.port == d && x.slot == n && x.codec == c && !x.ends

/-- One tapped octet of frame `q` is handed to its coder (R293, R294). -/
def tapOctet (d : Port) (n : Nat) (codec : BitVec 2) (q : Nat) (o : Byte) (c : EngData) : EngData :=
  if c.streams.any (fun x => x.runs d n codec) then
    { c with streams := c.streams.map (fun x =>
        if x.runs d n codec then
          { x with octets := x.octets ++ [o], first := if x.octets.length = x.taken then q % 32 else x.first }
        else x) }
  else
    { c with
      streams := c.streams.map (fun x => if x.port == d && x.slot == n then { x with ends := true } else x) ++
        [{ port := d, slot := n, codec := codec, octets := [o], taken := 0, emitted := 0, begins := true, first := q % 32,
           ends := false }]
      restarted := c.restarted || q % 8000 != 0 }

/-- The taps of one output cell of frame `q`. -/
def tapCell (s : State) (e : Eng) (q : Nat) (cell : Cell) (x : EngData) : EngData :=
  let d : Port := ⟨cell.dest % 32, Nat.mod_lt _ (by decide)⟩
  ((List.range 32).filter (fun n => entrySlot s.ports[d].line.family n && (tapEntry s e d n).t)).foldl (fun x n =>
    tapOctet d n (tapEntry s e d n).codec q (tappedOctet s d q cell.payload n) x) x

/-- The octets of frame `q` go to the coders of each engine that computes (R293, R305); proof traffic is not tapped (R127). -/
def captureFrame (q : Nat) (s : State) : State :=
  if s.capture.gate && s.modes.mode != .proof then
    forEach engines (fun e t => t.setData e (fun x => x.built.foldl (fun y c => tapCell s e q c y) x)) s
  else s

/-! ### Records of the capture ring -/

/-- Number of an engine's writer (R444). -/
def writerNum : Eng → Nat := Eng.num

/-- The common header of a capture record (R444). -/
def capHeader (kind writer seq : Nat) (stamp : BitVec 64) (qual : BitVec 8) (flags nseg len drops : Nat) : List Byte :=
  leBytes 2 0x5043 ++ leBytes 1 kind ++ leBytes 1 writer ++ leBytes 4 seq ++ leBytes 8 stamp.toNat ++
    leBytes 1 qual.toNat ++ leBytes 1 flags ++ leBytes 2 nseg ++ leBytes 4 len ++ leBytes 2 drops ++ zeros 6

/-- A record filled to its length, its commit word last (R444). -/
def capRecord (head body : List Byte) (len seq : Nat) : List Byte := fitTo (len - 4) (head ++ body) ++ leBytes 4 seq

/-- Kind of a record. -/
def recordKind (r : List Byte) : Nat := (byteAt r 2).toNat

/-- A record is a chunk. -/
def isChunk (r : List Byte) : Bool := recordKind r == 1

/-- A record with its writer, its number, and, in a chunk, the count of chunks dropped (R444). -/
def numbered (w seq drops : Nat) (r : List Byte) : List Byte :=
  let r1 := r.take 3 ++ leBytes 1 w ++ leBytes 4 seq ++ r.drop 8
  let r2 := if isChunk r then replaceAt r1 0x18 (leBytes 2 drops) else r1
  r2.take (r2.length - 4) ++ leBytes 4 seq

/-- Size of the capture window of a writer; none when it has none (R409). -/
def captureSize (s : State) (e : Eng) : Option Nat :=
  (fnWindow s.image (match e with | .ex => .captureX | .ey => .captureY) .captureRing).map (fun w => w.size)

/-- The wrap record (R445). The manual gives it no stamp: free values. -/
def wrapRecord (e : Eng) (free seq : Nat) : List Byte :=
  let l := (List.range 9).map (fun i => Config.freeByte (free + i))
  capRecord (capHeader 3 (writerNum e) seq (BitVec.ofNat 64 (leNat (l.take 8))) (byteAt l 8) 0 0 64 0) [] 64 seq

/-- A record of a writer that has a window joins those that wait. -/
def queueRecord (e : Eng) (r : List Byte) (s : State) : State :=
  if (captureSize s e).isSome then { s with capture := { s.capture with waiting := s.capture.waiting ++ [r] } } else s

/-- The next record is to be written: its number is one above that of the last record written and its place follows it. Where it
would pass the window's end, a wrap record goes before it if 64 bytes remain, and it is written from offset 0 (R444, R445). -/
def takeRecord (e : Eng) (s : State) : State :=
  match s.capture.hand, s.capture.waiting, captureSize s e with
  | none, r :: rest, some size =>
    let c := s.capture
    let seq := (c.seq + 1).toNat
    let r1 := numbered (writerNum e) seq c.drops r
    if c.offset + r.length ≤ size then { s with capture := { c with waiting := rest, hand := some (c.offset, r1), made := 0 } }
    else if c.offset + 64 ≤ size then
      { s with freeIdx := s.freeIdx + 9, capture := { c with hand := some (c.offset, wrapRecord e s.freeIdx seq), made := 0 } }
    else { s with capture := { c with waiting := rest, hand := some (0, r1), made := 0 } }
  | _, _, _ => s

/-- The chunks not yet written, oldest first. -/
def CapturePath.chunks (c : CapturePath) : List (List Byte) := (c.hand.toList.map (fun x => x.2) ++ c.waiting).filter isChunk

/-- The law of a port's ADPCM32 streams (R298). -/
def aLawOf (s : State) (p : Port) : Bool := isE1 s.ports[p].line.family

/-- The bytes of a stream that this chunk carries. -/
def newBytes (s : State) (x : Stream) : List Byte :=
  (streamBytes x.codec (aLawOf s x.port) x.octets x.ends).drop x.emitted

/-- The descriptor of a segment (R444). -/
def segment (s : State) (x : Stream) : List Byte :=
  leBytes 1 x.port.val ++ leBytes 1 x.slot ++ leBytes 1 (x.codec.toNat + 4 * b2n x.begins + 8 * b2n x.ends) ++
    leBytes 1 x.first ++ leBytes 2 (x.octets.length - x.taken) ++ leBytes 2 (newBytes s x).length

/-- Streams in ascending order of port and slot, older first. -/
def sortStreams (l : List Stream) : List Stream :=
  allPorts.flatMap (fun p => (List.range 32).flatMap (fun n => l.filter (fun x => x.port == p && x.slot == n)))

/-- Streams that a chunk carries: those with octets in the turn, or bytes left at their end. -/
def segmentsOf (s : State) (streams : List Stream) : List Stream :=
  (sortStreams streams).filter (fun x => decide (x.taken < x.octets.length) || !(newBytes s x).isEmpty || x.ends)

/-- Length of a chunk: a multiple of 64 with room for its commit word (R444). -/
def chunkLen (n : Nat) : Nat := ceilDiv (n + 4) 64 * 64

/-- What each engine has taken of every stream once the chunk of the turn is formed. -/
def takeStreams (s : State) : State :=
  forEach engines (fun e t => t.setData e (fun d =>
    { d with
      restarted := false
      streams := (d.streams.filter (fun x => !x.ends)).map (fun x =>
        { x with taken := x.octets.length, emitted := (streamBytes x.codec (aLawOf s x.port) x.octets x.ends).length,
                 begins := false, first := 0 }) })) s

/-- The engine whose capture writer writes: the active engine (R306), or the one that incumbency is still moving from. -/
def State.writerEng (s : State) : Option Eng :=
  match s.duplex.incumbency with
  | .held e | .moving e _ => some e
  | .nobody => none

/-- Of a writer and its partner, the engine whose coders hold the octets of the turn: the writer, while it computes. -/
def coderEng (s : State) (e : Eng) : Eng := if (s.eng e).ctl.computing || !(s.eng e.other).ctl.computing then e else e.other

/-- The chunk of turn `t` falls due (R443), or is dropped because two wait already (R419). -/
def formChunk (t : Nat) (s : State) : State :=
  match s.writerEng with
  | none => takeStreams s
  | some e =>
    let c := s.capture
    let d := (s.eng (coderEng s e)).data
    if !d.streams.any (fun x => decide (x.taken < x.octets.length)) then takeStreams s
    else
      let drop := c.dropping || decide (2 ≤ c.chunks.length)
      if drop then
        takeStreams { s with capture := { c with dropping := true, drops := satAdd 0xFFFF c.drops 1, dropped := satAdd 0xFFFF c.dropped 1 } }
      else
        let segs := segmentsOf s d.streams
        let body := segs.flatMap (segment s) ++ segs.flatMap (newBytes s)
        let len := chunkLen (32 + body.length)
        let flags := b2n (t % 250 == 0) + 2 * b2n (t % 250 == 249) + 4 * b2n d.restarted
        let qual := c.turnQual ||| (if s.time.switchedOld then 0x20 else 0)
        takeStreams (queueRecord e
          (capRecord (capHeader 1 (writerNum e) 0 (BitVec.ofNat 64 (t * 65536)) qual flags segs.length len 0) body len 0) s)

/-- Streams whose slot the active page no longer taps, or taps under another codec, end (R294). -/
def endChanged (s : State) : State :=
  forEach engines (fun e t => t.setData e (fun d => { d with streams := d.streams.map (fun x =>
      { x with ends := x.ends || !s.capture.gate || !(tapEntry s e x.port x.slot).t ||
        (tapEntry s e x.port x.slot).codec != x.codec }) })) s

/-- Every stream of both engines ends (R294). -/
def endStreams (s : State) : State :=
  forEach engines (fun e t => t.setData e (fun d => { d with streams := d.streams.map (fun x => { x with ends := true }) })) s

/-- The capture path at a turn boundary T:0:0, after step 5: streams end at a second boundary (R294), and the chunk of the
turn just ended is formed. -/
def captureTurn (s : State) : State :=
  let t := s.pos.t.toNat
  let s1 := endChanged s
  let s2 := if isSecond t then endStreams s1 else s1
  let s3 := formChunk (t - 1) s2
  { s3 with capture := { s3.capture with turnQual := s.qual, dropping := s3.capture.dropping && !isSecond t } }

/-- Capture start (R397): the gate opens and every tapped slot starts a new stream. -/
def captureStart (s : State) : State :=
  let s1 := endStreams s
  { s1 with capture := { s1.capture with gate := true } }

/-- Capture stop (R397). -/
def captureStop (s : State) : State := { s with capture := { s.capture with gate := false } }

/-! ### Seams (R446) -/

/-- The seam record that a new active writer writes (R446): `prev` the previous writer, `cause` what lowered the previous
active engine, `cont`: the streams continue unbroken, `q`: the first frame whose octets it codes. -/
def seam (e : Eng) (prev : Option Eng) (cause : Nat) (cont : Bool) (q : BitVec 64) (s : State) : State :=
  let body := leBytes 1 (match prev with | some p => p.num | none => 0xFF) ++ leBytes 1 cause ++
    leBytes 1 s.policy.code ++ leBytes 1 (b2n cont) ++ leBytes 8 q.toNat
  let s1 := queueRecord e (capRecord (capHeader 2 (writerNum e) 0 s.stamp s.qual 0 0 64 0) body 64 0) s
  { s1 with capture := { s1.capture with writer := some e } }

/-- What the former writer still requests is never written; a burst granted ends, and commits nothing more ("Where things meet" of
16_matrix_memories_tally). -/
def TargetSt.dropCapture (x : TargetSt) : TargetSt :=
  { x with
    busy := x.busy.map (fun q => if q.fn == .captureRing then { q with commit := false } else q)
    waiting := x.waiting.filter (fun w => w.1.fn != .captureRing) }

/-- CCLK in a tick (R42, R47). -/
def cclkPerTick : Nat := 16

/-- What requests have waited so far counts under their masters (R434). -/
def Matrix.chargeWaits (now : Nat) (m : Matrix) : Matrix :=
  let charge := fun (v : Vector MasterSt 6) (x : TargetSt) => x.waiting.foldl (fun v w =>
    updV v (masterNum w.1.master) (fun c => { c with wait := satAdd 0xFFFFFFFF c.wait ((now - w.2) * cclkPerTick) })) v
  let mark := fun (x : TargetSt) => { x with waiting := x.waiting.map (fun w => (w.1, now)) }
  { m with
    masters := [m.flash, m.psram, m.fram, m.sram].foldl charge m.masters
    flash := mark m.flash, psram := mark m.psram, fram := mark m.fram, sram := mark m.sram }

/-- The new active writer takes over (R446): the former writer's records that wait are never committed; with `cont` the
new writer writes their chunks in full after the seam, and otherwise they are lost and every stream starts afresh. -/
def takeWriter (e : Eng) (prev : Option Eng) (cause : Nat) (cont : Bool) (q : BitVec 64) (s : State) : State :=
  let old := s.capture.chunks
  let m := s.matrix.chargeWaits s.now
  let s0 := if cont then s else s.setData e (fun d => { d with streams := [], restarted := false })
  let s1 := { s0 with
    capture := { s0.capture with waiting := [], hand := none, made := 0 }
    matrix := { m with psram := m.psram.dropCapture } }
  let s2 := seam e prev cause cont q s1
  if cont then forEach old (queueRecord e) s2 else s2

end Sys2Proof.Machine
end

