-- ==== Sys2Proof/Machine/Partner.lean ====
section
/-! DEFINITION. The partner channel (14_partner_channel): checks on a received frame, the messages, the sending order, and
the meetings of dozing partners. Keeper-crystal instants are counted in periods since RESET_N was last released. -/

namespace Sys2Proof.Machine

/-! ### Receivers that start and stop -/

/-- A receiver begins to run: SEARCH with LOF in force, recorded as no onset (R180), and a series of AIS windows begins with
its first bit (R173). -/
def startReceiver (x : PortSt) : PortSt :=
  { x with
    line := { x.line with running := true, los := false, ais := false, win := .reset }
    framer := x.framer.search
    slip := { x.slip.suspend with history := [], lastRead := none, lastQ := none, nextOut := none }
    raw := { x.raw with ran := false, lof := true } }

/-- A receiver stops. DESIGN CHOICE (assumption 128): a LOS or AIS it had declared ends with it, and the capture unit, which
stops with the receiver (R127), records no clear; the manual does not say what becomes of either. -/
def stopReceiver (x : PortSt) : PortSt :=
  { x with
    line := { x.line with running := false, los := false, ais := false }
    framer := x.framer.search
    slip := x.slip.suspend
    raw := { x.raw with ran := false } }

/-- Run or stop the receiver of a port. -/
def runReceiver (on : Bool) (x : PortSt) : PortSt :=
  if on && !x.line.running then startReceiver x else if !on && x.line.running then stopReceiver x else x

/-! ### A received frame (R364 to R371) -/

/-- ADDR of a role (R364). -/
def PartRole.addr : PartRole → Nat
  | .leader => 0x01
  | .follower _ => 0x03
  | _ => 0x05

/-- Message types (R366). -/
inductive Msg where
  | mirror | ack | time | meet
  deriving DecidableEq, Repr

def Msg.code : Msg → Nat
  | .mirror => 1 | .ack => 2 | .time => 3 | .meet => 4

/-- Length in octets of a message, FCS included (R366). -/
def Msg.len : Msg → Nat
  | .mirror => 11 | .ack => 6 | .time => 24 | .meet => 9

/-- Addresses of the roles that send a message (R366). -/
def Msg.senders : Msg → List Nat
  | .mirror => [0x01]
  | .ack => [0x03]
  | _ => [0x01, 0x03, 0x05]

/-- Keeper-crystal periods of the MEET interval; 0: no MEET (R102, R381). -/
def State.meetPeriods (s : State) : Nat := s.fabric.meet * 32768

/-- This role accepts a message (R366). -/
def State.accepts (s : State) (m : Msg) : Bool :=
  match m, s.partner.role with
  | .mirror, .follower _ => true
  | .mirror, _ => false
  | .ack, .leader => true
  | .ack, _ => false
  | .time, _ => true
  | .meet, _ => s.fabric.meet != 0

/-- A frame passes every check of R367 that does not depend on the receiver. -/
def frameSound (m : Msg) (w : PartnerFrame) : Bool :=
  !w.aborted && fcsGood w.octets && (w.octets.length == m.len) && (byteAt w.octets 1 == 0x03) &&
    ((byteAt w.octets 2).toNat / 16 == m.code) && m.senders.contains (byteAt w.octets 0).toNat

/-- A frame counts as valid (R367). -/
def frameValid (s : State) (m : Msg) (w : PartnerFrame) : Bool := frameSound m w && s.accepts m

/-- SEQ of a frame (R364). -/
def seqField (w : PartnerFrame) : BitVec 4 := BitVec.ofNat 4 ((byteAt w.octets 2).toNat % 16)

/-- A frame is discarded and counted; a MIRROR received by a leader sets ROLE_CONFLICT (R367). -/
def discardFrame (m : Msg) (w : PartnerFrame) (s : State) : State :=
  let s1 := { s with ptime := { s.ptime with discarded := satAdd 0xFFFF s.ptime.discarded 1 } }
  if m = .mirror ∧ frameSound m w ∧ s.partner.role = .leader then s1.flagPartner .roleConflict else s1

/-- A valid frame is counted (R386). -/
def countValid (s : State) : State := { s with ptime := { s.ptime with valid := satAdd 0xFFFF s.ptime.valid 1 } }

/-- The channel receives (R362): on, and out of DOZE. -/
def State.partnerHears (s : State) : Bool := s.partnerOn && !s.keeper.dozing

/-- SERIAL of the copy in use (R94). -/
def State.serial (s : State) : Nat := imgSerial s.image.flash s.image.copy

/-- The four levels a MIRROR carries: MODE, PAGE, CMD, TALLY (R368). -/
def mirrorLevels (w : PartnerFrame) : Vector (BitVec 4) 4 :=
  let a := (byteAt w.octets 3).toNat
  let b := (byteAt w.octets 4).toNat
  Vector.ofFn (fun i : Fin 4 => BitVec.ofNat 4 (if i = 0 then a % 16 else if i = 1 then a / 16 else if i = 2 then b % 16
    else b / 16))

/-- A valid MIRROR of another SERIAL: the follower's own values stay in force, and mirrored values before it give way to them (R377). -/
def Partner.disregard (p : Partner) : Partner :=
  { p with toForce := none, revert := p.revert || p.inForce.isSome }

/-- MIRROR_RECEIVED (R367, R377). -/
def mirrorArrives (w : PartnerFrame) (s : State) : State :=
  if !s.partnerHears then s
  else if !frameValid s .mirror w then discardFrame .mirror w s
  else
    let same := leField w.octets 5 4 == s.serial
    let s1 := countValid s
    let p := { s1.partner.setState 2 with sinceValid := 0, ackDue := some (seqField w, !same) }
    let s2 := { s1 with partner := if same then { p with revert := false, toForce := some (mirrorLevels w) } else p.disregard }
    if same then s2 else s2.flagPartner .serialMismatch

/-- ACK_RECEIVED (R367, R376). -/
def ackArrives (w : PartnerFrame) (s : State) : State :=
  if !s.partnerHears then s
  else if !frameValid s .ack w then discardFrame .ack w s
  else
    let s1 := countValid s
    if seqField w = s1.partner.seq then { s1 with partner := { s1.partner.setState 2 with unacked := 0 } }
    else { s1 with ptime := { s1.ptime with stale := satAdd 0xFFFF s1.ptime.stale 1 } }

/-- A valid TIME or MEET makes a peer's partner FOUND (R380). -/
def peerFound (s : State) : State :=
  if s.partner.role = .peer then { s with partner := { s.partner.setState 2 with sinceValid := 0 } } else s

/-- A stamp of a line die as KP keeps it (R370, R372): without one there is no stamp of that TIME. -/
def stampKept (x : Option (Nat × BitVec 8)) (sq : BitVec 4) : Option TimeStamp :=
  x.map (fun v => ⟨BitVec.ofNat 64 v.1, v.2, sq⟩)

/-- TIME_RECEIVED (R367, R370, R372): the line die of the partner port has reported when the first bit of octet 0 was extracted. -/
def timeArrives (w : PartnerFrame) (s : State) : State :=
  if !s.partnerHears then s
  else if !frameValid s .time w then discardFrame .time w s
  else
    let s1 := peerFound (countValid s)
    { s1 with ptime := { s1.ptime with
        gotTime := stampKept (s1.die (dieOf s1.fabric.port)).inStamp (seqField w), gotOctets := (w.octets.drop 3).take 19 } }

/-! ### Sending (R373) -/

/-- The octets of a message without its FCS (R364). -/
def messageOctets (s : State) (m : Msg) (sq : BitVec 4) (payload : List Byte) : List Byte :=
  leBytes 1 s.partner.role.addr ++ leBytes 1 0x03 ++ leBytes 1 (m.code * 16 + sq.toNat) ++ payload

/-- KP launches a frame: as packet cells to the engines, and counted as sent (R237, R373, R376). -/
def launch (m : Msg) (octets : List Byte) (s : State) : State :=
  let frame := withFcs octets
  let sq := s.partner.packetSeq
  let s1 := { s with
    partner := { s.partner with
      out := some ⟨m.code, frame⟩, packetSeq := sq + BitVec.ofNat 16 (cellsOfOctets frame.length)
      unacked := if m = .mirror then s.partner.unacked + 1 else s.partner.unacked }
    ptime := { s.ptime with
      launched := satAdd 0xFFFF s.ptime.launched 1
      timeSeq := if m = .time then s.ptime.timeSeq + 1 else s.ptime.timeSeq } }
  match s.partnerTx with
  | none => s1
  | some p => forEach engines (fun e t =>
      if (t.eng e).ctl.running then
        t.setData e (fun d => { d with
          fromKeeper := (packetCells 32 p.val false e sq frame).foldl (fun l c => l.push keeperSpan c) d.fromKeeper })
      else t) s1

/-- The transmitting port sends RAI on ESF (R198, "Where things meet"). -/
def State.esfRai (s : State) (p : Port) : Bool := s.partner.carriage == .fdl && receiverDown s.ports[p]

/-- A frame can be launched now (R373). -/
def State.canLaunch (s : State) : Bool :=
  s.partner.out.isNone && (match s.partnerTx with | some p => !s.esfRai p | none => false)

/-- Launch the pending frame of highest priority, in the order ACK, MIRROR, MEET, TIME (R373), at a keeper-crystal
instant. -/
def launchPending (keeper : Nat) (s : State) : State :=
  if !s.canLaunch then s
  else match s.partner.pendAck, s.partner.pendMirror, s.partner.pendMeet, s.partner.pendTime with
    | some f, _, _, _ => launch .ack f.octets { s with partner := { s.partner with pendAck := none } }
    | none, some f, _, _ => launch .mirror f.octets { s with partner := { s.partner with pendMirror := none } }
    | none, none, some f, _ => launch .meet f.octets
        { s with partner := { s.partner with pendMeet := none }, ptime := { s.ptime with lastMeet := some keeper } }
    | none, none, none, some f => launch .time f.octets { s with partner := { s.partner with pendTime := none } }
    | none, none, none, none => s

/-- The leader's mirrored state: its four accepted values in effect, a held value as level 0, and SERIAL (R368, R375). -/
def State.mirrorState (s : State) : List Nat :=
  (s.keys.live.toList.map (fun k => (k.value.getD 0).toNat)) ++ [s.serial]

/-- The MIRROR of the present state (R368). -/
def mirrorFrame (s : State) : Pending :=
  let v := fun i => s.mirrorState.getD i 0
  ⟨messageOctets s .mirror s.partner.seq
    (leBytes 1 (v 0 + 16 * v 1) ++ leBytes 1 (v 2 + 16 * v 3) ++ leBytes 4 s.serial)⟩

/-- Queue a MIRROR; one that falls due while eight are unacknowledged makes the partner LOST (R375, R376). -/
def queueMirror (s : State) : State :=
  let p := s.partner
  let q := { p with pendMirror := some (mirrorFrame s), sinceMirror := 0, mirrored := some s.mirrorState }
  { s with partner := if 8 ≤ p.unacked then q.setState 3 else q }

/-- The leader's mirroring at a turn boundary (R375): SEQ is 0 for the first state, and advances with each change. -/
def mirrorTurn (s : State) : State :=
  if s.partner.role = .leader then
    let s1 := { s with partner := { s.partner with sinceMirror := s.partner.sinceMirror + 1 } }
    match s1.partner.mirrored with
    | none => queueMirror s1
    | some old =>
      if old = s1.mirrorState then (if 16 ≤ s1.partner.sinceMirror then queueMirror s1 else s1)
      else queueMirror { s1 with partner := { s1.partner with seq := s1.partner.seq + 1 } }
  else s

/-- A stamp, its quality and its SEQ as TIME carries them (R370): without one the quality is 0xFF, and the manual gives the
other fields no value (free values). -/
def stampFields (t : Option TimeStamp) (free : Nat → Byte) : List Byte × Nat :=
  match t with
  | some x => (leBytes 8 x.stamp.toNat ++ leBytes 1 x.qual.toNat, x.seq.toNat)
  | none => ((List.range 8).map free ++ [0xFF], (free 8).toNat % 16)

/-- Queue a TIME at T mod 250 = 125 (R374). -/
def queueTime (s : State) : State :=
  if s.pos.t.toNat % 250 = 125 then
    let (a, i) := stampFields s.ptime.ownTime (fun n => Config.freeByte (s.freeIdx + n))
    let (b, j) := stampFields s.ptime.gotTime (fun n => Config.freeByte (s.freeIdx + 9 + n))
    let f := messageOctets s .time s.ptime.timeSeq (a ++ b ++ leBytes 1 (i + 16 * j))
    { s with freeIdx := s.freeIdx + 18, partner := { s.partner with pendTime := some ⟨f⟩ } }
  else s

/-- Queue the ACK due (R369, R377). -/
def queueAck (s : State) : State :=
  match s.partner.ackDue with
  | none => s
  | some (sq, differs) =>
    let f := messageOctets s .ack sq (leBytes 1 (b2n (!differs) + 2 * b2n differs))
    { s with partner := { s.partner with ackDue := none, pendAck := some ⟨f⟩ } }

/-- The instant lies within 100 ms before the next meeting instant (R381). -/
def meetingSoon (s : State) (now : Nat) : Bool :=
  s.fabric.meet != 0 && decide (now ≤ s.ptime.nextMeet ∧ (s.ptime.nextMeet - now) * 10 ≤ 32768)

/-- The partner channel at step 7 of a turn boundary (R25, R373 to R376). -/
def partnerTurn (keeper : Nat) (s : State) : State :=
  if s.partnerOn then
    let s1 := queueTime (mirrorTurn (queueAck { s with partner := { s.partner with sinceValid := s.partner.sinceValid + 1 } }))
    if meetingSoon s1 keeper then s1 else launchPending keeper s1
  else s

/-- PARTNER_FRAME_SENT (R372, R373): the line die reports the frame fully sent; a TIME's launch stamp is kept. -/
def frameSent (s : State) : State :=
  match s.partner.out with
  | none => s
  | some o =>
    let s1 := { s with partner := { s.partner with out := none } }
    if o.type = Msg.time.code then
      { s1 with ptime := { s1.ptime with
          ownTime := stampKept (s.die (dieOf s.fabric.port)).outStamp (seqField ⟨o.octets, false⟩) } }
    else s1

/-- PARTNER_LOST (R380): a follower's own values take effect at the next turn boundary. -/
def partnerLost (s : State) : State :=
  let p := s.partner
  match p.role with
  | .follower _ =>
    if p.state = 2 ∧ 136 ≤ p.sinceValid then
      { s with partner := { p.setState 3 with revert := true, toForce := none } }
    else s
  | .peer => if (p.state = 1 ∨ p.state = 2) ∧ 750 ≤ p.sinceValid then { s with partner := p.setState 3 } else s
  | _ => s

/-! ### Meetings (R381 to R385) -/

/-- Periods of 50 ms, 200 ms and 5 s, rounded down: arrivals are whole periods. -/
def Window.half : Window → Nat
  | .narrow => 1638
  | .middle => 6553
  | .wide => 163840

/-- The next wider window after one that found nothing (R384). -/
def Window.wider : Window → Window
  | .narrow => .middle
  | _ => .wide

/-- Offset of an instant from the party's own scheduled instant nearest to it (R382). -/
def meetOffset (s : State) (a : Nat) : Int :=
  let x : Int := (a : Int) - (s.ptime.nextMeet : Int)
  let y : Int := x + (s.meetPeriods : Int)
  if y.natAbs < x.natAbs then y else x

/-- The party has itself launched a MEET within the last I/2, or since that MEET began to arrive (R382). -/
def launchedLately (s : State) (a : Nat) : Bool :=
  match s.ptime.lastMeet with
  | some l => decide (2 * (a - l) ≤ s.meetPeriods)
  | none => false

/-- Set the next meeting instant from a received MEET (R382). -/
def realign (a : Nat) (s : State) : State :=
  if launchedLately s a then s
  else { s with ptime := { s.ptime with offset := meetOffset s a, nextMeet := a + s.meetPeriods } }

/-- The line die of the partner port, powered for a meeting, stops again (R383). -/
def endListening (s : State) : State :=
  let p := s.fabric.port
  let s1 := (s.setDie (dieOf p) (fun d => { d with powered := false })).setPort p stopReceiver
  { s1 with ptime := { s1.ptime with listening := false } }

/-- A MEET found in a listening window of DOZE (R383, R384). -/
def meetFound (a : Nat) (s : State) : State :=
  let o := meetOffset s a
  let s1 := endListening (realign a (peerFound (countValid s)))
  { s1 with ptime := { s1.ptime with
      meets := satAdd 0xFFFF s1.ptime.meets 1, window := if o.natAbs ≤ Window.narrow.half then .narrow else .middle } }

/-- An instant lies within the listening window (R384). -/
def State.inWindow (s : State) (a : Nat) : Bool :=
  s.ptime.listening && decide (s.ptime.windowAt ≤ a + s.ptime.window.half ∧ a ≤ s.ptime.windowAt + s.ptime.window.half)

/-- MEET_RECEIVED (R367, R382 to R384). -/
def meetArrives (w : PartnerFrame) (a : Nat) (s : State) : State :=
  if !s.partnerOn then s
  else if s.keeper.dozing && !s.inWindow a then s
  else if !frameValid s .meet w then discardFrame .meet w s
  else if s.keeper.dozing then meetFound a s
  else realign a (peerFound (countValid s))

/-- A MEET of this party (R371). The manual gives its SEQ no value: a free value. -/
def meetFrame (s : State) : List Byte × State :=
  let sq := BitVec.ofNat 4 ((Config.freeByte s.freeIdx).toNat % 16)
  (messageOctets s .meet sq (leBytes 4 s.ptime.meetCount.toNat), { s with freeIdx := s.freeIdx + 1 })

/-- A MEET is due: launched at once, or pending while another frame is outstanding (R373, R381). -/
def sendMeet (a : Nat) (s : State) : State :=
  if s.partnerTx.isSome then
    let (f, s1) := meetFrame s
    if s1.canLaunch then
      let s2 := launch .meet f s1
      { s2 with ptime := { s2.ptime with lastMeet := some a } }
    else { s1 with partner := { s1.partner with pendMeet := some ⟨f⟩ } }
  else s

/-- The instant is a scheduled one: the next, or a later one where those before it passed with the channel off. -/
def State.meetsAt (s : State) (a : Nat) : Bool :=
  decide (s.ptime.nextMeet ≤ a) && (a - s.ptime.nextMeet) % s.meetPeriods == 0

/-- MEETING_INSTANT (R381, R473): after a failure of main power in DOZE, a window that is not held widens the next. -/
def meetingInstant (a : Nat) (s : State) : State :=
  if s.partnerOn && s.fabric.meet != 0 && s.meetsAt a then
    let n := (a - s.ptime.nextMeet) / s.meetPeriods + 1
    let s1 := { s with ptime := { s.ptime with
        meetCount := s.ptime.meetCount + BitVec.ofNat 32 n, nextMeet := a + s.meetPeriods } }
    if s1.keeper.power != .main then
      if s1.ptime.skipping then { s1 with ptime := { s1.ptime with window := s1.ptime.window.wider } } else s1
    else if s1.keeper.dozing || !s1.time.counting then s1
    else sendMeet a s1
  else s

/-- The listening window about the next meeting instant opens within this keeper-crystal period (R384). -/
def State.windowDue (s : State) (a : Nat) : Bool :=
  let h := a + s.ptime.window.half
  decide (h ≤ s.ptime.nextMeet ∧ s.ptime.nextMeet ≤ h + 1)

/-- LISTENING_WINDOW_OPEN (R383, R384): the line die of the partner port and its receiver run, the termination off. -/
def windowOpens (a : Nat) (s : State) : State :=
  if s.partnerOn && s.fabric.meet != 0 && s.keeper.dozing && s.keeper.power == .main && !s.ptime.deaf &&
      !s.ptime.listening && s.windowDue a then
    let p := s.fabric.port
    let s1 := (s.setDie (dieOf p) (fun d => { d with powered := true })).setPort p startReceiver
    { s1 with ptime := { s1.ptime with listening := true, windowAt := s1.ptime.nextMeet } }
  else s

/-- LISTENING_WINDOW_END (R384, R385): a window that found nothing widens the next; after a 5 s window the party gives
up until DOZE ends. -/
def windowEnds (a : Nat) (s : State) : State :=
  if s.ptime.listening && decide (s.ptime.windowAt + s.ptime.window.half ≤ a) then
    let s1 := endListening s
    let s2 := { s1 with ptime := { s1.ptime with empty := satAdd 0xFFFF s1.ptime.empty 1, window := s1.ptime.window.wider } }
    if s.ptime.window = .wide then
      let s3 := { s2 with partner := s2.partner.setState 3, ptime := { s2.ptime with deaf := true } }
      (s3.flagPartner .drift).raise .drift
    else s2
  else s

/-- RESET_N is released, or DOZE ends: STATE is searching, SEQ and counts restart at 0, and own keys are in force ("Where
things meet"). -/
def Partner.restart (p : Partner) : Partner :=
  let q := { p with
    seq := 0, mirrored := none, sinceMirror := 0, unacked := 0, pendAck := none, pendMirror := none, pendMeet := none,
    pendTime := none, out := none, inForce := none, toForce := none, revert := false, pageKept := false, ackDue := none,
    sinceValid := 0, inOctets := [], inOpen := false }
  (q.setState (if p.state = 0 then 0 else 1)).setObeying false

/-- A start without a release of RESET_N (R463): SEQ and the unacknowledged count go on (R370, R375). DEDUCED (assumption 101): what
hangs on the dies and on keys in force before the start is gone. -/
def Partner.again (p : Partner) : Partner :=
  let q := { p with
    out := none, inForce := none, toForce := none, revert := false, pageKept := false, ackDue := none, sinceValid := 0,
    inOctets := [], inOpen := false }
  (q.setState (if p.state = 0 then 0 else 1)).setObeying false

def execMirrorReceived (w : PartnerFrame) (k : Tick) (s : State) : Host.Outcome State Fault Refusal :=
  .next (mirrorArrives w (atTick k s))

def execAckReceived (w : PartnerFrame) (k : Tick) (s : State) : Host.Outcome State Fault Refusal :=
  .next (ackArrives w (atTick k s))

def execTimeReceived (w : PartnerFrame) (k : Tick) (s : State) : Host.Outcome State Fault Refusal :=
  .next (timeArrives w (atTick k s))

def execMeetReceived (w : PartnerFrame) (a : Nat) (k : Tick) (s : State) : Host.Outcome State Fault Refusal :=
  .next (meetArrives w a (atTick k s))

def execPartnerFrameSent (k : Tick) (s : State) : Host.Outcome State Fault Refusal := .next (frameSent (atTick k s))

def execPartnerLost (s : State) : Host.Outcome State Fault Refusal := .next (partnerLost s)

def execMeetingInstant (a : Nat) (s : State) : Host.Outcome State Fault Refusal := .next (meetingInstant a s)

def execListeningWindowOpen (a : Nat) (s : State) : Host.Outcome State Fault Refusal := .next (windowOpens a s)

def execListeningWindowEnd (a : Nat) (s : State) : Host.Outcome State Fault Refusal := .next (windowEnds a s)

end Sys2Proof.Machine
end

