-- ==== Sys2Proof/Machine/Duplex.lean ====
section
/-! DEFINITION. The duplicated engines (12_duplicate_engines): culprits, health rises, resync and cold rejoin, incumbency,
retention, and the loss of a die (R336, R449, R506). -/

namespace Sys2Proof.Machine

/-! ### Sync words (R325) -/

/-- What the state digest covers (R325): the next packet SEQ of every flow, pattern state, codec state and protection state. -/
structure Digested where
  seqs    : List (Option (BitVec 16))
  pats    : Vector PatSt 16
  streams : List Stream
  reqs    : Vector PairReq 16
  deriving DecidableEq

/-- Next packet SEQ of a flow in an engine. -/
def EngData.nextSeq (d : EngData) (src dest : Nat) : Option (BitVec 16) :=
  (d.flows.find? (fun f => f.flow.cls == .packet && f.flow.src == src && f.flow.dest == dest)).map (fun f => f.next)

/-- What an engine's digest covers. -/
def EngData.digested (d : EngData) : Digested :=
  { seqs := allPorts.flatMap (fun p => [d.nextSeq p.val 32, d.nextSeq 32 p.val]), pats := d.pats, streams := sortStreams d.streams
    reqs := d.reqs }

/-- Bits as bytes, with a mark before the first. -/
def bitBytes (l : List Bool) : List Byte := leBytes 33 (l.foldl (fun a b => 2 * a + b2n b) 1)

/-- Pattern state as bytes. -/
def patBytes (x : PatSt) : List Byte :=
  let due := match x.ana.due with | .none => 0 | .sync => 1 | .loss => 2
  [b2n x.active, b2n x.gen.running, x.gen.reg.toNat, x.gen.phase, x.gen.zeros, x.gen.counted, b2n x.gen.once, b2n x.ana.inSync,
    x.ana.reg.toNat, x.ana.loaded, x.ana.correct, x.ana.phase, x.ana.zeros, x.ana.blkBits, x.ana.blkErrs, b2n x.ana.hunted,
    due].flatMap (leBytes 4) ++ bitBytes x.ana.recent ++ bitBytes x.ana.rest ++ x.c.toList.flatMap (fun v => leBytes 4 v.toNat)

/-- Codec state as bytes: of each stream what it is, its octets and completed bytes not yet in a chunk, and what its coder holds. -/
def codecBytes (aLaw : Port → Bool) (x : Stream) : List Byte :=
  [x.port.val, x.slot, x.codec.toNat, x.octets.length - x.taken, b2n x.begins, x.first, b2n x.ends].flatMap (leBytes 4) ++
    (streamBytes x.codec (aLaw x.port) x.octets x.ends).drop x.emitted ++ x.coder (aLaw x.port)

/-- Protection state of a pair as bytes. -/
def reqBytes (x : PairReq) : List Byte :=
  let h := fun (y : HoldOff) => [y.frames, b2n y.request]
  (h x.hoSfW ++ h x.hoSfP ++ h x.hoSdW ++ h x.hoSdP ++ [(x.wtr.map (· + 1)).getD 0, x.req, b2n x.word]).flatMap (leBytes 4)

/-- The bytes of a state digest. DESIGN CHOICE (assumption 146): the manual names what it covers and gives no layout. -/
def Digested.bytes (aLaw : Port → Bool) (x : Digested) : List Byte :=
  x.seqs.flatMap (fun v => match v with | some n => leBytes 4 (n.toNat + 1) | none => leBytes 4 0) ++ x.pats.toList.flatMap patBytes ++
    x.streams.flatMap (codecBytes aLaw) ++ x.reqs.toList.flatMap reqBytes

/-- The state digest of an engine (R325); `fault`: the bits in which a fault of the engine changes it. -/
def stateDigest (s : State) (e : Eng) (fault : BitVec 32) : BitVec 32 := crc32 ((s.eng e).data.digested.bytes (aLawOf s)) ^^^ fault

/-- The state digests of the two engines are equal: of equal state when the faults are, and otherwise as their CRCs are. -/
def digestsAgree (s : State) (faultX faultY : BitVec 32) : Bool :=
  if s.engX.data.digested = s.engY.data.digested then faultX == faultY else stateDigest s .ex faultX == stateDigest s .ey faultY

/-- Load state of a shadow: empty, loading, complete with a good CRC, complete with a bad one (R325). -/
def Shadow.loadState : Shadow → Nat
  | .empty => 0
  | .loading _ => 1
  | .complete _ _ true => 2
  | .complete _ _ false => 3

/-- The sync words of the two engines agree; the digest is not compared under WARM (R325). -/
def syncAgrees (s : State) (faultX faultY : BitVec 32) : Bool :=
  let x := s.engX.data
  let y := s.engY.data
  (x.active == y.active) && (activeCrc s .ex == activeCrc s .ey) && (x.shadow.page == y.shadow.page) &&
    (x.shadow.loadState == y.shadow.loadState) && (s.policy == .warm || digestsAgree s faultX faultY)

/-- Both engines exchange sync words. -/
def syncExchanged (s : State) : Bool := engines.all (fun e => (s.eng e).ctl.running)

/-- The sync words of a frame boundary are compared; a difference is a mismatch of the frame (R325, R327). -/
def syncWords (faultX faultY : BitVec 32) (s : State) : State :=
  if syncExchanged s then
    let ok := syncAgrees s faultX faultY
    let s1 := forEach engines (fun e t => t.setCtl e (fun c =>
      { c with syncRun := if ok then min 8 (c.syncRun + 1) else 0 })) s
    if ok then s1
    else { s1 with duplex := { s1.duplex with mismatches := ⟨none, seqOf s.pos.frames, 0, none⟩ :: s1.duplex.mismatches } }
  else s

/-! ### Culprits (R328) -/

/-- The row of R328 that applies to a mismatch. -/
inductive Verdict where
  | rally (e : Eng)
  | scrub (e : Eng)
  | missing (e : Eng)
  | active
  | standby
  deriving DecidableEq, Repr

/-- The first engine with a property, EX before EY. -/
def firstEng (f : Eng → Bool) : Option Eng := engines.find? f

/-- The one engine that shows evidence. DESIGN CHOICE (assumption 147): where both show it, the row names neither, and the next row
is looked at. -/
def oneEng (f : Eng → Bool) : Option Eng := if f .ex && f .ey then none else firstEng f

/-- The standby was judged out of step within the last 8 turns, has completed a resync, and the port mismatched then. -/
def judgedBefore (s : State) (m : Mismatch) : Bool :=
  match s.duplex.judgedAt, m.port with
  | some t, some p => decide (s.pos.t.toNat ≤ t + 8) && s.duplex.resynced && s.duplex.judgedPorts.contains p
  | _, _ => false

/-- The first applicable row of R328; a substitution is charged to the engine whose cell was missing (R330). -/
def verdict (s : State) (m : Mismatch) : Verdict :=
  match m.by_ with
  | some e => .missing e
  | none => match oneEng (fun e => (s.eng e).ctl.rallyFail || (s.eng e).ctl.rallyFailOld) with
    | some e => .rally e
    | none => match oneEng (fun e => !(s.eng e).ctl.scrubOk) with
      | some e => .scrub e
      | none => match oneEng (fun e => (s.eng e).ctl.lateNow) with
        | some e => .missing e
        | none => if judgedBefore s m then .active else .standby

/-- The engine that a verdict names. -/
def culpritOf (s : State) : Verdict → Option Eng
  | .rally e | .scrub e | .missing e => some e
  | .active => s.activeEng
  | .standby => s.standby

/-- What KP does to the culprits of a frame (R328). -/
def actOn (v : Verdict) (s : State) : State :=
  match v with
  | .missing e =>
    if s.activeEng = some e ∧ 1 ≤ (s.eng e).ctl.lateRun then lowerHealth e 3 .mismatch s else s
  | .active => match s.activeEng with
    | some e => lowerHealth e 3 .mismatch s
    | none => s
  | .standby => match s.standby with
    | some e =>
      if s.duplex.unexplained = 0 then lowerHealth e 4 .mismatch s
      else if (s.eng e).ctl.health ≤ 3 then s
      else
        let s1 := lowerHealth e 3 .mismatch s
        { s1 with duplex := { s1.duplex with
            judgedAt := some s.pos.t.toNat, judgedPorts := s.duplex.mismatches.filterMap (fun m => m.port), resynced := false } }
    | none => s
  | _ => s

/-- KP assigns the mismatches of the frame just ended (R327, R328), and counts them. -/
def assignCulprits (s : State) : State :=
  let vs := s.duplex.mismatches.map (verdict s)
  let s1 := forEach vs (fun v t =>
    match culpritOf s v with
    | some e => t.setEngTally e (fun x => { x with mismatch := satAdd 0xFFFFFFFF x.mismatch 1 })
    | none => t) s
  let blamed := engines.filter (fun e => vs.any (fun v => culpritOf s v == some e))
  let s2 := forEach blamed (fun e t => t.setEngTally e (fun x => { x with culprit := satAdd 0xFFFF x.culprit 1 })) s1
  let s3 := forEach engines (fun e t => t.setCtl e (fun c => { c with lateRun := if vs.contains (.missing e) then c.lateRun + 1 else 0 }))
    (forEach (vs.eraseDups) actOn s2)
  { s3 with duplex := { s3.duplex with
      mismatches := [], unexplained := if vs.contains .standby then s.duplex.unexplained + 1 else 0 } }

/-! ### Frame counts of an engine -/

/-- What an engine's frame has shown, at its end: runs of passing rally checks, frames of computing and since joining. -/
def EngCtl.endFrame (c : EngCtl) : EngCtl :=
  if c.running then
    { c with
      rallyRun := if c.rallyFail then 0 else min 8 (c.rallyRun + 1)
      computed := if c.computing then min 8 (c.computed + 1) else 0
      joined := min 8 (c.joined + 1) }
  else c

/-- What a line die holds of an engine, at the end of a frame: a held failure ends after 8 frames of passing checks
(R323). -/
def DieEng.endFrame (running : Bool) (k : DieEng) : DieEng :=
  let n := if k.failedNow || !running then 0 else k.passRun + 1
  { k with failedNow := false, passRun := n, hold := k.hold && decide (n < 8) }

/-- The frame of both engines and both dies ends. -/
def endEngFrames (s : State) : State :=
  let s1 := forEach engines (fun e t =>
    let f := (t.eng e).ctl.rallyFail
    (t.setCtl e (fun c => c.endFrame)).setEngTally e (fun x =>
      { x with rallyFail := if f then satAdd 0xFFFF x.rallyFail 1 else x.rallyFail })) s
  forEach lineDies (fun d t => forEach engines (fun e u =>
    let r := (u.eng e).ctl.running
    u.setDie d (fun x => x.setOfEng e (fun k => k.endFrame r))) t) s1

/-- The frame of both engines begins; an engine that is to begin computing does (R337). -/
def beginEngFrames (s : State) : State :=
  forEach engines (fun e t => t.setCtl e (fun c =>
    let c1 := c.newFrame
    if c1.startNext then { c1 with computing := true, startNext := false, computed := 0 } else c1)) s

/-! ### Incumbency (R311 to R313, R337) -/

/-- A WARM standby holds no codec, pattern or packet state and computes no output cells (R337). -/
def restPolicy (s : State) : Bool := s.policy == .warm && s.modes.mode != .proof

/-- The engine left without incumbency under WARM stops computing, and its health is at most 6 (R337). -/
def makeTracking (e : Eng) (s : State) : State :=
  if (s.eng e).ctl.powered then
    (s.setCtl e (fun c => { c with computing := false, startNext := false, computed := 0, health := min c.health 6 })).setEngTally e
      (fun t => { t with minHealth := min t.minHealth (min (s.eng e).ctl.health 6) })
  else s

/-- Packet frames in progress are aborted where they are delivered ("Where things meet": WARM fail-over). -/
def abortDeliveries (s : State) : State := dropInbound (forEach lineDies (fun d t => t.setDie d DieSt.abortFrame) s)

/-- A new active engine that was not computing starts from nothing (R337): codec, pattern and packet state are reset, frames in
progress are aborted, and it computes from the next frame boundary. -/
def startComputing (e : Eng) (s : State) : State :=
  let s1 := s.setData e (fun d =>
    { d with packet := [], frames := [], flows := d.flows.filter (fun f => f.flow.cls != .packet), streams := [], restarted := false })
  takePatterns e (abortDeliveries (s1.setCtl e (fun c => { c with startNext := true, computed := 0 })))

/-- The streams of both engines are the same from here on: one has taken the other's state, or the active one begins anew (R332,
R446). -/
def together (s : State) : State := forEach engines (fun e t => t.setCtl e (fun c => { c with apart := false })) s

/-- KP grants incumbency to an engine; `cause`: what lowered the one before, `q`: position frame from which its writer codes (R311,
R337, R446). -/
def grantTo (e : Eng) (prev : Option Eng) (cause : Nat) (cont : Bool) (q : BitVec 64) (s : State) : State :=
  let s1 := takeWriter e prev cause cont q (giveIncumbency e (together s))
  let s2 := if (s1.eng e).ctl.computing then s1 else startComputing e s1
  if restPolicy s2 then makeTracking e.other s2 else s2

/-- KP withdraws incumbency from the active engine (R311, R312). -/
def withdraw (s : State) : State :=
  match s.activeEng, s.standby with
  | some a, some b =>
    let ha := (s.eng a).ctl.health
    let hb := (s.eng b).ctl.health
    if !s.tap.halt && decide (ha < hb ∧ 4 ≤ hb) then
      let s1 := dropIncumbency a s
      { s1 with duplex := { s1.duplex with incumbency := .moving a s.now, clearSeen := false } }
    else s
  | _, _ => s

/-- HEARTBEAT_WORD (R311): a word of the withdrawn engine, as it sent it, with claim bit 0 clear lets KP grant. -/
def heartbeat (e : Eng) (claim : BitVec 4) (s : State) : State :=
  match s.duplex.incumbency with
  | .moving a _ =>
    if a = e ∧ (s.eng e).ctl.running ∧ claim.toNat = (s.eng e).ctl.word ∧ claim.getLsbD 0 = false then
      { s with duplex := { s.duplex with clearSeen := true } }
    else s
  | _ => s

/-- INCUMBENCY_GRANT (R311): to the other engine, once the withdrawn one shows its bit clear or 1024 ticks have passed. -/
def incumbencyGrant (s : State) : State :=
  match s.duplex.incumbency with
  | .moving a since =>
    if (s.duplex.clearSeen || decide (since + 1024 ≤ s.now)) && !s.tap.halt then
      let b := a.other
      if (s.eng b).ctl.running then
        let c := (s.eng b).ctl
        let cont := s.policy == .duplex && c.computing && !c.apart
        let q := if cont then s.pos.t.toNat * 65536 else (s.pos.frames + b2n (!c.computing)) * 2048
        grantTo b (some a) s.duplex.fell cont (BitVec.ofNat 64 q) s
      else { s with duplex := { s.duplex with incumbency := .nobody } }
    else s
  | _ => s

/-- At step 2, KP grants incumbency to an engine at health 7 when no engine holds it, EX first (R313). -/
def firstGrant (s : State) : State :=
  match s.duplex.incumbency with
  | .nobody =>
    match firstEng (fun e => (s.eng e).ctl.running && (s.eng e).ctl.health == 7) with
    | some e =>
      let cause := match s.capture.writer with | some p => (s.eng p).ctl.cause | none => 0
      if s.tap.halt then s else grantTo e s.capture.writer cause false s.pos.stamp s
    | none => s
  | _ => s

/-! ### Health rises at step 2 (R308 to R310) -/

/-- PROVEN or TRACKING, but for computing (R308). -/
def steady (s : State) (e : Eng) : Bool :=
  let c := (s.eng e).ctl
  decide (8 ≤ c.rallyRun) && c.scrubOk && (decide (8 ≤ c.syncRun) || decide ((s.eng e.other).ctl.health ≤ 3))

/-- The highest level of 5 to 7 whose conditions hold for an engine in lock-step: SETTLING until 8 frames have passed since
it joined (R308, R332, R335); 4 where none holds. -/
def lockLevel (s : State) (e : Eng) : Nat :=
  let c := (s.eng e).ctl
  if c.joined < 8 then 5
  else if steady s e then (if c.computing && decide (8 ≤ c.computed) then 7 else 6)
  else 4

/-- The level an engine rises to at step 2 (R308 to R310), from the health `h` it held before the boundary's first step. -/
def risen (s : State) (e : Eng) (h : Nat) : Nat :=
  let c := (s.eng e).ctl
  if !c.running then c.health
  else if c.health ≤ 1 then (if 8 ≤ c.rallyRun then 3 else c.health)
  else if c.health = 2 then (if h ≤ 2 then 3 else 2)
  else if c.health = 3 then 3
  else max c.health (lockLevel s e)

/-- Both engines rise. -/
def raiseHealth (hx hy : Nat) (s : State) : State :=
  let rx := risen s .ex hx
  let ry := risen s .ey hy
  (s.setCtl .ex (fun c => { c with health := rx })).setCtl .ey (fun c => { c with health := ry })

/-! ### Page scrub (R326) -/

/-- A byte of an engine's active memory: of its page as the image holds it, but for those disturbed. -/
def memoryByte (s : State) (e : Eng) (dist : List (Nat × Byte)) (i : Nat) : Byte :=
  match dist.find? (fun x => x.1 == i) with
  | some x => x.2
  | none => imgByte s.image.flash (s.eng e).data.activeCopy (pageBase (s.eng e).data.active + i)

/-- The CRC-32 an engine recomputes over its active memory (R93, R326). -/
def scrubCrc (s : State) (e : Eng) (dist : List (Nat × Byte)) : BitVec 32 :=
  let rd := memoryByte s e dist
  crc32Range rd (0x10000 - 0x100) 0x100 (crc32Range rd 0xFC 0 0xFFFFFFFF#32) ^^^ 0xFFFFFFFF#32

/-- An engine's scrub at a turn boundary (R326); `dist`: the bytes of its active memory that are not as they were loaded. DESIGN
CHOICE (assumption 148): at the boundary at which its rejoin begins, and which replaces that memory, it is not scrubbed; no rejoin
begins under HALT. -/
def scrub (e : Eng) (dist : List (Nat × Byte)) (s : State) : State :=
  let c := (s.eng e).ctl
  if c.running && (s.eng e).data.activeOk && !(c.health == 3 && c.rejoin == .none && !s.tap.halt) then
    let ok := dist.isEmpty || scrubCrc s e dist == activeCrc s e
    let s1 := s.setCtl e (fun c => { c with scrubOk := ok })
    if ok then s1 else lowerHealth e 2 .scrub s1
  else s

/-! ### Resync and cold rejoin (R332 to R335) -/

/-- The resyncing engine takes the pages of its partner (R332). -/
def copyPages (e : Eng) (s : State) : State :=
  let d := (s.eng e.other).data
  s.setData e (fun x =>
    { x with active := d.active, activeCopy := d.activeCopy, activeOk := d.activeOk, shadow := d.shadow, govern := d.govern,
             governCopy := d.governCopy })

/-- The resyncing engine takes the state of its partner as it stands (R332). -/
def copyState (e : Eng) (s : State) : State :=
  let d := (s.eng e.other).data
  (copyPages e s).setData e (fun x =>
    { x with circuit := d.circuit, packet := d.packet, stage := d.stage, flows := d.flows, frames := d.frames,
             rrOut := d.rrOut, rrIn := d.rrIn, cNotice := d.cNotice, pNotice := d.pNotice, reqs := d.reqs, pats := d.pats,
             streams := d.streams, restarted := d.restarted })

/-- An engine begins to replace its pages: its shadow is empty, and its active memory not yet good. -/
def dropPages (e : Eng) (s : State) : State := s.setData e (fun d => { d with shadow := .empty, activeOk := false })

/-- The page copy of a resync is complete, from the first frame boundary after the resync began (R332, R333), as long as its source
is at health 5 or above. -/
def pagesArrive (e : Eng) (s : State) : State :=
  match (s.eng e).ctl.rejoin with
  | .resync b false w =>
    if b * 65536 < s.now && (s.eng e.other).ctl.running && decide (5 ≤ (s.eng e.other).ctl.health) then
      (copyPages e s).setCtl e (fun c => { c with rejoin := .resync b true w })
    else s
  | _ => s

/-- While an engine resyncs, its partner forwards every change to the state it has copied, so that at each frame boundary both hold
the same (R332). -/
def stateFollows (e : Eng) (s : State) : State :=
  match (s.eng e).ctl.rejoin with
  | .resync _ _ true =>
    if (s.eng e.other).ctl.running && decide (5 ≤ (s.eng e.other).ctl.health) then copyState e s else s
  | _ => s

/-- An engine joins lock-step: it computes from this frame on, at health 5 (R332, R335); a WARM standby only tracks
(R337). -/
def join (e : Eng) (s : State) : State :=
  let tracks := restPolicy s && s.activeEng.isSome && s.activeEng != some e
  s.setCtl e (fun c =>
    { c with health := 5, rejoin := .none, computing := !tracks, startNext := false, computed := 0, joined := 0 })

/-- The loader is to reload the active page of the engines that rejoin; a shadow load gives way and is asked for again. -/
def reloadActive (page : Nat) (s : State) : State :=
  let held := match s.image.load with
    | some l => if l.toActive || s.image.refused == some l.page then s.image.heldPage else some l.page
    | none => s.image.heldPage
  { s with image := { s.image with
      heldPage := held, load := some ⟨page, s.image.copy, false, true⟩ } }

/-- All codec, pattern, queue and protection state of an engine that rejoins cold is reset, and its partner's is not (R335). -/
def resetState (e : Eng) (s : State) : State :=
  restartPatterns e (s.setData e (fun d =>
    { d.flush with shadow := .empty, reqs := Vector.replicate 16 PairReq.reset, streams := [], restarted := false }))

/-- A cold rejoin begins at turn `t` (R335); with a page that a resync had already copied, nothing is reloaded. -/
def beginCold (e : Eng) (t : Nat) (copied : Bool) (s : State) : State :=
  let s0 := s.setEngTally e (fun x => { x with coldRejoin := true })
  let s1 := resetState e (s0.setCtl e (fun c => { c with rejoin := .cold t, computing := false, startNext := false, computed := 0 }))
  if copied then s1 else reloadActive (s.eng e).data.active (dropPages e s1)

/-- The other engine can serve as the source of a resync (R332, R335). -/
def strongPartner (s : State) (e : Eng) : Bool := (s.eng e.other).ctl.running && decide (5 ≤ (s.eng e.other).ctl.health)

/-- The engine has been judged out of step, or has recovered so far (R308). -/
def outOfStep (s : State) (e : Eng) : Bool := (s.eng e).ctl.running && (s.eng e).ctl.health == 3

/-- An engine that joins by a cold rejoin does so beside a partner that holds incumbency and does not join with it. -/
def joinsAlone (s : State) (e : Eng) : Bool :=
  let c := (s.eng e.other).ctl
  s.holds e.other && !(match c.rejoin with | .cold _ => true | _ => c.health == 5 && c.joined == 0)

/-- A return that is under way goes on at the turn boundary `t`; `loading`: a page is still being loaded into the active memories. -/
def rejoinGoesOn (loading : Bool) (t : Nat) (e : Eng) (s : State) : State :=
  if !outOfStep s e then s
  else match (s.eng e).ctl.rejoin with
    | .none => s
    | .resync b copied stated =>
      if !strongPartner s e then beginCold e t copied s
      else if stated then
        let s1 := together (join e (copyState e s))
        { s1 with duplex := { s1.duplex with resynced := true } }
      else (copyState e s).setCtl e (fun c => { c with rejoin := .resync b true true })
    | .cold b =>
      if b < t && (s.eng e).data.activeOk && !loading then (join e s).setCtl e (fun c => { c with apart := joinsAlone s e }) else s

/-- A return begins at the turn boundary `t`: a resync from a partner at health 5 or above, which may just have joined, else a cold
rejoin (R332, R335). -/
def rejoinBegins (t : Nat) (e : Eng) (s : State) : State :=
  if outOfStep s e && (s.eng e).ctl.rejoin == .none then
    if strongPartner s e then
      (dropPages e (s.setCtl e (fun c =>
        { c with rejoin := .resync t false false, computing := false, startNext := false, computed := 0 }))).setEngTally e
          (fun x => { x with resync := true })
    else beginCold e t false s
  else s

/-- The returns of both engines at the turn boundary `t`. -/
def rejoinSteps (t : Nat) (s : State) : State :=
  forEach engines (rejoinBegins t) (forEach engines (rejoinGoesOn (s.image.load.any (fun l => l.toActive)) t) s)

/-! ### Power cycles of a lost engine (R336) -/

/-- KP leaves an engine unpowered until the next release of RESET_N. -/
def leaveOff (e : Eng) (s : State) : State := ((unpower e s).setCtl e (fun c => { c with leftOff := true, lost := false })).raise .engineOff

/-- The keeper's care of an engine at the turn boundary `t`: power is restored at a second boundary, and a cycle that has
not brought the engine to health 3 within a second has failed. -/
def engineCare (t : Nat) (e : Eng) (s : State) : State :=
  let c := (s.eng e).ctl
  if c.lost && isSecond t then
    if 8 ≤ c.cycles then leaveOff e s
    else
      let ret := s.modes.mode == .rest && allBypassed s
      (s.setCtl e (fun c => { c.powerOn ret (if ret then 0 else 1) with cycles := c.cycles + 1, restoredAt := t })).setData e
        (fun d => { d with pats := Vector.replicate 16 PatSt.reset })
  else if c.powered && decide (0 < c.cycles) then
    if 3 ≤ c.health ∧ t ≤ c.restoredAt + 250 then s.setCtl e (fun c => { c with cycles := 0 })
    else if 8 ≤ c.cycles ∧ c.restoredAt + 250 ≤ t ∧ !c.retention then leaveOff e s
    else s
  else s

/-! ### Step 2 of a turn boundary -/

/-- The engines at step 2 of R25: scrubs, rejoins, rises, and the grant of R313. While HALT is asserted, only falls act. `hx`, `hy`:
health before the boundary's first step. -/
def stepTwo (o : TurnObs) (hx hy : Nat) (s : State) : State :=
  let t := s.pos.t.toNat
  let s1 := scrub .ey o.scrubY (scrub .ex o.scrubX s)
  if s1.tap.halt then forEach engines (engineCare t) s1
  else
    firstGrant (forEach engines (engineCare t) (raiseHealth hx hy (rejoinSteps t s1)))

/-! ### Retention (R127, R145) -/

/-- The powered engines leave retention with health 1 (R308, R335). -/
def leaveRetention (s : State) : State :=
  let s1 := forEach engines (fun e t =>
    if (t.eng e).ctl.powered then t.setCtl e (fun c => { c.powerOn false 1 with cycles := c.cycles, restoredAt := c.restoredAt })
    else t) s
  { s1 with duplex := { s1.duplex with
      incumbency := .nobody, mismatches := [], unexplained := 0, judgedAt := none, resynced := false } }

/-- The engines enter retention: clocks stopped, connection memories held, health 0, incumbency with nobody. -/
def enterRetention (s : State) : State :=
  let s1 := forEach engines (fun e t =>
    ((t.setCtl e (fun c =>
      { c with
        retention := c.powered, health := 0, incumbent := false, rallyRun := 0, syncRun := 0, computing := false,
        startNext := false, computed := 0, joined := 0, rejoin := .none, lateRun := 0, lateNow := false, rallyFail := false,
        rallyFailOld := false, word := 0 })).setData e (fun d => d.flush)).setEngTally e (fun x => { x with minHealth := 0 })) s
  { s1 with duplex := { s1.duplex with incumbency := .nobody, rallies := [], mismatches := [], unexplained := 0 } }

/-! ### Lost dies (R336, R449, R506) -/

/-- A port of a die that KP resets: its framer is in SEARCH, and its buffers, counters and capture unit are cleared. -/
def clearPort (x : PortSt) : PortSt :=
  let y := stopReceiver x
  { y with
    framer := { y.framer with sig := Vector.replicate 32 0 }
    slip := { y.slip with lastRead := none, history := [], nextNo := 0, lastQ := none, nextOut := none, slipTurn := false,
                          slipOld := false, badNow := false }
    raw := { c := Vector.replicate 19 0, pend := Vector.replicate 19 0, ran := false, los := false, ais := false, lof := false,
             lomf := false, rai := false, fbTurn := false, fbOld := false, crcTurn := 0, crcOld := 0, crcTurns := [] }
    capture := { stamp := 0, qual := 0, code := 0, count := 0, unread := false, ovr := false, evTurn := false, evOld := false }
    latch := { y.latch with cellsX := [], cellsY := [], last := none, held := 0, ais := false }
    inCell := none }

/-- A line die is reset: it holds nothing of what it held. -/
def DieSt.restart (d : DieSt) : DieSt :=
  { DieSt.reset with powered := d.powered, lost := d.lost, found := d.found }

/-- KP loses a line die: its 16 ports are released at once and ALARM_N is asserted (R357). -/
def loseLineDie (d : LineDie) (s : State) : State :=
  if (s.die d).powered && !(s.die d).lost then
    let s1 := s.setDie d (fun x => { x with lost := true, hbRun := 0, found := false })
    let s2 := releaseAtOnce (fun p => dieOf p == d) s1
    (s2.mapPorts (fun p x => if dieOf p == d then stopReceiver x else x)).raise .dieLost
  else s

/-- KP loses an engine: it removes its power until the next second boundary (R336). Incumbency moves from it by R312. Its pattern state
stands for what a partner that takes over counts and restarts (R283, assumption 141). -/
def loseEngine (e : Eng) (s : State) : State :=
  if (s.eng e).ctl.powered then
    let held := s.duplex.incumbency
    let s1 := (unpower e (noteFall e .lost s)).setCtl e (fun c => { c with lost := true, cause := Cause.lost.code })
    if (s1.eng e.other).ctl.running then
      { s1.setData e (fun d => { d with pats := (s.eng e).data.pats }) with duplex := { s1.duplex with incumbency := held } }
    else s1
  else s

/-- DIE_LOST (R336, "Where things meet" of 01_machine). -/
def dieLost (d : DieId) (s : State) : State :=
  match d with
  | .line d => loseLineDie d s
  | .engine e => loseEngine e s

/-- The packets that a die numbers from 0 again begin their flows anew at the engines and at KP (R212). -/
def forgetPackets (d : LineDie) (s : State) : State :=
  let keep := fun (l : List FlowSt) => l.filter (fun f =>
    !(f.flow.cls == .packet && decide (f.flow.src < 32) && (decide (f.flow.src < 16) == (d == .lda))))
  let s1 := forEach engines (fun e t => t.setData e (fun x => { x with flows := keep x.flows })) s
  { s1 with duplex := { s1.duplex with flowsX := keep s1.duplex.flowsX, flowsY := keep s1.duplex.flowsY } }

/-- A lost line die at the end of a frame: after 64 frames of valid heartbeat words KP resets it, and it restarts (R506). -/
def findDie (d : LineDie) (heard : Bool) (s : State) : State :=
  let x := s.die d
  if x.lost && !x.found then
    let n := if heard && s.keeper.coreOk then x.hbRun + 1 else 0
    if 64 ≤ n then
      let s1 := forgetPackets d (s.setDie d (fun y => { y.restart with lost := false, found := true }))
      s1.mapPorts (fun p y => if dieOf p == d then clearPort y else y)
    else s.setDie d (fun y => { y with hbRun := n })
  else s

/-- The pages whose V bits the loader writes into a die that was found again: the active page, from the copy in use, and a page
that waits for its swap (R223, R506). -/
def foundPages (s : State) : List (Nat × Copy) :=
  match s.image.inUse with
  | none => []
  | some c => (s.activePage, c) :: engines.filterMap (fun e => match (s.eng e).data.shadow with
      | .complete n k true => some (n, k)
      | _ => none)

/-- At the turn boundary after a die was found again, its share of the V bits has been written, and the alarm condition of the loss
ends (R506). -/
def restoreDies (s : State) : State :=
  let s1 := forEach lineDies (fun d t =>
    if (t.die d).found then t.setDie d (fun x => { x with found := false, vPages := foundPages t }) else t) s
  if s1.lda.lost || s1.ldb.lost then s1 else s1.lower .dieLost

def execHeartbeatWord (e : Eng) (claim : BitVec 4) (k : Tick) (s : State) : Host.Outcome State Fault Refusal :=
  .next (heartbeat e claim (atTick k s))

def execIncumbencyGrant (k : Tick) (s : State) : Host.Outcome State Fault Refusal := .next (incumbencyGrant (atTick k s))

def execDieLost (d : DieId) (k : Tick) (s : State) : Host.Outcome State Fault Refusal := .next (returnToMain (dieLost d (atTick k s)))

end Sys2Proof.Machine
end

