-- ==== Sys2Proof/Machine/Loader.lean ====
section
/-! DEFINITION. The loader (R113 to R122): page requests, loads and reloads, the swap, and the image alarm. -/

namespace Sys2Proof.Machine

/-- Validation found no valid copy (R114). -/
def State.noCopy (s : State) : Bool := s.image.inUse.isNone && bitOf s.image.status.toNat 0 && bitOf s.image.status.toNat 1

/-- The alarm condition of bit 1 of ALARMS: a page refused, no valid copy, or the tally ring window missing (R114, R119,
"Where things meet" of 16_matrix_memories_tally). -/
def imageAlarm (s : State) : State :=
  s.setAlarm .image (s.image.refusedOn || s.noCopy || (s.image.inUse.isSome && (ringWindow s.image).isNone))

/-- A copy was valid at the start. -/
def Image.valid (im : Image) (c : Copy) : Bool :=
  match c with
  | .a => im.aValid
  | .b => im.bValid

/-- The engine takes what the loader sends: it is powered, and is not waiting for its partner's pages (R332, R334). -/
def takesLoad (s : State) (e : Eng) : Bool :=
  let c := (s.eng e).ctl
  c.powered && (match c.rejoin with | .resync _ copied _ => copied | _ => true)

/-- Set the shadow of every powered engine that takes loads. -/
def setShadows (sh : Shadow) (s : State) : State :=
  forEach engines (fun e t => if takesLoad t e then t.setData e (fun d => { d with shadow := sh }) else t) s

/-- The page that is active from now on (R116, R120, R125). -/
def setForce (n : Nat) (c : Copy) (s : State) : State := { s with image := { s.image with inForce := some (n, c) } }

/-- A load starts; what was loading or waiting for its swap is abandoned (R117, R122). -/
def startLoad (n : Nat) (toActive : Bool) (s : State) : State :=
  let s1 := { s with image := { s.image with load := some ⟨n, s.image.copy, false, toActive⟩ } }
  if toActive then s1 else setShadows (.loading n) s1

/-- A page request made outside retention (R117, R119, R122): it cancels a request put off, and replaces a refused one unless it
asks for the same page again. -/
def makeRequest (n : Nat) (s : State) : State :=
  if s.image.inUse.isNone then s
  else if !pagePresent s.image.flash s.image.copy n then
    (if s.image.awaited = some n then { s with image := { s.image with awaited := none } } else s).flagImage .absent
  else if n = s.activePage then
    let keep := match s.image.load with
      | some l => if l.toActive then some l else none
      | none => none
    imageAlarm (setShadows .empty { s with image := { s.image with
      load := keep, refused := none, refusedOn := false, heldPage := none, awaited := none } })
  else
    let same := s.image.refused == some n
    let im := { s.image with
      refused := if same then s.image.refused else none, refusedOn := same && s.image.refusedOn
      awaited := if s.image.awaited = some n then some n else none }
    if im.load.any (fun l => l.toActive) then imageAlarm { s with image := { im with heldPage := some n } }
    else imageAlarm (startLoad n false { s with image := { im with heldPage := none } })

/-- A page request (R117): held while the engines are in retention, and one of KEY_PAGE in REST also while they are still to
enter it (R129, R130); `rest`: such a one. -/
def requestPage (rest : Bool) (n : Nat) (s : State) : State :=
  if s.inRetention || rest then { s with image := { s.image with heldPage := some n } } else makeRequest n s

/-- A refused load is tried again at every turn boundary at which the loader is free (R119). -/
def retryRefused (s : State) : State :=
  match s.image.refused, s.image.load with
  | some n, none => startLoad n (n == s.activePage) s
  | _, _ => s

/-- An engine's report matches the page CRC of the page it loaded (R118, R119). -/
def reportGood (s : State) (l : Load) (r : Option LoadReport) : Bool :=
  match r with
  | some x => (x.page == l.page) && (x.crc == pageCrcField s.image.flash l.copy l.page)
  | none => false

/-- The report of an engine. -/
def reportOf (x y : Option LoadReport) (e : Eng) : Option LoadReport :=
  match e with
  | .ex => x
  | .ey => y

/-- Every engine that takes the load reports it good. -/
def allGood (s : State) (l : Load) (x y : Option LoadReport) : Bool :=
  engines.all (fun e => !takesLoad s e || reportGood s l (reportOf x y e))

/-- A page is in force, in the active memory of every engine that took it. -/
def activate (l : Load) (s : State) : State :=
  setForce l.page l.copy <| forEach engines (fun e t =>
    if takesLoad t e then
      t.setData e (fun d => { d with active := l.page, activeCopy := l.copy, activeOk := true, govern := l.page, governCopy := l.copy })
    else t) s

/-- Each engine that takes the load holds the page in its shadow. -/
def shadowed (l : Load) (x y : Option LoadReport) (s : State) : State :=
  forEach engines (fun e t =>
    if takesLoad t e then
      t.setData e (fun d => { d with shadow := .complete l.page l.copy (reportGood s l (reportOf x y e)) })
    else t) s

/-- At a wake, page 0 is being loaded in place of the page that failed. -/
def State.standIn (s : State) (l : Load) : Bool := l.toActive && s.keeper.reloading && l.page != s.image.wakePage

/-- A load is refused (R119); at a wake, page 0 is loaded in place of the page that failed, and that page's request stands. -/
def refuse (l : Load) (s : State) : State :=
  let s1 := setShadows .empty (s.flagImage .refused)
  let aw := if s1.image.awaited = some l.page then none else s1.image.awaited
  let rf := if s1.standIn l then s1.image.refused else some l.page
  let s2 := imageAlarm { s1 with image := { s1.image with load := none, refused := rf, refusedOn := true, awaited := aw } }
  if l.toActive && s.keeper.reloading && l.page != 0 then startLoad 0 true s2 else s2

/-- The loader has written the V bits of a page into the line dies, beside those of the active page (R223). -/
def writeV (l : Load) (s : State) : State :=
  forEach lineDies (fun d t => t.setDie d (fun x =>
    if x.works then { x with vPages := (l.page, l.copy) :: x.vPages.filter (fun v => v.1 == s.activePage && v.1 != l.page) } else x)) s

/-- The reload after a wake or a stopped XIN is over once a page is in force (R468, R471). -/
def finishReload (l : Load) (s : State) : State :=
  { s with keeper := { s.keeper with reloading := s.keeper.reloading && !l.toActive } }

/-- A load ends, and the engines report (R118, R119): any load whose CRC matches ends the alarm condition of a refusal, but for
page 0 loaded in place of the page that failed at a wake. -/
def loadEnds (x y : Option LoadReport) (s : State) : State :=
  match s.image.load with
  | none => s
  | some l =>
    if allGood s l x y then
      let s1 := writeV l (if l.toActive then activate l s else shadowed l x y s)
      let rf := if s1.image.refused = some l.page then none else s1.image.refused
      let on := s1.image.refusedOn && rf.isSome && s1.standIn l
      finishReload l (imageAlarm { s1 with image := { s1.image with load := none, refused := rf, refusedOn := on } })
    else if !l.second && s.image.valid l.copy.other then
      let s1 := s.flagImage .reload
      { s1 with image := { s1.image with load := some { l with copy := l.copy.other, second := true } } }
    else refuse l s

/-- Every powered engine reports the same complete shadow page with a good CRC (R120). -/
def swapPage (s : State) : Option (Nat × Copy) :=
  let good := fun (e : Eng) => match (s.eng e).data.shadow with
    | .complete n c g => if g then some (n, c) else none
    | _ => none
  let on := engines.filter (fun e => (s.eng e).ctl.powered)
  match on with
  | [] => none
  | e :: es => match good e with
    | some v => if es.all (fun f => good f == some v) && !(s.eng e).ctl.retention then some v else none
    | none => none

/-- Empty every VOQ that touches a port going down, its freed cells counted; the packet frames of its queues are done with (R235). -/
def flushPort (p : Port) (e : Eng) (s : State) : State :=
  let d := (s.eng e).data
  let touches := fun (q : QCell) => q.inp == p || q.out == p
  let freed := (d.circuit ++ d.packet).filter touches
  let s1 := forEach freed (fun q t => countCopy e .dropped 1 q.cell t) s
  s1.setData e (fun d =>
    { d with
      circuit := d.circuit.filter (fun q => !touches q), packet := d.packet.filter (fun q => !touches q)
      frames := d.frames.filter (fun f => f.flow.src != p.val && f.flow.dest != p.val) })

/-- A port goes down: its queues are emptied in both engines, and a packet frame on its way to its access point is cut off (R235). -/
def portDown (p : Port) (s : State) : State :=
  let s1 := flushPort p .ey (flushPort p .ex s)
  if p = s1.fabric.port ∨ p = partnerPort s1.fabric.port then cutChannel p s1 else s1

/-- Step 3 of a turn boundary: the page swap (R120), and the queues of ports that go down (R235). -/
def stepThree (s : State) : State :=
  match swapPage s with
  | none => s
  | some (n, c) =>
    let was := allPorts.filter (fun p => s.inService p)
    let s1 := setForce n c <| forEach engines (fun e t =>
      if (t.eng e).ctl.powered then
        t.setData e (fun d => { d with active := n, activeCopy := c, activeOk := true, shadow := .empty })
      else t) s
    let aw := if s1.image.awaited = some n then none else s1.image.awaited
    let s2 := { s1 with image := { s1.image with awaited := aw }, tally := { s1.tally with swapped := true } }
    forEach was (fun p t => if t.inService p then t else portDown p t) s2

/-- A complete shadow page is reported and its swap is pending (R441). -/
def swapPending (s : State) : Bool :=
  engines.any (fun e => match (s.eng e).data.shadow with | .complete _ _ g => g && (s.eng e).ctl.powered | _ => false)

def execPageLoadComplete (x y : Option LoadReport) (k : Tick) (s : State) : Host.Outcome State Fault Refusal :=
  .next (loadEnds x y (atTick k s))

/-- ACTIVE_PAGE_RELOAD_DONE (R471): the reload after a wake or a stopped XIN ends; the end is the same as of any load. -/
def execActivePageReloadDone (x y : Option LoadReport) (s : State) : Host.Outcome State Fault Refusal :=
  .next (if s.keeper.reloading then loadEnds x y s else s)

end Sys2Proof.Machine
end

