-- ==== Sys2Proof/Machine/Keys.lean ====
section
/-! DEFINITION. The live keys (R64 to R72, R507): samples, acceptance, the levels in effect with a partner's mirror (R377 to
R380), and step 4 of a turn boundary. -/

namespace Sys2Proof.Machine

/-! ### Samples and acceptance -/

/-- A key that holds its held value and has no sample (R70). -/
def LiveKey.held (k : LiveKey) : LiveKey :=
  { k with value := none, accepted := none, older := none, newer := none, ambNext := false, ambNow := false }

/-- Samples taken before a stop of counting pair with none after it. -/
def LiveKey.forget (k : LiveKey) : LiveKey := { k with older := none, newer := none, ambNext := false, ambNow := false }

/-- A sample is taken in frame 31 (R65, R67, R69). -/
def LiveKey.sample (m : Range) (r : KeyRaw) (k : LiveKey) : LiveKey :=
  match levelOfSample m r with
  | some l => { k with newer := some l, ambNext := false }
  | none => { k with newer := none, ambNext := true }

/-- The readers of some keys follow their pins through a sample (R58): those from number `i` on. -/
def followPins (i : Nat) (l : List KeyRaw) (v : Vector Range 12) : Vector Range 12 :=
  Vector.ofFn (fun n => if i ≤ n.val then match l[n.val - i]? with | some r => rangeAfter v[n] r | none => v[n] else v[n])

/-- LIVE_KEY_SAMPLE (R67): taken in frame 31 of a turn; samples count from turn T0 on, while position is counted. -/
def sampleKeys (mode page cmd tally : KeyRaw) (s : State) : State :=
  if s.time.counting && !s.keeper.dozing && s.pos.f == 31 then
    let v := s.keys.live
    let m := s.keys.ranges
    let s1 := { s with keys := { s.keys with ranges := followPins 8 [mode, page, cmd, tally] m } }
    if s.pins.resetN && s.keeper.phase != .waiting && decide (s.keys.sampleFrom ≤ s.pos.t.toNat) then
      { s1 with keys := { s1.keys with
          live := #v[v[0].sample m[8] mode, v[1].sample m[9] page, v[2].sample m[10] cmd, v[3].sample m[11] tally] } }
    else s1
  else s

/-- The value accepted at the boundary before takes effect (R68). -/
def LiveKey.takeEffect (k : LiveKey) : LiveKey :=
  match k.accepted with
  | some l => { k with value := some l, accepted := none }
  | none => k

/-- Acceptance at a boundary (R68 to R70): two equal samples whose level differs from the present value; a key that holds
its held value takes any level. The ambiguous sample shows in the header and is counted. -/
def LiveKey.accept (k : LiveKey) : LiveKey :=
  let a := match k.older, k.newer with
    | some x, some y => if x = y ∧ k.value ≠ some x then some x else k.accepted
    | _, _ => k.accepted
  { k with
    accepted := a, older := k.newer, newer := none, ambNow := k.ambNext, ambNext := false
    ambCount := if k.ambNext then satAdd 255 k.ambCount 1 else k.ambCount }

/-- A boundary that ends a turn in which KREF was out of range (R507): held value, and the samples discarded. -/
def LiveKey.kref (k : LiveKey) : LiveKey := k.held

/-- A boundary of RIDE, LAST or reset: the sample shows in the header and is counted, and nothing is accepted. -/
def LiveKey.pass (k : LiveKey) : LiveKey := { k.accept with accepted := k.accepted }

/-- The KREF fault as the turn just ended shows it (R64, R507), and the live keys under `f` when there is none. -/
def krefTurn (krefOut : Bool) (f : LiveKey → LiveKey) (s : State) : State :=
  let s1 := { s with keys := { s.keys with
      krefFault := krefOut, live := s.keys.live.map (if krefOut then LiveKey.kref else f) } }
  s1.setAlarm .kref krefOut

/-- The keys at step 4 of a turn boundary. -/
def keysTurn (krefOut : Bool) (s : State) : State := krefTurn krefOut (fun k => k.takeEffect.accept) s

/-! ### Levels in effect -/

/-- KEY_MODE levels that name an inserting mode (R378). -/
def insertingLevel (l : BitVec 4) : Bool := decide (3 ≤ l.toNat ∧ l.toNat ≤ 7)

/-- Mirrored values are in force: none during a KREF fault ("Where things meet" of 14_partner_channel). -/
def State.mirrorOn (s : State) : Option (Vector (BitVec 4) 4) := if s.keys.krefFault then none else s.partner.inForce

/-- The follower may be inserted from a mirror (R378). -/
def PartRole.grants : PartRole → Bool
  | .follower b => b
  | _ => false

/-- The level of a live key in effect, by its index MODE, PAGE, CMD, TALLY; none: the held value (R70, R377, R378). -/
def State.level (s : State) (i : Fin 4) : Option (BitVec 4) :=
  match s.mirrorOn with
  | none => s.keys.live[i].value
  | some v => if i = 0 && insertingLevel v[0] && !s.partner.role.grants then s.keys.live[0].value else some v[i]

/-- Mirrored values begin and cease to act at step 4 (R377, R378, R380). -/
def mirrorTakesEffect (s : State) : State :=
  let p := s.partner
  if p.revert then { s with partner := { p.setObeying false with inForce := none, revert := false } }
  else match p.toForce with
    | some v =>
      let s1 := { s with partner := { p.setObeying true with inForce := some v, toForce := none } }
      if insertingLevel v[0] && !p.role.grants then s1.flagPartner .insertWithheld else s1
    | none => s

/-- Unassigned-level flags of the live keys (R72): judged at every turn boundary by the meanings in effect. -/
def flagLive (s : State) : State :=
  let on := fun (i : Fin 4) (f : BitVec 4 → Bool) => match s.level i with | some l => f l | none => false
  let f := fun (b : Bool) (n : Nat) (t : State) => if b then t.flagUnassigned n else t
  f (on 0 modeFlagged) 8 (f (on 2 (cmdReserved s.modes.mode)) 10 (f (on 3 tallyReserved) 11 s))

/-! ### Step 4 of a turn boundary (R25) -/

/-- What validation finds of each copy (R113, R114). -/
def Image.finds (im : Image) (c : Copy) : Bool :=
  im.sfdpOk && (match c with | .a => im.readA | .b => im.readB) && copyValid im.flash c

/-- Validation finds a valid copy (R113). -/
def State.hasCopy (s : State) : Bool := s.image.finds .a || s.image.finds .b

/-- The mode that the levels in effect give; REST while there is no valid copy to use: before validation is complete none in
the flash, after it none found (R114, R124). -/
def State.modeNow (s : State) : Mode :=
  if s.image.inUse.isNone && !(s.keeper.phase == .validating && s.level 0 != some 0 && s.hasCopy) then .rest
  else match s.level 0 with | some l => modeOfLevel l | none => .rest

/-- The ports of which the channel needs one to receive and one to transmit, in the roles the mode taking effect gives (R362, R379). -/
def State.channelPorts (s : State) : List Port :=
  let p := s.fabric.port
  let q := partnerPort p
  let runs := s.bothInService p && s.ports[p].line.family == s.ports[q].line.family
  let passes := s.modeNow == .through || (s.modeNow == .guarded && (s.prot (pairOf p)).enabled && !runs)
  if passes then [p, q] else [p]

/-- A page from a mirror would cut the channel (R379). -/
def cutsChannel (s : State) (n : Nat) : Bool :=
  pagePresent s.image.flash s.image.copy n &&
    s.channelPorts.any (fun p => !bitOf (pageEnable s.image.flash s.image.copy n) p.val)

/-- R379 acts: the active page stays. -/
def keepPage (s : State) : State :=
  let s1 := { s with partner := { s.partner with pageKept := true } }
  s1.flagPartner .pageHeld

/-- The request held in retention is made as the engines leave it (R130). -/
def makeHeld (s : State) : State :=
  match s.image.heldPage with
  | some n =>
    let s1 := { s with image := { s.image with heldPage := none } }
    if s1.mirrorOn.isSome && cutsChannel s1 n then keepPage s1
    else if n = s1.activePage || !pagePresent s1.image.flash s1.image.copy n then makeRequest n s1
    else makeRequest n { s1 with image := { s1.image with awaited := some n } }
  | none => s

/-- A request that gave way to a reload of the active page, or was held in REST before the engines entered retention, is made
once nothing holds it. -/
def makeDeferred (s : State) : State :=
  match s.image.heldPage with
  | some n =>
    if s.inRetention || s.modes.mode == .rest || s.image.load.any (fun l => l.toActive) then s
    else
      let s1 := { s with image := { s.image with heldPage := none } }
      if s1.mirrorOn.isSome && cutsChannel s1 n then keepPage s1 else makeRequest n s1
  | none => s

/-- Some powered engine holds a page that it can restart under (R130). -/
def State.pageHeld (s : State) : Bool := engines.any (fun e => (s.eng e).ctl.powered && (s.eng e).data.activeOk)

/-- A page request from KEY_PAGE whose level changes (R117, R379), or that takes effect again where a mirrored value was not
requested (R380). -/
def pageKey (old : Option (BitVec 4)) (s : State) : State :=
  if s.level 1 = old && !(s.partner.pageKept && s.mirrorOn.isNone) then s
  else
    let n := pageOfLevel ((s.level 1).getD 0)
    let rest := s.modeNow == .rest
    if s.mirrorOn.isSome && !rest && cutsChannel s n then keepPage s
    else requestPage rest n { s with partner := { s.partner with pageKept := false } }

/-- A filter set takes effect; the select counters restart with it (R439). -/
def filterKey (s : State) : State :=
  let n := filterOfLevel ((s.level 3).getD 0)
  if s.tally.filter = n then s
  else
    let s1 := { s with tally := { s.tally with filter := n, filterChanged := true } }
    forEach engines (fun e t => t.setData e (fun d => { d with select := Vector.replicate 16 0 })) s1

/-- A mode takes effect (R124, R145): the engines leave retention with a mode other than REST, once a page is held in active
memory (R130) and no reload after a wake or a stopped XIN is due (R471). -/
def modeKey (s : State) : State :=
  let m := s.modeNow
  let s1 := if m = s.modes.mode then s
    else { s with modes := { s.modes with mode := m }, tally := { s.tally with modeChanged := true } }
  if m != .rest && s1.inRetention && s1.pageHeld && !s1.keeper.reloading then makeHeld (leaveRetention s1) else s1

/-- The engines enter retention in REST once every port is bypassed (R145). -/
def restEngines (s : State) : State :=
  if s.modes.mode = .rest && allBypassed s && !s.inRetention then enterRetention s else s

/-- A standby under WARM stops computing when PROOF is left (R147). -/
def leaveProof (was : Mode) (s : State) : State :=
  if was = .proof && s.modes.mode != .proof && s.policy == .warm then
    match s.standby with
    | some e => makeTracking e s
    | none => s
  else s

/-- A standby under WARM computes and is compared while PROOF runs (R147, R337). -/
def enterProof (was : Mode) (s : State) : State :=
  if was != .proof && s.modes.mode == .proof && s.policy == .warm then
    match s.standby with
    | some e => if 4 ≤ (s.eng e).ctl.health then s.setCtl e (fun c => { c with startNext := true }) else s
    | none => s
  else s

/-- What a KEY_CMD value taking effect in PATTERN commands (R280, R282): a single error, errors at a ratio counted from the next
generated bit on, or the analysers' resync, which counts no loss. -/
def patternCommand (old : Option (BitVec 4)) (s : State) : State :=
  if s.modes.mode = .pattern && s.level 2 != old then
    match ((s.level 2).getD 0).toNat with
    | 1 => forEach all16 (fun i t => if t.generates i then mapPat i (fun x => { x with gen := { x.gen with once := true } }) t else t) s
    | 2 | 3 | 4 | 5 | 6 =>
      forEach all16 (fun i t => if t.generates i then mapPat i (fun x => { x with gen := { x.gen with counted := 0 } }) t else t) s
    | 7 => forEach all16 (fun i t => if t.analyses i then mapPat i (fun x => { x with ana := x.ana.hunt }) t else t) s
    | _ => s
  else s

/-- The levels of the live keys as they stand, MODE, PAGE, CMD, TALLY. -/
def State.levels (s : State) : Vector (Option (BitVec 4)) 4 := Vector.ofFn (fun i => s.level i)

/-- Step 4: accepted keys and mirrored values take effect, then roles are compared (R25, R142, R503). -/
def stepFour (krefOut : Bool) (s : State) : State :=
  let old := s.levels
  let was := s.modes.mode
  let s1 := mirrorTakesEffect (keysTurn krefOut s)
  let s2 := pageKey old[1] s1
  let cmdOld := cmdActing was s.modes.cmd
  let s3 := filterKey { s2 with modes := { s2.modes with cmd := (s2.level 2).getD 0 } }
  let s4 := enterProof was (leaveProof was (modeKey s3))
  let s5 := patternCommand old[2] (flagLive s4)
  let took := s5.level 2 != old[2] || s5.modes.cmd != s.modes.cmd
  let s6 := applyCommand took cmdOld (refreshPairs s5)
  let switched := (was == .pattern && s6.modes.mode == .watch) || (was == .watch && s6.modes.mode == .pattern)
  refreshPatterns switched (restEngines (reconcileAll s6))

def execLiveKeySample (mode page cmd tally : KeyRaw) (s : State) : Host.Outcome State Fault Refusal :=
  .next (sampleKeys mode page cmd tally s)

end Sys2Proof.Machine
end

