-- ==== Sys2Proof/Machine/Actions.lean ====
section
/-! DEFINITION. Timers at turn boundaries (R388, R395, R397, R401), their events, and ALARM_N (R398). -/

namespace Sys2Proof.Machine

/-! ### Start and new compare values -/

/-- Every timer is cleared and stopped. Its MATCH and OVF flags and its event count hold until a record has carried them
(R396, R505). -/
def clearTimers (s : State) : State :=
  { s with timers := s.timers.map (fun t =>
      { Timer.reset with match_ := t.match_, ovf := t.ovf, events := t.events }) }

/-- The compare value that page `n` of copy `c` gives a timer, if it gives one (R105). -/
def pageValue (s : State) (c : Copy) (n : Nat) (i : TimerId) : Option (BitVec 32) :=
  if bitOf (pageCompareMask s.image.flash c n) i.val then some (pageCompare s.image.flash c n i) else none

/-- The timers whose enabled bit is set start, at 0 and armed (R388). -/
def startTimers (s : State) : State :=
  forEach all16 (fun i t =>
    let pr := t.preset i
    if pr.enabled then
      let c := (pageValue t t.image.copy 0 i).getD pr.compare
      t.setTimer i (fun x =>
        { x with started := true, counter := 0, compare := c, armed := true, out := false, pending := false,
                 gate := t.gateSignal i, resetWas := t.resetSignal i, cleared := true, wrapped := false, fresh := false, late := 0, due := 0, held := false })
    else t) s

/-- The compare values of a page swapped in (R121, R395). -/
def loadCompares (n : Nat) (c : Copy) (s : State) : State :=
  forEach all16 (fun i t =>
    match pageValue t c n i with
    | some v => t.setTimer i (fun x => { x with armed := x.armed || x.compare != v, compare := v, fresh := true })
    | none => t) s

/-! ### Actions -/

/-- The action of a timer (R397). -/
def takeAction (i : TimerId) (s : State) : State :=
  let pr := s.preset i
  match pr.action with
  | 1 => requestPage false pr.actArg s
  | 2 => captureStart s
  | 3 => captureStop s
  | 4 => if s.modes.mode = .pattern then startGenerator ⟨pr.actArg % 16, Nat.mod_lt _ (by decide)⟩ s else s
  | 5 => timerExercise ⟨pr.actArg % 16, Nat.mod_lt _ (by decide)⟩ s
  | _ => s

/-- Every pending action is taken once, in ascending index; under HALT they wait (R397, R399). -/
def takeActions (s : State) : State :=
  if s.tap.halt then s
  else forEach all16 (fun i t =>
    if t.timers[i].pending then takeAction i (t.setTimer i (fun x => { x with pending := false })) else t) s

/-- Step 5 of a turn boundary (R25): `start`: the first boundary after validation; `swapped`: the page swapped in. -/
def stepFive (start : Bool) (swapped : Option (Nat × Copy)) (s : State) : State :=
  let s1 := match swapped with
    | some (n, c) => loadCompares n c s
    | none => s
  let s2 := takeActions (turnUnits s1)
  if start then startTimers s2 else s2

/-! ### Catch-up (R401) -/

/-- What a catch-up of `a` units makes of a timer: the timer, its matches and its overflows. -/
def Timer.advance (t : Timer) (reload : Bool) (cmp a : Nat) : Timer × Nat × Nat :=
  let c := t.value
  let e := (c + a) % 2 ^ 32
  if reload then
    if t.armed && decide (cmp ≤ c + a) then
      let k := (c + a) / cmp
      ({ t with counter := BitVec.ofNat 32 ((c + a) % cmp), due := 0, out := xor t.out (k % 2 == 1) }, k, 0)
    else ({ t with counter := BitVec.ofNat 32 e }, 0, 0)
  else
    let w := (c + a) / 2 ^ 32
    let m := t.armed && (decide (c < cmp ∧ cmp ≤ c + a) || decide (2 ^ 32 + cmp ≤ c + a))
    ({ t with
       counter := BitVec.ofNat 32 e, out := t.out || m
       armed := if 0 < w then decide (e < cmp) else t.armed && !m }, b2n m, w)

/-- Units a catch-up from tick `p` to `tr`:0:0 gives a timer whose lower-indexed sources gave `ev` events. -/
def catchUnits (s : State) (p tr : Nat) (ev : List Nat) (i : TimerId) : Nat :=
  let pr := s.preset i
  match pr.src with
  | 0 => 65536 * tr - p
  | 1 => 32 * tr - ceilDiv p 2048
  | 2 => tr - ceilDiv p 65536
  | 3 => if pr.arg < i.val then ev.getD pr.arg 0 else 0
  | _ => 0

/-- The events of a catch-up reach the timers of the same or a lower index in the next tick. -/
def passLate (i : TimerId) (n : Nat) (s : State) : State :=
  forEach all16 (fun j t =>
    if (t.preset j).src == 3 && (t.preset j).arg == i.val && decide (j.val ≤ i.val) && t.timers[j].started && !t.frozen j then
      t.setTimer j (fun x => { x with late := x.late + n })
    else t) s

/-- Catch up one timer; the events it gave are added to the list. -/
def catchTimer (p tr : Nat) (i : TimerId) (x : State × List Nat) : State × List Nat :=
  let (s, ev) := x
  let t := s.timers[i]
  let pr := s.preset i
  if t.started && !s.frozen i then
    let a := if t.gate then catchUnits s p tr ev i else 0
    let (t1, m, w) := t.advance pr.reload (s.compareOf i) a
    let n := m + w
    if n = 0 then (s.setTimer i (fun _ => t1), ev ++ [0])
    else
      let s1 := s.setTimer i (fun _ =>
        { t1 with
          stamp := s.stamp, qual := s.qual, match_ := t1.match_ || decide (0 < m), ovf := t1.ovf || decide (0 < w)
          events := sat16 t1.events n, pending := t1.pending || pr.action != 0 })
      let s2 := { s1 with tally := { s1.tally with timerTurn := true } }
      let s3 := if pr.pulse then { s2 with alarm := s2.alarm.pulse s.now } else s2
      (passLate i n s3, ev ++ [n])
  else (s, ev ++ [0])

/-- Every timer is advanced by the span that was not counted (R401). -/
def catchUp (p tr : Nat) (s : State) : State := (all16.foldl (fun x i => catchTimer p tr i x) (s, [])).1

/-- Tick Tr:0:0 reaches a timer after its catch-up: gate and reset are sampled as `s0` stood before the catch-up, and RESET_BY, ignored across
the span, does not rise here, and what the catch-up passed on waits for tick Tr:0:1 (R391, R401). -/
def resumeTimer (s0 : State) (i : TimerId) (s : State) : State :=
  let due := s.timers[i].late - s0.timers[i].late
  let s1 := tickTimer s0 i (s.setTimer i (fun t => { t with late := s0.timers[i].late, resetWas := s0.resetSignal i }))
  s1.setTimer i (fun t => { t with late := t.late + due })

/-- The timers at a resumption: the span from tick `p` to `tr`:0:0 is caught up, and then tick Tr:0:0 counts (R389, R401). -/
def resumeTimers (p tr : Nat) (s : State) : State := forEach all16 (resumeTimer s) (catchUp p tr s)

/-! ### Events -/

/-- TIMER_MATCH (R393). -/
def timerMatches (i : TimerId) (s : State) : State := if s.matches_ i then doMatch i s else s

/-- TIMER_OVERFLOW (R394). -/
def timerOverflows (i : TimerId) (s : State) : State :=
  if s.timers[i].wrapped && !s.frozen i then doOverflow i s else s

/-- ALARM_PULSE_END (R398). -/
def pulseEnds (s : State) : State :=
  match s.alarm.pulseEnd with
  | some t => if t ≤ s.now then { s with alarm := { s.alarm with pulseEnd := none } } else s
  | none => s

/-- ALARM_CONDITION_MINIMUM_END (R398). -/
def minimumEnds (s : State) : State :=
  match s.alarm.minEnd with
  | some t => if t ≤ s.now then { s with alarm := { s.alarm with minEnd := none } } else s
  | none => s

def execTimerMatch (i : TimerId) (k : Tick) (s : State) : Host.Outcome State Fault Refusal :=
  .next (timerMatches i (atTick k s))

def execTimerOverflow (i : TimerId) (k : Tick) (s : State) : Host.Outcome State Fault Refusal :=
  .next (timerOverflows i (atTick k s))

def execAlarmPulseEnd (k : Tick) (s : State) : Host.Outcome State Fault Refusal := .next (pulseEnds (atTick k s))

def execAlarmConditionMinimumEnd (k : Tick) (s : State) : Host.Outcome State Fault Refusal := .next (minimumEnds (atTick k s))

end Sys2Proof.Machine
end

