-- ==== Sys2Proof/Machine/Matrix.lean ====
section
/-! DEFINITION. The bus matrix (R408 to R415) and lending (R416, R417, R420, R508). -/

namespace Sys2Proof.Machine

/-! ### Targets and masters -/

/-- A target of the matrix. -/
def Matrix.target (m : Matrix) (t : Target) : TargetSt :=
  match t with
  | .flash => m.flash
  | .psram => m.psram
  | .fram => m.fram
  | .sram => m.sram

/-- Change a target of the matrix. -/
def Matrix.setTarget (m : Matrix) (t : Target) (f : TargetSt → TargetSt) : Matrix :=
  match t with
  | .flash => { m with flash := f m.flash }
  | .psram => { m with psram := f m.psram }
  | .fram => { m with fram := f m.fram }
  | .sram => { m with sram := f m.sram }

/-- All targets. -/
def targets : List Target := [.flash, .psram, .fram, .sram]

/-- The lend of a memory (R416). -/
def Matrix.lend (m : Matrix) (l : LendTarget) : Lend :=
  match l with
  | .tally => m.lendT
  | .capture => m.lendC

/-- Change the lend of a memory. -/
def Matrix.setLend (m : Matrix) (l : LendTarget) (f : Lend → Lend) : Matrix :=
  match l with
  | .tally => { m with lendT := f m.lendT }
  | .capture => { m with lendC := f m.lendC }

/-- The balls of a memory that is to be lent go high-impedance at the end of the burst in progress (R416, R489). -/
def Matrix.floats (now : Nat) (m : Matrix) : Matrix :=
  let f := fun (x : Lend) (t : TargetSt) =>
    if x.requested && !x.granted && x.hiZ.isNone && t.busy.isNone then { x with hiZ := some now } else x
  { m with lendT := f m.lendT m.fram, lendC := f m.lendC m.psram }

/-- First tick at which a target takes bursts after a lend (R416). -/
def Matrix.openAt (m : Matrix) (t : Target) : Nat :=
  match t with
  | .fram => m.lendT.openAt
  | .psram => m.lendC.openAt
  | _ => 0

/-- No burst is granted on a target from the recognition of a lend request to the lend's end (R416). -/
def Matrix.lent (m : Matrix) (t : Target) : Bool :=
  match t with
  | .fram => m.lendT.requested || m.lendT.granted
  | .psram => m.lendC.requested || m.lendC.granted
  | _ => false

/-- The memory of a target; none: the map flash, which is never written (R3). -/
def Matrix.mem (m : Matrix) (t : Target) : Option Mem :=
  match t with
  | .flash => none
  | .psram => some m.psramMem
  | .fram => some m.framMem
  | .sram => some m.sramMem

/-- Write bytes at target addresses; the flash is never written. -/
def Matrix.writeMem (m : Matrix) (t : Target) (a : Nat) (l : List Byte) : Matrix :=
  match t with
  | .flash => m
  | .psram => { m with psramMem := Mem.writeAll ramFill m.psramMem a l }
  | .fram => { m with framMem := Mem.writeAll ramFill m.framMem a l }
  | .sram => { m with sramMem := Mem.writeAll ramFill m.sramMem a l }

/-- Bytes at target addresses. -/
def State.readTarget (s : State) (t : Target) (a n : Nat) : List Byte :=
  match s.matrix.mem t with
  | some m => Mem.readAll ramFill m a n
  | none => Mem.readAll flashFill s.image.flash a n

/-- Change the counts of a master. -/
def Matrix.count (m : Matrix) (x : Master) (f : MasterSt → MasterSt) : Matrix :=
  { m with masters := updV m.masters (masterNum x) f }

/-- The map flash is taken as 16 MiB (R96). -/
def deviceFlash : Nat := 0x1000000

/-- The functions of a master (R408, R409). -/
def fnMaster (f : MatrixFn) (x : Master) : Bool :=
  match f, x with
  | .pageRead, .loader => true
  | .tallyRing, .dump => true
  | .recordBuffer, .dump => true
  | .captureRing, .captureX => true
  | .captureRing, .captureY => true
  | .proofScratch, .proof => true
  | .proofPage, .proof => true
  | .lendCheckTally, .lendMonitor => true
  | .lendCheckCapture, .lendMonitor => true
  | _, _ => false

/-- The longest burst of a master (R408). -/
def longest (x : Master) : Nat :=
  match x with
  | .loader => 4096 | .captureX | .captureY => 512 | .dump | .proof => 256 | .lendMonitor => 16

/-- The master is the capture writer of an engine. -/
def writerOf (x : Master) : Option Eng :=
  match x with
  | .captureX => some .ex
  | .captureY => some .ey
  | _ => none

/-- The window's matrix addresses take in some of the `n` from address `a` on. -/
def Win.meets (w : Win) (a n : Nat) : Bool := decide (w.base < a + n ∧ a < w.base + w.size)

/-- The target with this number (R95). -/
def targetOf (n : Nat) : Target := if n = 0 then .flash else if n = 1 then .psram else if n = 2 then .fram else .sram

/-- The window that decides matrix addresses `a` to `a + n - 1` for a master: the lowest-numbered of its windows that takes in
any of them, when it takes in all of them (R96). -/
def deciding (im : Image) (x : Master) (a n : Nat) : Option Win :=
  ((windows im).find? (fun w => bitOf w.masters (masterNum x).val && w.meets a n)).filter
    (fun w => decide (w.base ≤ a ∧ a + n ≤ w.base + w.size))

/-- A read of the loader lies in one of the two copies (R88, R89). -/
def inCopy (q : BurstReq) : Bool :=
  (q.fn == .pageRead) && !q.write &&
    decide (q.offset + q.len ≤ 0x110000 ∨ 0x800000 ≤ q.offset ∧ q.offset + q.len ≤ 0x910000)

/-- The matrix address of a request's first byte (R95, R409): its offset in its function's window. DESIGN CHOICE (assumption 179): what
the loader reads elsewhere than in the copies it names by its flash address, and it takes the lowest-numbered window of the loader that
gives read access there. -/
def matrixAddr (s : State) (q : BurstReq) : Option Nat :=
  if q.fn == .pageRead then
    ((windows s.image).find? (fun w =>
      w.gives .flash .loader 1 && decide (w.toff ≤ q.offset ∧ q.offset + q.len ≤ w.toff + w.size))).map (fun w =>
        w.base + (q.offset - w.toff))
  else match fnWindow s.image q.master q.fn with
    | some w => if q.offset + q.len ≤ w.size then some (w.base + q.offset) else none
    | none => none

/-- Where the matrix takes a request (R95, R96, R409): the window that decides at its matrix address gives the target and the
address on it, when it has the access the request needs. The loader's reads of the two copies pass through no window (R89). -/
def decodes (s : State) (q : BurstReq) : Option (Target × Nat) :=
  if inCopy q then some (.flash, q.offset)
  else match matrixAddr s q with
    | none => none
    | some a =>
      match deciding s.image q.master a q.len with
      | some v => if bitOf v.access (if q.write then 1 else 0) then some (targetOf v.target, v.toff + (a - v.base)) else none
      | none => none

/-! ### Arbitration (R410 to R413) -/

/-- Place in the order of R410: loader, dump engine, capture writer, proof engine, lend monitor. -/
def rank (x : Master) : Nat :=
  match x with
  | .loader => 0 | .dump => 1 | .captureX | .captureY => 2 | .proof => 3 | .lendMonitor => 4

/-- A master has a burst granted on some target. -/
def Matrix.holding (m : Matrix) (x : Master) : Bool :=
  targets.any (fun t => match (m.target t).busy with | some q => q.master == x | none => false)

/-- The request a free target grants next: of the masters that hold no burst, the first in order; of its requests the
oldest (R410, R413). After a lend it grants none before the tick from which held requests may resume (R416). -/
def nextGrant (now : Nat) (m : Matrix) (t : Target) : Option (BurstReq × Nat) :=
  if (m.target t).busy.isSome || m.lent t || decide (now < m.openAt t) then none
  else best (fun a b => decide (rank a.1.master < rank b.1.master))
    ((m.target t).waiting.filter (fun w => !m.holding w.1.master))

/-- Grant a request on its target; `cost`: the CCLK that the grant takes (R410). -/
def doGrant (now cost : Nat) (t : Target) (w : BurstReq × Nat) (m : Matrix) : Matrix :=
  let m1 := m.setTarget t (fun x =>
    { x with busy := some w.1, waiting := x.waiting.erase w, parked := if t = .psram then w.1.master else x.parked })
  m1.count w.1.master (fun c =>
    { c with
      grants := satAdd 0xFFFF c.grants 1
      wait := satAdd 0xFFFFFFFF c.wait ((now - w.2) * cclkPerTick + cost) })

/-- Every free target grants what it can, each grant to a request that has waited, at 2 CCLK (R410). -/
def grantAll (s : State) : State :=
  forEach targets (fun t s => match nextGrant s.now s.matrix t with
    | some w => { s with matrix := doGrant s.now 2 t w s.matrix }
    | none => s) s

/-- A request has arrived at a target: one that finds it idle and parked on its master starts with no grant cycle (R410, R411). -/
def grantNew (tg : Target) (w : BurstReq × Nat) (s : State) : State :=
  if nextGrant s.now s.matrix tg = some w ∧ (s.matrix.target tg).parked = w.1.master then
    { s with matrix := doGrant s.now 0 tg w s.matrix }
  else grantAll s

/-- The next burst of a record `l` at offset `o` of its ring, of which `made` bytes have been requested: ascending, its body first
and its last four bytes in a burst of their own, so that they complete after the body (R413, R423, R444); `none`: no such burst. -/
def recordBurst (o made : Nat) (l : List Byte) (q : BurstReq) : Option BurstReq :=
  let body := l.length - 4
  if q.offset = o + made ∧ (made + q.len ≤ body ∨ made = body ∧ q.len = 4) then
    some { q with bytes := (l.drop made).take q.len, commit := made == body }
  else none

/-- What a capture writer writes is the record in its hand; `none` when it has none. -/
def captureBytes (s : State) (q : BurstReq) : Option BurstReq :=
  match s.capture.hand with
  | some (o, l) => recordBurst o s.capture.made l q
  | none => none

/-- A burst of a record has been requested. -/
def countMade (q : BurstReq) (s : State) : State :=
  if !q.write then s
  else match q.fn with
    | .captureRing => { s with capture := { s.capture with made := s.capture.made + q.len } }
    | .tallyRing => { s with tally := { s.tally with made := s.tally.made + q.len } }
    | _ => s

/-- MATRIX_REQUEST (R409, R413): refused when no window decodes it, else granted or held back. -/
def matrixRequest (q : BurstReq) (s : State) : State :=
  let standby := match writerOf q.master with
    | some e => s.activeEng != some e
    | none => false
  if standby || !fnMaster q.fn q.master || longest q.master < q.len || q.len = 0 then s
  else match decodes s q with
    | none =>
      let m := s.matrix.count q.master (fun c => { c with refused := satAdd 0xFFFF c.refused 1 })
      { s with matrix := if q.write then m else { m with readBack := zeros q.len } }
    | some (tg, _) =>
      let s1 := countMade q s
      let w := ({ q with bytes := fitTo q.len q.bytes }, s.now)
      grantNew tg w { s1 with matrix := s1.matrix.setTarget tg (fun t => { t with waiting := t.waiting ++ [w] }) }

/-- A capture record's commit word is written: the next takes the number and the place after it, a chunk counts as written, and KP
keeps a copy of the word (R419, R420, R444, R445). -/
def captureCommitted (word : BitVec 32) (a : Nat) (s : State) : State :=
  match s.capture.hand with
  | none => s
  | some (o, r) =>
    let c := s.capture
    { s with capture := { c with
        hand := none, made := 0, seq := word, offset := if recordKind r = 3 then 0 else o + r.length
        written := if isChunk r then satAdd 0xFFFF c.written 1 else c.written
        drops := if isChunk r then c.drops - leField r 0x18 2 else c.drops
        lastCommit := some (a, word) } }

/-- TAIL_SEQ of the record in writing is written: it is the last one committed, and KP keeps a copy of the word (R420, R423). -/
def tallyCommitted (word : BitVec 32) (a : Nat) (s : State) : State :=
  { s with tally := { s.tally with
      writing := none, made := 0, committed := word, commitTurn := true, lastCommit := some (a, word) } }

/-- The commit word of a record has been written at target address `a`. -/
def wordWritten (q : BurstReq) (a : Nat) (s : State) : State :=
  let word := BitVec.ofNat 32 (leNat q.bytes)
  if !q.commit then s
  else match q.fn with
    | .captureRing => captureCommitted word a s
    | .tallyRing => tallyCommitted word a s
    | _ => s

/-- BURST_COMPLETE (R410): the burst in progress on a target ends, and the target grants the next. -/
def burstEnds (t : Target) (s : State) : State :=
  match (s.matrix.target t).busy with
  | none => s
  | some q =>
    let m1 := (s.matrix.setTarget t (fun x => { x with busy := none })).floats s.now
    let s1 := match decodes s q with
      | none => { s with matrix := m1 }
      | some (_, a) =>
        if q.write then wordWritten q a { s with matrix := m1.writeMem t a q.bytes }
        else { s with matrix := { m1 with readBack := s.readTarget t a q.len } }
    grantAll s1

/-- What is granted and waiting on every target is dropped: the memory balls are released, and a record in writing is to be written
from its first byte again (R422). -/
def dropBursts (s : State) : State :=
  { s with
    capture := { s.capture with made := 0 }, tally := { s.tally with made := 0 }
    matrix := (targets.foldl (fun m t => m.setTarget t (fun x => { x with busy := none, waiting := [] }))
      (s.matrix.chargeWaits s.now)).floats s.now }

/-! ### Lending (R416, R417, R508) -/

/-- KP drives the memory balls: a start has been recognised and the keeper is in MAIN. -/
def State.drivesBalls (s : State) : Bool := s.keeper.power == .main && s.keeper.phase != .waiting

/-- The matrix runs: KP drives the memory balls and CCLK runs (R47, R457, R469). -/
def State.runsBursts (s : State) : Bool := s.drivesBalls && s.time.counting

/-- LEND_REQUEST: ignored when no window is lendable; while KP does not drive the balls, the memory is the host's (R417,
R508). -/
def lendRequested (l : LendTarget) (s : State) : State :=
  if (s.matrix.lend l).high then s
  else if !s.drivesBalls || lendable s.image l then
    { s with matrix := (s.matrix.setLend l (fun x => { x with high := true, requested := true })).floats s.now }
  else
    let m := s.matrix.setLend l (fun x => { x with high := true })
    { s with matrix := { m with ignored := satAdd 0xFFFF m.ignored 1 } }

/-- The target of a lend. -/
def lendTarget : LendTarget → Target
  | .tally => .fram
  | .capture => .psram

/-- The balls of a memory have been high-impedance for a tick, where ticks are counted (R416, R489). -/
def State.floated (s : State) (l : LendTarget) : Bool :=
  match (s.matrix.lend l).hiZ with
  | some z => !s.time.counting || decide (z < s.now)
  | none => false

/-- LEND_GRANT: in the tick after its balls have gone high-impedance the host owns the memory. -/
def lendGranted (l : LendTarget) (s : State) : State :=
  let x := s.matrix.lend l
  if x.requested && !x.granted && s.floated l && (s.matrix.target (lendTarget l)).busy.isNone then
    { s with matrix := s.matrix.setLend l (fun x => { x with granted := true, lentNow := true }) }
  else s

/-- The largest device of a target (R414). -/
def deviceBytes : Target → Nat
  | .flash => 0x1000000
  | .psram => 0x4000000
  | .fram => 0x80000
  | .sram => 0x10000

/-- What the host changed in a memory it held. -/
def hostWrites (t : Target) (wrote : List (Nat × Byte)) (m : Matrix) : Matrix :=
  (wrote.filter (fun w => decide (w.1 < deviceBytes t))).foldl (fun m w => m.writeMem t w.1 [w.2]) m

/-- LEND_RELEASE: the lend ends, a check falls due, and held requests may resume from 32 ticks later on; or the request is withdrawn
before its grant, and they resume (R416, R420). DESIGN CHOICE (assumption 181): they resume with the first request, end of a burst or
frame boundary from then on. -/
def lendReleased (l : LendTarget) (wrote : List (Nat × Byte)) (s : State) : State :=
  let x := s.matrix.lend l
  if x.granted then
    let m := (hostWrites (lendTarget l) wrote s.matrix).setLend l (fun x =>
      { x with high := false, requested := false, granted := false, checkDue := true, hiZ := none, openAt := s.now + 32 })
    { s with matrix := m }
  else grantAll { s with matrix := s.matrix.setLend l (fun x => { x with high := false, requested := false, hiZ := none }) }

/-- KP's copy of the last commit word of a memory, with its target address. -/
def State.lastCommit (s : State) (l : LendTarget) : Option (Nat × BitVec 32) :=
  match l with
  | .tally => s.tally.lastCommit
  | .capture => s.capture.lastCommit

/-- The lend check of a memory has a window (R409). -/
def State.lendWindow (s : State) (l : LendTarget) : Option Win :=
  fnWindow s.image .lendMonitor (match l with | .tally => .lendCheckTally | .capture => .lendCheckCapture)

/-- Bit of DISTURBED (R434). -/
def lendBit : LendTarget → Nat
  | .tally => 0
  | .capture => 1

/-- LEND_CHECK (R420): the last commit word is read and compared with KP's copy. -/
def lendChecked (l : LendTarget) (s : State) : State :=
  if (s.matrix.lend l).checkDue && !s.matrix.lent (lendTarget l) then
    let s1 := { s with matrix := s.matrix.setLend l (fun x => { x with checkDue := false }) }
    match s.lendWindow l, s.lastCommit l with
    | some _, some (a, w) =>
      if leNat (s.readTarget (lendTarget l) a 4) = w.toNat then s1
      else { s1 with matrix := { s1.matrix with disturbed := setBit s1.matrix.disturbed (lendBit l) true } }
    | _, _ => s1
  else s

/-- A memory whose request is high is the host's when KP takes its balls, and when main power fails (R457, R508). -/
def lendAtTake (s : State) : State :=
  let f := fun (x : Lend) => { x with requested := x.high, granted := x.high, lentNow := x.lentNow || x.high }
  { s with matrix := { s.matrix with lendT := f s.matrix.lendT, lendC := f s.matrix.lendC } }

/-- Frames in which a memory was lent at any tick (R434). -/
def Lend.endFrame (x : Lend) : Lend :=
  { x with frames := if x.lentNow || x.granted then satAdd 0xFFFF x.frames 1 else x.frames, lentNow := x.granted }

/-- The lends of a frame end. -/
def endLendFrames (s : State) : State :=
  { s with matrix := { s.matrix with lendT := s.matrix.lendT.endFrame, lendC := s.matrix.lendC.endFrame } }

def execBurstComplete (t : Target) (k : Tick) (s : State) : Host.Outcome State Fault Refusal :=
  .next (burstEnds t (atTick k s))

def execLendRequest (m : LendTarget) (k : Tick) (s : State) : Host.Outcome State Fault Refusal :=
  .next (lendRequested m (atTick k s))

def execLendGrant (m : LendTarget) (k : Tick) (s : State) : Host.Outcome State Fault Refusal :=
  .next (lendGranted m (atTick k s))

def execLendCheck (m : LendTarget) (k : Tick) (s : State) : Host.Outcome State Fault Refusal :=
  .next (lendChecked m (atTick k s))

end Sys2Proof.Machine
end

