-- ==== Sys2Proof/Machine/Tally.lean ====
section
/-! DEFINITION. The tally (R418, R421 to R437, R505): the bytes of a record, the second close, the record buffer, and the
writing of records to the ring. -/

namespace Sys2Proof.Machine

/-! ### Field helpers -/

/-- A count in `n` bytes, held at the field's top. -/
def field (n v : Nat) : List Byte := leBytes n (min v (256 ^ n - 1))

/-- A count as a tally float (R299, R300). -/
def float16 (v : Nat) : List Byte := leBytes 2 (tallyFloat v)

/-- OR bytes into a list at an offset. -/
def orAt (l : List Byte) (off : Nat) (v : List Byte) : List Byte :=
  l.take off ++ List.zipWith (fun a b => a ||| b) (l.drop off) v ++ (l.drop (off + v.length))

/-! ### Sections of a record -/

/-- A port's family byte and hinge byte (R428). -/
def portTail (x : PortSt) : List Byte :=
  leBytes 1 x.line.family.toNat ++ leBytes 1 (x.hinge.code + 4 * b2n x.hinge.faultSeen)

/-- Counter `i` as a port reports it: 0 while its receiver does not run (R209). -/
def rawOf (x : PortSt) (i : Nat) : Nat := if x.line.running then (x.raw.c.toList.getD i 0).toNat else 0

/-- A port in a full record (R428). -/
def portFull (x : PortSt) : List Byte :=
  (List.range 7).flatMap (fun i => field 2 (rawOf x i)) ++ (List.range 10).flatMap (fun i => field 2 (rawOf x (9 + i))) ++
    zeros 2 ++ field 4 (rawOf x 7) ++ field 4 (rawOf x 8) ++ portTail x ++ zeros 2

/-- A port in a compact record (R436). -/
def portCompact (x : PortSt) : List Byte := (List.range 19).flatMap (fun i => float16 (rawOf x i)) ++ portTail x

/-- An event entry (R429). -/
def entryBytes (e : EventEntry) : List Byte :=
  leBytes 8 e.stamp.toNat ++
    leBytes 4 (e.count.toNat + 65536 * e.port.val + 2 ^ 21 * (e.code.toNat % 16) + 2 ^ 25 * b2n e.ovr + 2 ^ 26 * (e.qual.toNat % 64))

/-- The flag byte of a pattern definition (R430). -/
def patFlags (x : PatSt) : List Byte :=
  leBytes 1 (b2n x.active + 2 * b2n x.ana.inSync + 4 * b2n x.ana.all0 + 8 * b2n x.ana.all1)

/-- A pattern definition in a full record (R430): PAT_GEN, PAT_CMP, PAT_ERR; PAT_INJ, PAT_LOSS, PAT_NSFR. -/
def patFull (x : PatSt) : List Byte :=
  let c := fun i => (x.c.toList.getD i 0).toNat
  field 4 (c 0) ++ field 4 (c 2) ++ field 4 (c 3) ++ field 2 (c 1) ++ field 2 (c 4) ++ field 2 (c 5) ++ patFlags x ++ zeros 1

/-- A pattern definition in a compact record (R436). -/
def patCompact (x : PatSt) : List Byte :=
  (List.range 6).flatMap (fun i => float16 (x.c.toList.getD i 0).toNat) ++ patFlags x ++ zeros 3

/-- A timer (R431). -/
def timerBytes (t : Timer) : List Byte :=
  leBytes 4 t.counter.toNat ++ leBytes 8 t.stamp.toNat ++ leBytes 1 t.qual.toNat ++
    leBytes 1 (b2n t.match_ + 2 * b2n t.ovf + 4 * b2n t.out + 8 * b2n t.armed) ++ leBytes 2 t.events.toNat

/-- Header errors on the links into an engine (R211, R432). -/
def hecErrors (s : State) (e : Eng) : Nat :=
  let l := fun (d : DieSt) => ((d.links e).toList.map (fun k => k.hecUp)).foldl (· + ·) 0
  l s.lda + l s.ldb + (s.eng e).tally.hecKeeper

/-- The first four bytes of an engine's section (R432). -/
def engineHead (s : State) (e : Eng) : List Byte :=
  let x := s.eng e
  let c := x.ctl
  let re := match c.rejoin with | .none => (false, false) | .resync _ _ _ => (true, false) | .cold _ => (false, true)
  leBytes 1 c.claim ++ leBytes 1 x.tally.minHealth ++ leBytes 1 c.cause ++
    leBytes 1 (b2n c.powered + 2 * b2n c.leftOff + 4 * b2n x.tally.disagreed + 8 * b2n (x.tally.resync || re.1) +
      16 * b2n (x.tally.coldRejoin || re.2) + 32 * b2n x.tally.heldInc)

/-- The PROOF field of an engine (R432). -/
def proofField (t : EngTally) : Nat :=
  b2n t.proofRan + 2 * b2n (t.proofRan && !t.proofBad) + 4 * b2n t.proofPart + 65536 * min t.proofErr 0xFFFF

/-- An engine's section (R432). -/
def engineBytes (s : State) (e : Eng) : List Byte :=
  let t := (s.eng e).tally
  engineHead s e ++ field 4 t.mismatch ++ field 4 t.subst ++ field 2 t.culprit ++ field 2 t.rallyFail ++
    field 4 (hecErrors s e) ++ leBytes 4 (proofField t) ++ zeros 8

/-- The engine whose counters and peaks the fabric section holds (R433). -/
def fabricEng (s : State) : Eng := s.activeEng.getD .ex

/-- The mask of output ports with a notice set in any of their VOQs (R433). -/
def noticeMask (v : Vector (BitVec 32) 32) : BitVec 32 := maskOf 32 (fun d => v.toList.getD d 0 != 0)

/-- The fabric section (R433). -/
def fabricBytes (s : State) : List Byte :=
  let d := (s.eng (fabricEng s)).data
  leBytes 4 (noticeMask s.duplex.cNotice).toNat ++ leBytes 4 (noticeMask s.duplex.pNotice).toNat ++
    d.cCross.toList.flatMap (fun x => leBytes 2 x.toNat) ++ d.pCross.toList.flatMap (fun x => leBytes 2 x.toNat) ++
    d.cPeak.toList.flatMap (fun x => field 2 x) ++ d.pPeak.toList.flatMap (fun x => field 2 x) ++
    field 4 s.duplex.heldFrames ++ field 4 s.duplex.aisFrames

/-- The matrix section (R434). -/
def matrixBytes (s : State) : List Byte :=
  let m := s.matrix
  m.masters.toList.flatMap (fun x => field 2 x.grants ++ field 2 x.refused ++ field 4 x.wait) ++ field 2 m.lendT.frames ++
    field 2 m.lendC.frames ++ field 2 m.ignored ++ leBytes 2 m.disturbed.toNat ++ field 2 s.capture.dropped ++
    field 2 s.capture.written ++ leBytes 4 s.tally.buffer.length

/-- A stamp that may be absent: its octets and its quality (R435). -/
def stampOr (t : Option TimeStamp) : List Byte × List Byte :=
  match t with
  | some x => (leBytes 8 x.stamp.toNat, leBytes 1 x.qual.toNat)
  | none => (zeros 8, [0xFF])

/-- The SEQ of a TIME; the manual gives it no value when there is none (a free value). -/
def seqOr (t : Option TimeStamp) (free : Byte) : Nat := match t with | some x => x.seq.toNat | none => free.toNat % 16

/-- The partner status field (R386): during a KREF fault no mirrored values are in force. -/
def State.partnerStatus (s : State) : BitVec 8 := setBit s.partner.status 2 s.mirrorOn.isSome

/-- The partner section (R435). -/
def partnerBytes (s : State) : List Byte :=
  let p := s.ptime
  let (a, qa) := stampOr p.ownTime
  let (b, qb) := stampOr p.gotTime
  leBytes 1 s.partnerStatus.toNat ++ field 1 s.partner.unacked ++ field 2 p.launched ++ field 2 p.valid ++
    field 2 p.discarded ++ field 2 p.stale ++ field 2 p.meets ++ field 2 p.empty ++
    leBytes 1 (seqOr p.ownTime (Config.freeByte s.freeIdx) + 16 * seqOr p.gotTime (Config.freeByte (s.freeIdx + 1))) ++
    zeros 1 ++ leBytes 4 (BitVec.ofInt 32 p.offset).toNat ++ a ++ qa ++ qb ++ zeros 2 ++ b ++ fitTo 19 p.gotOctets ++ zeros 5

/-- The levels in effect, one nibble each, KEY_MODE lowest; a held value as 0 (R427). -/
def State.liveKeys (s : State) : Nat :=
  let l := fun (i : Fin 4) => ((s.level i).getD 0).toNat
  l 0 + 16 * l 1 + 256 * l 2 + 4096 * l 3

/-- Keys that hold their held value (R427). -/
def State.heldKeys (s : State) : Nat :=
  let h := fun (i : Fin 4) => b2n s.keys.live[i].value.isNone
  h 0 + 2 * h 1 + 4 * h 2 + 8 * h 3

/-- Event entries that a record carries: 64 in a full record, 16 in a compact one (R407, R437). -/
def entryLimit (full : Bool) : Nat := if full then 64 else 16

/-- The header of a record (R427). LOST_RECORDS and SECOND bit 2 are filled in when it is written. -/
def headerBytes64 (s : State) (full : Bool) (seq : Nat) : List Byte :=
  let t := s.tally
  let lim := entryLimit full
  let act := match s.activeEng with | some .ex => 0 | some .ey => 4 | none => 8
  let flag := fun (b : Bool) n => if b then n else 0
  leBytes 4 seq ++ leBytes 2 0x4C54 ++ leBytes 1 (if full then 1 else 2) ++ leBytes 1 1 ++ leBytes 8 s.stamp.toNat ++
    leBytes 1 s.qual.toNat ++ leBytes 1 (s.modes.mode.code + flag t.modeChanged 8) ++
    leBytes 1 (s.activePage % 16 + flag t.swapped 16) ++ leBytes 1 (t.filter % 4 + flag t.filterChanged 4) ++
    leBytes 1 (s.policy.code + act + flag s.duplex.moved 16) ++ leBytes 1 s.image.status.toNat ++
    leBytes 1 s.keys.bootAmb.toNat ++ leBytes 1 (b2n s.time.partialSecond + 2 * b2n s.tap.halt) ++
    leBytes 2 s.keys.unassigned.toNat ++ s.keys.live.toList.flatMap (fun k => field 1 k.ambCount) ++ leBytes 2 s.liveKeys ++
    zeros 4 ++ leBytes 1 (min t.entries.length lim) ++ leBytes 1 s.heldKeys ++
    field 2 (t.lostEntries + (t.entries.length - lim)) ++ leBytes 8 s.keeper.odometer.toNat ++
    leBytes 4 s.keeper.events.toNat ++ leBytes 4 s.alarm.seen.toNat ++ zeros 8

/-- The event entries section. -/
def entriesBytes (s : State) (full : Bool) : List Byte :=
  let lim := entryLimit full
  fitTo (12 * lim) ((s.tally.entries.take lim).flatMap entryBytes)

/-- Select counters of both engines. -/
def selects_ (s : State) : List (BitVec 32) := s.engX.data.select.toList ++ s.engY.data.select.toList

/-- The pair state words, of the turn that ends at the close. -/
def pairWords (s : State) : List Byte := all16.flatMap (fun g => leBytes 4 (pairWord s.pairs[g].slip s g))

/-- A mask over the timers. -/
def timerMask (s : State) (f : Timer → Bool) : Nat :=
  (maskOf 16 (fun i => match s.timers[i]? with | some t => f t | none => false)).toNat

/-- A full record up to its CRC (R425). -/
def fullBody (s : State) (seq : Nat) : List Byte :=
  fitTo 0xFF8 (headerBytes64 s true seq ++ s.ports.toList.flatMap portFull ++ entriesBytes s true ++
    s.pats.toList.flatMap patFull ++ (selects_ s).flatMap (fun x => leBytes 4 x.toNat) ++ pairWords s ++
    s.timers.toList.flatMap timerBytes ++ engineBytes s .ex ++ engineBytes s .ey ++ fabricBytes s ++ matrixBytes s ++
    partnerBytes s)

/-- The summary of a compact record (R436). -/
def summaryBytes (s : State) : List Byte :=
  leBytes 4 (noticeMask s.duplex.cNotice).toNat ++ leBytes 4 (noticeMask s.duplex.pNotice).toNat ++ leBytes 2 (timerMask s (fun t => t.match_)) ++
    leBytes 2 (timerMask s (fun t => t.ovf)) ++ engineHead s .ex ++ engineHead s .ey ++ float16 s.engX.tally.mismatch ++
    float16 s.engY.tally.mismatch ++ float16 s.duplex.heldFrames ++ float16 s.duplex.aisFrames ++
    leBytes 1 s.partnerStatus.toNat ++ field 1 s.partner.unacked ++ float16 s.ptime.discarded ++
    leBytes 4 (BitVec.ofInt 32 s.ptime.offset).toNat ++ (matrixBytes s).drop 0x30

/-- A compact record up to its CRC (R436). -/
def compactBody (s : State) (seq : Nat) : List Byte :=
  fitTo 0x7F8 (headerBytes64 s false seq ++ s.ports.toList.flatMap portCompact ++ entriesBytes s false ++
    s.pats.toList.flatMap patCompact ++ (selects_ s).flatMap (fun x => float16 x.toNat) ++ pairWords s ++ summaryBytes s)

/-! ### Sticky content (R418) -/

/-- The sticky content of the state at a close. -/
def stickyOf (s : State) : Sticky :=
  { cNotice := noticeMask s.duplex.cNotice, pNotice := noticeMask s.duplex.pNotice, image := s.image.status &&& 0x70, partner := s.partner.status &&& 0xF8
    exd := maskOf 16 (fun i => match s.pairs[i]? with | some x => x.exd | none => false)
    exp := maskOf 16 (fun i => match s.pairs[i]? with | some x => x.exp | none => false)
    matched := BitVec.ofNat 16 (timerMask s (fun t => t.match_)), ovfs := BitVec.ofNat 16 (timerMask s (fun t => t.ovf))
    disturbed := s.matrix.disturbed, qual := s.qual &&& 0x18 }

/-- The sticky content of a discarded record is ORed into the next oldest (R418). -/
def Sticky.join (lost next : Sticky) : Sticky :=
  { cNotice := lost.cNotice ||| next.cNotice, pNotice := lost.pNotice ||| next.pNotice, image := lost.image ||| next.image
    partner := lost.partner ||| next.partner, exd := lost.exd ||| next.exd
    exp := (next.exp &&& ~~~(lost.exd &&& ~~~next.exd)) ||| (lost.exp &&& lost.exd &&& ~~~next.exd)
    matched := lost.matched ||| next.matched, ovfs := lost.ovfs ||| next.ovfs, disturbed := lost.disturbed ||| next.disturbed
    qual := lost.qual ||| next.qual }

/-- The record is a full one. -/
def Record.full (r : Record) : Bool := r.body.length == 0xFF8

/-- Offsets, in a full or a compact record, of CNOTICE, the partner status, the pair words and DISTURBED. -/
def stickyPlaces (full : Bool) : Nat × Nat × Nat × Nat :=
  if full then (0xC80, 0xDD0, 0xB00, 0xD90 + 0x36) else (0x780, 0x79C, 0x740, 0x7A4 + 6)

/-- EXD and EXP of one pair word. -/
def putExercise (y : Sticky) (base : Nat) (l : List Byte) (i : Nat) : List Byte :=
  let o := base + 4 * i + 1
  let b := (byteAt l o &&& 0xF3) ||| BitVec.ofNat 8 (4 * b2n (y.exd.getLsbD i) + 8 * b2n (y.exp.getLsbD i))
  replaceAt l o [b]

/-- MATCH and OVF of one timer in a full record. -/
def putTimer (y : Sticky) (l : List Byte) (i : Nat) : List Byte :=
  orAt l (0xB40 + 16 * i + 0xD) [BitVec.ofNat 8 (b2n (y.matched.getLsbD i) + 2 * b2n (y.ovfs.getLsbD i))]

/-- A record's body with its sticky content. -/
def putSticky (r : Record) : List Byte :=
  let y := r.sticky
  let (n, p, g, d) := stickyPlaces r.full
  let b1 := orAt r.body n (leBytes 4 y.cNotice.toNat ++ leBytes 4 y.pNotice.toNat)
  let b2 := orAt (orAt (orAt b1 0x15 [y.image]) 0x10 [y.qual]) p [y.partner]
  let b3 := orAt ((List.range 16).foldl (putExercise y g) b2) d [BitVec.ofNat 8 y.disturbed.toNat]
  if r.full then (List.range 16).foldl (putTimer y) b3
  else orAt b3 0x788 (leBytes 2 y.matched.toNat ++ leBytes 2 y.ovfs.toNat)

/-- A record as it is written: LOST_RECORDS, and SECOND bit 2 when it waited in the buffer (R418, R427). -/
def finishRecord (lost : Nat) (waited : Bool) (r : Record) : Record :=
  { r with body := orAt (replaceAt (putSticky r) 0x20 (leBytes 4 lost)) 0x17 [if waited then 4 else 0] }

/-- The bytes of a record, CRC and TAIL_SEQ included (R423, R424). -/
def Record.bytes (r : Record) : List Byte := r.body ++ leBytes 4 (crc32 r.body).toNat ++ leBytes 4 r.seq.toNat

/-! ### The record buffer and the ring (R418, R421 to R423) -/

/-- The tally ring takes bursts: its window is in use and the FRAM is not lent. -/
def ringOpen (s : State) : Bool := (ringWindow s.image).isSome && !s.matrix.lent .fram

/-- Length of the records of the ring (R421); compact while there is no ring. -/
def recordLen (im : Image) : Nat := match ringWindow im with | some w => if 65536 ≤ w.size then 4096 else 2048 | none => 2048

/-- Records the buffer holds (R418). -/
def bufferCap (im : Image) : Nat := match bufferWindow im with | some w => min 8 ((w.size - 4096) / recordLen im) | none => 0

/-- The oldest buffered record begins to be written, if nothing is being written (R418). -/
def writeNext (s : State) : State :=
  match s.tally.writing, s.tally.buffer with
  | none, r :: rs =>
    if ringOpen s then
      { s with tally := { s.tally with
          writing := some (finishRecord s.tally.lostRecords true r), made := 0, buffer := rs, lostRecords := 0 } }
    else s
  | _, _ => s

/-- A record falls due (R418), after those that the buffer holds. -/
def recordDue (r : Record) (s0 : State) : State :=
  let s := writeNext s0
  let t := s.tally
  if t.writing.isNone && t.buffer.isEmpty && ringOpen s then
    { s with tally := { t with writing := some (finishRecord t.lostRecords false r), made := 0, lostRecords := 0 } }
  else if t.buffer.length < bufferCap s.image then { s with tally := { t with buffer := t.buffer ++ [r] } }
  else match t.buffer ++ [r] with
    | old :: next :: rest =>
      { s with tally := { t with
          buffer := { next with sticky := old.sticky.join next.sticky } :: rest, lostRecords := t.lostRecords + 1 } }
    | _ => { s with tally := { t with carry := some r.sticky, lostRecords := t.lostRecords + 1 } }

/-- Slots of the ring. -/
def ringSlots (w : Win) : Nat := w.size / (if 65536 ≤ w.size then 4096 else 2048)

/-! ### The close (R208, R233, R439, R505) -/

/-- A second boundary closes a record now (R505). -/
def closes (s : State) : Bool :=
  s.pins.resetN && s.image.inUse.isSome && (s.keeper.phase == .started || s.keeper.phase == .done) && s.keeper.power == .main

/-- The counters and flags of a port restart (R208). -/
def PortSt.restart (x : PortSt) : PortSt :=
  { x with
    raw := { x.raw with c := Vector.replicate 19 0 }
    hinge := { x.hinge with faultSeen := x.hinge.fault } }

/-- The counts of an engine restart; peaks restart at the present occupancy (R233). -/
def EngSt.restart (x : EngSt) : EngSt :=
  { x with
    tally :=
      { minHealth := x.ctl.health, heldInc := x.ctl.incumbent, resync := false, coldRejoin := false, disagreed := false
        mismatch := 0, subst := 0, culprit := 0, rallyFail := 0, proofRan := false, proofPart := false, proofErr := 0
        proofBad := false, hecKeeper := 0, hecAtKeeper := 0 }
    data := { x.data with
      cNotice := Vector.replicate 32 0, pNotice := Vector.replicate 32 0, cCross := Vector.replicate 32 0, pCross := Vector.replicate 32 0
      cPeak := Vector.ofFn (fun o => occOut x.data.circuit o), pPeak := Vector.ofFn (fun o => occOut x.data.packet o)
      select := Vector.replicate 16 0, pats := x.data.pats.map (fun y => { y with c := Vector.replicate 6 0 }) } }

/-- Header-error counts of a line die restart. -/
def DieSt.clearHec (d : DieSt) : DieSt :=
  let f := fun (l : Link) => { l with hecUp := 0, hecDown := 0 }
  { d with linkX := d.linkX.map f, linkY := d.linkY.map f }

/-- Everything that a closed record has carried restarts (R46, R115, R208, R233, R386, R396, R427). -/
def restartCounts (s : State) : State :=
  { s with
    ports := s.ports.map PortSt.restart
    engX := s.engX.restart, engY := s.engY.restart, lda := s.lda.clearHec, ldb := s.ldb.clearHec
    timers := s.timers.map (fun t => { t with match_ := false, ovf := false, events := 0 })
    pairs := s.pairs.map (fun x => { x with exd := false, exp := false })
    duplex := { s.duplex with moved := false, heldFrames := 0, aisFrames := 0, cNotice := Vector.replicate 32 0, pNotice := Vector.replicate 32 0 }
    capture := { s.capture with dropped := 0, written := 0 }
    ptime := { s.ptime with launched := 0, valid := 0, discarded := 0, stale := 0, meets := 0, empty := 0 }
    partner := { s.partner with status := s.partner.status &&& 0x07 }
    image := { s.image with status := s.image.status &&& 0x8F }
    matrix := { s.matrix with
      masters := s.matrix.masters.map (fun _ => { grants := 0, refused := 0, wait := 0 })
      lendT := { s.matrix.lendT with frames := 0 }, lendC := { s.matrix.lendC with frames := 0 }
      ignored := 0, disturbed := 0 }
    keys := { s.keys with
      live := s.keys.live.map (fun k => { k with ambCount := 0 }), unassigned := s.keys.unassigned &&& 0x0FF }
    alarm := { s.alarm with seen := s.alarm.holds }
    keeper := { s.keeper with events := 0 }
    time := { s.time with gap := false, cold := false, partialSecond := false }
    tally := { s.tally with
      entries := [], lostEntries := 0, modeChanged := false, swapped := false, filterChanged := false }
    freeIdx := s.freeIdx + 2 }

/-- Step 1 of a second boundary (R25): what requests have waited so far counts (R434), a record is latched, and the counts
restart. -/
def secondClose (s0 : State) : State :=
  let s := { s0 with matrix := s0.matrix.chargeWaits s0.now }
  if closes s then
    let n := s.tally.seq + 1
    let body := if recordLen s.image = 4096 then fullBody s n.toNat else compactBody s n.toNat
    let own := stickyOf s
    let y := match s.tally.carry with | some c => c.join own | none => own
    let s1 := restartCounts s
    recordDue ⟨n, body, y⟩ { s1 with tally := { s1.tally with seq := n, carry := none } }
  else { s with time := { s.time with partialSecond := true } }

/-! ### Finding records at a cold start (R422, R464) -/

/-- A burst that the dump engine reads at an offset of the ring; a refused read returns zeros (R96, R409). -/
def ringRead (s : State) (o n : Nat) : List Byte :=
  match decodes s { master := .dump, fn := .tallyRing, offset := o, len := n, write := false, bytes := [], commit := false } with
  | some (t, a) => s.readTarget t a n
  | none => zeros n

/-- One slot of the ring: its bytes, in bursts of 256 (R408). -/
def slotBytes (s : State) (i : Nat) : List Byte :=
  let len := recordLen s.image
  (List.range (len / 256)).flatMap (fun j => ringRead s (len * i + 256 * j) 256)

/-- HEAD_SEQ of a slot whose HEAD_SEQ and TAIL_SEQ agree and that it matches (R422). -/
def slotSeq (n i : Nat) (l : List Byte) : Option Nat :=
  let h := leField l 0 4
  if h = leField l (l.length - 4) 4 ∧ h % n = i then some h else none

/-- A slot holds a valid record (R424). -/
def slotValid (full : Bool) (l : List Byte) : Bool :=
  (leField l 4 2 == 0x4C54) && (leField l 6 1 == (if full then 1 else 2)) && (leField l 7 1 == 1) &&
    (leField l (l.length - 8) 4 == (crc32 (l.take (l.length - 8))).toNat)

/-- The highest sequence number in the ring, and turn of CLOSE and ODOMETER of its newest valid record. -/
def scanRing (s : State) : Option Nat × Option (Nat × Nat) :=
  match ringWindow s.image with
  | none => (none, none)
  | some w =>
    let n := ringSlots w
    let found := (List.range n).filterMap (fun i =>
      let l := slotBytes s i
      (slotSeq n i l).map (fun q => (q, l)))
    let top := fun (l : List (Nat × List Byte)) => best (fun a b => decide (b.1 < a.1)) l
    ((top found).map (fun x => x.1),
     (top (found.filter (fun x => slotValid (recordLen s.image == 4096) x.2))).map (fun x =>
       (leField x.2 8 8 / 65536, leField x.2 0x28 8)))

/-- What the dump engine writes to the ring is the record in writing; `none` when there is none there. -/
def ringBytes (s : State) (q : BurstReq) : Option BurstReq :=
  match s.tally.writing, ringWindow s.image with
  | some r, some w =>
    let len := r.body.length + 8
    recordBurst (len * (r.seq.toNat % (w.size / len))) s.tally.made r.bytes q
  | _, _ => none

/-- A request as its master makes it: what it writes to a ring is its record in hand, and TAIL_SEQ goes with TALLY_COMMIT (R413, R423,
R443). -/
def asMade (s : State) (q : BurstReq) : Option BurstReq :=
  if !q.write || (fnWindow s.image q.master q.fn).isNone then some q
  else match q.fn with
    | .captureRing => captureBytes s q
    | .tallyRing => (ringBytes s q).filter (fun r => !r.commit)
    | _ => some q

/-- The active capture writer takes its next record in hand for a burst that writes. -/
def inHand (q : BurstReq) (s : State) : State :=
  match writerOf q.master with
  | some e => if q.write && q.fn == .captureRing && s.activeEng == some e then takeRecord e s else s
  | none => s

/-- MATRIX_REQUEST (R409). -/
def requestArrives (q : BurstReq) (s : State) : State :=
  if !s.runsBursts then s
  else
    let s1 := inHand q s
    match asMade s1 q with
    | some r => matrixRequest r s1
    | none => s

/-! ### TALLY_COMMIT (R423) -/

/-- The next burst of the record in writing, of at most 256 bytes; TAIL_SEQ has one of its own. -/
def ringNext (s : State) : Option BurstReq :=
  match s.tally.writing, ringWindow s.image with
  | some r, some w =>
    let len := r.body.length + 8
    let n := if s.tally.made < len - 4 then min 256 (len - 4 - s.tally.made) else 4
    let o := len * (r.seq.toNat % (w.size / len)) + s.tally.made
    ringBytes s { master := .dump, fn := .tallyRing, offset := o, len := n, write := true, bytes := [], commit := false }
  | _, _ => none

/-- The bursts of the record in writing that are left, at most `n`, each from its request to its end; one that is refused, or that the
FRAM does not grant at once, is the last. -/
def ringBursts : Nat → State → State
  | 0, s => s
  | n + 1, s =>
    match ringNext s with
    | some q =>
      let s1 := matrixRequest q s
      match (s1.matrix.target .fram).busy with
      | some b => if b.master = .dump then ringBursts n (burstEnds .fram s1) else s1
      | none => s1
    | none => s

/-- The dump engine can write its record now: the FRAM is free and not lent, and none of its own bursts is unfinished (R410, R413). -/
def ringFree (s : State) : Bool :=
  s.runsBursts && (s.matrix.target .fram).busy.isNone && !s.matrix.lent .fram && decide (s.matrix.openAt .fram ≤ s.now) &&
    !s.matrix.holding .dump && targets.all (fun t => (s.matrix.target t).waiting.all (fun w => w.1.master != .dump))

/-- Bursts that the record in writing still takes, TAIL_SEQ among them. -/
def burstsLeft (s : State) : Nat :=
  match s.tally.writing with
  | some r => ceilDiv (r.body.length + 4 - s.tally.made) 256 + 1
  | none => 0

/-- TALLY_COMMIT (R423): once every body burst has completed, TAIL_SEQ is written in a burst of its own. Body bursts that no
MATRIX_REQUEST has made go before it. DESIGN CHOICE (assumption 180): a record whose bursts the matrix refuses stays in writing. -/
def tallyCommit (s : State) : State :=
  if ringFree s then writeNext (ringBursts (burstsLeft s) s) else s

/-- What a frame boundary brings the memories: held requests resume after a lend, and a buffered record is taken up once the ring is
open (R416, R418, R422). -/
def memoryFrame (s : State) : State := if s.runsBursts then writeNext (grantAll s) else s

def execMatrixRequest (q : BurstReq) (k : Tick) (s : State) : Host.Outcome State Fault Refusal :=
  .next (requestArrives q (atTick k s))

def execTallyCommit (k : Tick) (s : State) : Host.Outcome State Fault Refusal := .next (tallyCommit (atTick k s))

def execLendRelease (m : LendTarget) (wrote : List (Nat × Byte)) (k : Tick) (s : State) :
    Host.Outcome State Fault Refusal := .next (writeNext (lendReleased m wrote (atTick k s)))

end Sys2Proof.Machine
end

