-- ==== Sys2Proof/Machine/Status.lean ====
section
/-! DEFINITION. The status stream (R440 to R442): the header and the port words of a turn. -/

namespace Sys2Proof.Machine

/-- Every active analysing definition on a port is in SYNC, and there is one (R442). -/
def analysersInSync (s : State) (p : Port) : Bool :=
  let l := all16.filter (fun i => s.analyses i && (s.patDef i).port == p)
  !l.isEmpty && l.all (fun i => s.pats[i].ana.inSync)

/-- The upper half of a port's word (R442): half of the pair state word, or CRC_ERR of the turn. -/
def upperHalf (s : State) (p : Port) : Nat :=
  if s.modes.mode = .guarded ∧ (s.prot (pairOf p)).enabled then
    let w := pairWord s.pairs[pairOf p].slipOld s (pairOf p)
    if p.val % 2 = 0 then w % 65536 else w / 65536
  else min s.ports[p].raw.crcOld 0xFFFF

/-- The word of a port (R442). -/
def portWord (s : State) (p : Port) : BitVec 32 :=
  let x := s.ports[p]
  let bit := fun (i : Nat) (b : Bool) => b2n b * 2 ^ i
  BitVec.ofNat 32 (x.hinge.code + bit 2 x.framer.aligned + bit 3 x.line.los + bit 4 (lofOf x) + bit 5 x.line.ais +
    bit 6 x.framer.rai + bit 7 (lomfOf x) + bit 8 x.raw.fbOld + bit 9 x.hinge.waiting + bit 10 x.line.txLimitOld +
    bit 11 x.hinge.fault + bit 12 x.slip.slipOld + bit 13 (analysersInSync s p) + bit 14 x.capture.evOld +
    bit 15 (!s.present p) + 65536 * upperHalf s p)

/-- The header of the present turn (R441). -/
def headerWord (s : State) : BitVec 64 :=
  let bit := fun (i : Nat) (b : Bool) => b2n b * 2 ^ i
  BitVec.ofNat 64 (s.pos.t.toNat % 2 ^ 32 * 2 ^ 32 + s.qual.toNat % 64 * 2 ^ 26 + s.modes.mode.code * 2 ^ 23 +
    s.activePage % 16 * 2 ^ 19 + s.engX.ctl.claim % 16 * 2 ^ 15 + s.engY.ctl.claim % 16 * 2 ^ 11 +
    bit 10 s.keys.live[0].ambNow + bit 9 s.keys.live[1].ambNow + bit 8 s.keys.live[2].ambNow + bit 7 s.keys.live[3].ambNow +
    bit 6 s.mirrorOn.isSome + bit 5 s.keys.krefFault + bit 4 (s.alarm.holds != 0) + bit 3 s.tally.commitOld +
    bit 2 s.tally.timerOld + bit 1 (swapPending s) + bit 0 s.tap.halt)

/-- The stream of a turn starts (R440). -/
def startStream (s : State) : State :=
  { s with status := { header := headerWord s, words := Vector.ofFn (fun p => portWord s p) } }

/-- The stream is low: in reset, in DOZE and while XIN is stopped (R440). -/
def stopStream (s : State) : State := { s with status := { header := 0, words := Vector.replicate 32 0 } }

/-- Bit `n` of the turn's stream (R440): the header and the port words, each sent most significant bit first, then low. -/
def Status.bit (x : Status) (n : Nat) : Bool :=
  if n < 64 then x.header.getLsbD (63 - n)
  else if n < 1088 then (x.words.toList.getD ((n - 64) / 32) 0).getLsbD (31 - (n - 64) % 32)
  else false

/-- Ticks since the turn began (R440). -/
def State.turnTick (s : State) : Nat := 2048 * s.pos.f.toNat + s.pos.k.toNat

/-- The stream runs: position is counted out of reset (R440). -/
def State.streams (s : State) : Bool := s.time.counting && s.pins.resetN

/-- STAT_CK rises at turn tick 16n and falls at 16n + 8 (R440). -/
def State.statCk (s : State) : Bool := s.streams && decide (s.turnTick % 16 < 8)

/-- STAT_FS is high during bit 0 alone, which turn tick 8 begins (R440). -/
def State.statFs (s : State) : Bool := s.streams && decide (8 ≤ s.turnTick ∧ s.turnTick < 24)

/-- STAT_DO: bit n from turn tick 16n + 8 on (R440). -/
def State.statDo (s : State) : Bool :=
  s.streams && decide (8 ≤ s.turnTick) && s.status.bit ((s.turnTick - 8) / 16)

/-- What a turn has shown becomes what the turn before showed (R441, R442). -/
def PortSt.newTurn (x : PortSt) : PortSt :=
  { x with
    line := { x.line with txLimitOld := x.line.txLimit, txLimit := false }
    slip := { x.slip with slipOld := x.slip.slipTurn, slipTurn := false }
    raw := { x.raw with
      fbOld := x.raw.fbTurn, fbTurn := x.framer.crcMf == .fallback, crcOld := x.raw.crcTurn, crcTurn := 0
      crcTurns := (x.raw.crcTurn :: x.raw.crcTurns).take 250 }
    capture := { x.capture with evOld := x.capture.evTurn, evTurn := false } }

/-- The flags of a turn move to the turn before. -/
def turnFlags (s : State) : State :=
  { s with
    ports := s.ports.map PortSt.newTurn
    pairs := s.pairs.map PairSt.newTurn
    tally := { s.tally with
      commitOld := s.tally.commitTurn, commitTurn := false, timerOld := s.tally.timerTurn, timerTurn := false } }

end Sys2Proof.Machine
end

