-- ==== Sys2Proof/Machine/Reference.lean ====
section
/-! DEFINITION. The reference and the position engine's tick source (02_position_time): candidates, selection, loss,
holdover, and the stop and resumption of counting. -/

namespace Sys2Proof.Machine

/-! ### Candidates -/

/-- A candidate is qualified. -/
def Timebase.isQualified (t : Timebase) (c : RefCand) : Bool :=
  match c with
  | .refin => t.refinQual
  | .port p => t.qualified[p]

/-- Turn boundaries for which a candidate has been qualified. -/
def Timebase.qualTurns (t : Timebase) (c : RefCand) : Nat :=
  match c with
  | .refin => t.refinFor
  | .port p => t.qualifiedFor[p]

/-- A candidate is no longer qualified; its frames are counted afresh. DESIGN CHOICE (assumption 122): the manual does not say
how a candidate that the DPLL reported outside the pull-in range qualifies again; here 64 new frames qualify it. -/
def Timebase.drop (t : Timebase) (c : RefCand) : Timebase :=
  match c with
  | .refin => { t with refinQual := false, refinFor := 0, refinFrames := 0 }
  | .port p =>
    { t with
      qualified := updV t.qualified p (fun _ => false), qualifiedFor := updV t.qualifiedFor p (fun _ => 0)
      goodFrames := updV t.goodFrames p (fun _ => 0) }

/-- Every candidate is disqualified (R501). -/
def Timebase.dropAll (t : Timebase) : Timebase :=
  { t with
    goodFrames := Vector.replicate 32 0, qualified := Vector.replicate 32 false, qualifiedFor := Vector.replicate 32 0
    refinQual := false, refinFor := 0, refinFrames := 0 }

/-- The count of turns at a qualification: a whole turn passes by the next boundary only when it falls on one. -/
def State.turnsSeed (s : State) : Nat := if s.pos.f = 0 ∧ s.pos.k = 0 then 1 else 0

/-- CANDIDATE_QUALIFIED (R34): 64 frame boundaries in a row without LOS or AIS and with basic alignment. -/
def candidateQualifies (p : Port) (s : State) : State :=
  if refNamed s.time.refLevel (.port p) && decide (64 ≤ s.time.goodFrames[p]) && !s.time.qualified[p] then
    { s with time := { s.time with
        qualified := updV s.time.qualified p (fun _ => true), qualifiedFor := updV s.time.qualifiedFor p (fun _ => s.turnsSeed) } }
  else s

/-- REFIN_QUALIFIED (R35): 64 position frames in a row with no edge missing. -/
def refinQualifies (s : State) : State :=
  if refNamed s.time.refLevel .refin && s.time.counting && decide (64 ≤ s.time.refinFrames) && !s.time.refinQual then
    { s with time := { s.time with refinQual := true, refinFor := s.turnsSeed } }
  else s

/-! ### Loss of the reference (R48, R49) -/

/-- The holdover condition of R48. -/
def Timebase.holdCondition (t : Timebase) : Bool := t.mode == .locked && decide (252 ≤ t.lockedTurns)

/-- 250 times the frequency R48 holds: over the 250 turns that ended 2 turns before. -/
def Timebase.heldNow (t : Timebase) : Int := ((t.freqs.drop 2).take 250).foldl (· + ·) 0

/-- The present reference is lost: holdover, or a slew to free-run (R48, R49). -/
def Timebase.lose (t : Timebase) : Timebase :=
  match t.present with
  | none => t
  | some _ =>
    if t.holdCondition then
      { t with present := none, mode := .holdover, heldSum := t.heldNow, switched := true, inLockTurns := 0, lockedTurns := 0 }
    else { t with present := none, mode := .freeRun, switched := true, inLockTurns := 0, lockedTurns := 0 }

/-- REFERENCE_LOSS (R48). DESIGN CHOICE (assumption 123): its tick is the tick after the detection, the first in holdover. -/
def referenceLost (s : State) : State := if s.time.counting then { s with time := s.time.lose } else s

/-- CANDIDATE_DISQUALIFIED (R34, R35): a port by LOS, AIS or loss of alignment, REFIN by two edges missing in a row, either by
the DPLL's report. The present reference is then lost. -/
def candidateFails (c : RefCand) (outOfRange : Bool) (s : State) : State :=
  let cause := match c with
    | .refin => true
    | .port p => outOfRange || !sourceUp s.ports[p]
  if s.time.counting && cause then
    let t := s.time.drop c
    { s with time := if s.time.present = some c then t.lose else t }
  else s

/-! ### Selection (R36, R37, R51, R500) -/

/-- The candidate a choice of the list offers now: of a group the lowest-numbered qualified port. -/
def offered (t : Timebase) (c : RefChoice) : Option RefCand :=
  match c with
  | .refin => if t.refinQual then some .refin else none
  | .port p => if t.qualified[p] then some (.port p) else none
  | .group lo hi => (allPorts.find? (fun p => decide (lo ≤ p.val ∧ p.val ≤ hi) && t.qualified[p])).map (fun p => .port p)

/-- The first qualified candidate of a list. -/
def firstQualified (t : Timebase) (l : List RefChoice) : Option RefCand := l.findSome? (offered t)

/-- The choices of the list that stand before the present reference's. -/
def earlier (l : List RefChoice) (c : RefCand) : List RefChoice := l.takeWhile (fun x => !x.covers c)

/-- A new reference is taken. -/
def Timebase.take (t : Timebase) (c : RefCand) : Timebase :=
  let m := match t.mode with
    | .holdover => TickMode.slewFromHold
    | .freeRun => .slewFromFree
    | m => m
  { t with present := some c, mode := m, switched := true, inLockTurns := 0, lockedTurns := 0 }

/-- Selection at a turn boundary (R36, R37, R51): an earlier candidate takes over only after 2500 turns. -/
def Timebase.select (t : Timebase) : Timebase :=
  let l := refList t.refLevel
  match t.present with
  | none => match firstQualified t l with
    | some c => t.take c
    | none => t
  | some p =>
    let ripe := (earlier l p).filterMap (fun x => (offered t x).filter (fun c => decide (2500 ≤ t.qualTurns c)))
    match ripe with
    | c :: _ => t.take c
    | [] => t

/-- The DPLL slews to free-run, with no reference (R49). -/
def Timebase.toFreeRun (t : Timebase) : Timebase :=
  { t with
    present := none, mode := .freeRun, switched := t.switched || t.present.isSome, inLockTurns := 0, lockedTurns := 0 }

/-- A new level of KEY_REF applies (R500). DESIGN CHOICE (assumption 124): REFIN at another rate is another candidate, so its
qualification does not outlive a change of rate, and it is not in the new list. -/
def Timebase.newList (t : Timebase) : Timebase :=
  match t.newRefLevel with
  | none => t
  | some l =>
    let same := refRate l == refRate t.refLevel
    let t0 := { t with refLevel := l, newRefLevel := none }
    let t1 := if same then t0 else t0.drop .refin
    if (refList l).isEmpty then t1.toFreeRun
    else if refList l = refList t.refLevel ∧ same then t1
    else match t.present with
      | none => t1
      | some p =>
        if refNamed l p && (same || p != .refin) then t1
        else match firstQualified t1 (refList l) with
          | some c => t1.take c
          | none => t1.lose

/-- Qualified candidates have been so for one turn more. -/
def Timebase.age (t : Timebase) : Timebase :=
  { t with
    qualifiedFor := Vector.ofFn (fun p => if t.qualified[p] then min 2500 (t.qualifiedFor[p] + 1) else 0)
    refinFor := if t.refinQual then min 2500 (t.refinFor + 1) else 0 }

/-- The lock criterion at the boundary that ends a turn (R39, R46, R48). -/
def Timebase.lockTurn (t : Timebase) (freq : Int) (inLock : Bool) : Timebase :=
  let t1 := { t with freqs := (freq :: t.freqs).take 252, switched := false, switchedOld := t.switched }
  if t.present.isSome && inLock then
    let met := decide (7 ≤ t.inLockTurns)
    { t1 with
      inLockTurns := min 8 (t.inLockTurns + 1)
      lockedTurns := if 8 ≤ t.inLockTurns then min 252 (t.lockedTurns + 1) else 0
      mode := if met then .locked else t.mode
      est := t.est && !met }
  else { t1 with inLockTurns := 0, lockedTurns := 0 }

/-- The position engine at a turn boundary, before step 1 of R25; `first`: the boundary (T0 + 1):0:0 of a start. -/
def referenceTurn (freq : Int) (inLock : Bool) (s : State) : State :=
  let t := s.time.lockTurn freq inLock
  let t1 := if s.keeper.t0 < s.pos.t.toNat then t.newList else t
  { s with time := t1.select.age }

/-- The frames of R34 and R35 at a position frame boundary; `refinOk`: REFIN missed no edge. -/
def countGoodFrames (refinOk : Bool) (s : State) : State :=
  { s with time := { s.time with
      refinFrames := if refinOk && refNamed s.time.refLevel .refin then min 64 (s.time.refinFrames + 1) else 0
      goodFrames := Vector.ofFn (fun p =>
        if s.ports[p].line.running && sourceUp s.ports[p] then min 64 (s.time.goodFrames[p] + 1) else 0) } }

/-! ### Counting stops and resumes (R52, R53, R501) -/

/-- Counting stops at a first uncounted position in ticks (R52, R501). -/
def stopCounting (at_ : Nat) (s : State) : State :=
  let t := s.time
  let hold := t.holdCondition || t.mode == .holdover
  { s with time := { t.dropAll with
      counting := false, stopAt := at_, heldAtStop := hold
      heldSum := if t.holdCondition then t.heldNow else t.heldSum
      present := none, inLockTurns := 0, lockedTurns := 0 } }

/-- The turn at which counting resumes (R53). -/
def resumeTurn (p n : Nat) : Nat := max (roundDiv (p + 500 * n) 65536) (ceilDiv p 65536)

/-- Counting resumes at `tr`:0:0 (R53, R54, R501, R502). -/
def resumeCounting (tr : Nat) (s : State) : State :=
  { s with
    pos := ⟨BitVec.ofNat 48 tr, 0, 0⟩, frameDue := true
    time := { s.time with
      counting := true, est := true, switched := false, partialSecond := true
      mode := if s.time.heldAtStop then .holdover else .freeRun } }

def execReferenceLoss (k : Tick) (s : State) : Host.Outcome State Fault Refusal := .next (referenceLost (atTick k s))

def execCandidateQualified (p : Port) (s : State) : Host.Outcome State Fault Refusal := .next (candidateQualifies p s)

def execRefinQualified (s : State) : Host.Outcome State Fault Refusal := .next (refinQualifies s)

def execCandidateDisqualified (c : RefCand) (outOfRange : Bool) (k : Tick) (s : State) :
    Host.Outcome State Fault Refusal := .next (candidateFails c outOfRange (atTick k s))

end Sys2Proof.Machine
end

