-- ==== Sys2Proof/Machine/Keeper.lean ====
section
/-! DEFINITION. What the keeper does to the rest of the machine (R52 to R54, R83, R148, R440, R448, R449, R469 to R473,
R501, R502): which receivers run, the stop and resumption of counting, RESET_N, and DOZE. -/

namespace Sys2Proof.Machine

/-! ### Receivers and dies -/

/-- The receiver, framer, raw counters and capture unit of a port run (R127, R510). -/
def receiverRuns (s : State) (p : Port) : Bool :=
  s.present p && s.time.counting && s.pins.resetN && !s.keeper.dozing && s.keeper.phase != .waiting &&
    (s.die (dieOf p)).powered && !(s.die (dieOf p)).lost &&
    (refNamed s.time.refLevel (.port p) || (s.modes.mode != .rest && s.inService p))

/-- Receivers start and stop as they are to run. -/
def updateReceivers (s : State) : State := s.mapPorts (fun p x => runReceiver (receiverRuns s p) x)

/-- Every receiver stops. -/
def stopReceivers (s : State) : State := s.mapPorts (fun _ x => stopReceiver x)

/-- Both line dies are powered and restart; while VCORE or VIO is out of range they stay lost (R449). -/
def powerDies (s : State) : State :=
  let s1 := forEach lineDies (fun d t => t.setDie d (fun x =>
    { x.restart with powered := true, lost := !s.keeper.coreOk, found := false })) s
  if s.keeper.coreOk then s1.lower .dieLost else s1

/-- A port whose die loses power: its transmitter is high-impedance (R29, R161). -/
def unpowerPort (x : PortSt) : PortSt :=
  let y := clearPort x
  { y with line := { y.line with tx := .hiZ, stopAt := none }, tx := TxSt.silent }

/-- Both line dies lose power, and with it all that they held. -/
def unpowerDies (s : State) : State :=
  (forEach lineDies (fun d t => t.setDie d (fun x => { x.restart with powered := false, lost := false, found := false })) s).mapPorts
    (fun _ x => unpowerPort x)

/-- The dies that KP powers on a resumption of counting restart; what numbers packet cells, and the V bits, stand in a die that kept
its power (R212, R223). -/
def resumeDies (s : State) : State :=
  let s1 := forEach lineDies (fun d t => t.setDie d (fun x =>
    { x.restart with powered := true, lost := !s.keeper.coreOk, found := false, packetSeq := x.packetSeq, vPages := x.vPages })) s
  if s.keeper.coreOk then s1.lower .dieLost else s1

/-- Both engines lose power. -/
def unpowerEngines (s : State) : State :=
  let s1 := unpower .ey (unpower .ex s)
  { s1 with duplex := { s1.duplex with
      incumbency := .nobody, clearSeen := false, flowsX := [], flowsY := [], mismatches := [], unexplained := 0, judgedAt := none,
      judgedPorts := [], resynced := false, rallies := [] } }

/-- The engines that the policy powers come on in retention with health 0 (R308, R467), but for those left unpowered
(R336). -/
def powerEngines (s : State) : State :=
  forEach engines (fun e t =>
    if t.policy.powers e && !(t.eng e).ctl.leftOff then t.setCtl e (fun c => c.powerOn true 0) else t) s

/-- Chunks not yet written are dropped and counted (R457, "Where things meet" of 16_matrix_memories_tally). -/
def dropChunks (s : State) : State :=
  let c := s.capture
  let n := c.chunks.length
  forEach engines (fun e t => t.setData e (fun d => { d with streams := [], restarted := false }))
    { s with capture := { c with waiting := [], hand := none, made := 0, drops := satAdd 0xFFFF c.drops n, dropped := satAdd 0xFFFF c.dropped n } }

/-- Every pair starts afresh, in its die and in both engines. -/
def freshPairs (s0 : State) : State :=
  let s := forEach lineDies (fun d t => t.setDie d (fun x => { x with words := [] })) s0
  forEach engines (fun e t => t.setData e (fun d => { d with reqs := Vector.replicate 16 PairReq.reset }))
    { s with pairs := s.pairs.map (fun x => { x.fresh with running := false, invalid := false }) }

/-- A load or swap pending is abandoned, and so is a refused load that waits to be tried again, though its alarm condition stands
("Where things meet" of 04_wosar_image); a request held in retention stands. -/
def dropLoads (s : State) : State :=
  let held := if s.inRetention then s.image.heldPage else none
  setShadows .empty { s with image := { s.image with load := none, refused := none, heldPage := held, awaited := none } }

/-- REST is entered at once (R52, R83). -/
def enterRest (s : State) : State :=
  let changed := s.modes.mode != .rest
  let s1 := { s with
    modes := { s.modes with mode := .rest, proofOn := false, proofPart := false, proofFailed := false }
    tally := { s.tally with modeChanged := s.tally.modeChanged || changed } }
  s1.lower .proof

/-- Live samples taken before now pair with none after it. -/
def forgetSamples (s : State) : State :=
  { s with keys := { s.keys with live := s.keys.live.map (fun k => k.forget) } }

/-- READY is released. -/
def releaseReady (s : State) : State := { s with pins := { s.pins with ready := false } }

/-! ### XIN (R52, R53, R501, R502, R509) -/

/-- XIN_STOPPED: KP stops counting, releases every hinge at once and enters REST (R52, "Where things meet" of 01_machine).
A start under way is abandoned (R509). -/
def xinStops (s : State) : State :=
  if s.time.counting then
    let page := s.activePage
    let s1 := stopCounting (s.now + 1) (settleTimers s)
    let s2 := stopReceivers (releaseAtOnce (fun _ => true) s1)
    let s3 := discardPatterns (freshPairs (enterRetention (dropLoads (enterRest (forgetSamples s2)))))
    let s4 := stopStream (releaseReady (dropBursts (dropChunks s3)))
    let ran := s4.keeper.phase == .done
    let s5 := { s4 with
      image := { s4.image with wakePage := page }
      keeper := { s4.keeper with
        xinStopped := true, reloading := ran && s4.pins.resetN, phase := if ran then .done else .waiting } }
    returnToMain (s5.raise .xin)
  else s

/-- The active page is loaded again into the active memories (R471). -/
def reloadWakePage (s : State) : State :=
  match s.image.inUse with
  | some c =>
    { s with
      image := { s.image with load := some ⟨s.image.wakePage, c, false, true⟩ }
      keeper := { s.keeper with reloading := true } }
  | none => { s with keeper := { s.keeper with reloading := false } }

/-- The engines restart as they do on leaving retention, and the active page is reloaded; not in reset, nor before a start
(R471, R472). -/
def restartEngines (s : State) : State :=
  if s.keeper.phase = .waiting || !s.pins.resetN then s else reloadWakePage (powerEngines s)

/-- Counting can resume: after DOZE, a stopped XIN or a stop in RIDE; a cold start begins to count at recognition. -/
def canResume (s : State) : Bool :=
  !s.time.counting && s.keeper.power == .main && !s.keeper.dozing && !s.keeper.coldWait

/-- Notices of one kind joined, VOQ by VOQ. -/
def joinNotices (a b : Vector (BitVec 32) 32) : Vector (BitVec 32) 32 := Vector.ofFn (fun i => a[i] ||| b[i])

/-- Each engine's notices go to KP (R234). -/
def transferNotices (s : State) : State :=
  forEach engines (fun e t =>
    let d := (t.eng e).data
    { t with duplex := { t.duplex with
        cNotice := joinNotices t.duplex.cNotice d.cNotice, pNotice := joinNotices t.duplex.pNotice d.pNotice } }) s

/-- The counts of the open second cover only the time since resumption (02_position_time, "Where things meet"); flags,
notices and event entries stand. -/
def freshCounts (s : State) : State :=
  let s1 := transferNotices s
  { s1 with
    timers := s1.timers.map (fun t => { t with events := 0 })
    ports := s1.ports.map PortSt.restart, engX := s1.engX.restart, engY := s1.engY.restart
    lda := s1.lda.clearHec, ldb := s1.ldb.clearHec
    duplex := { s1.duplex with heldFrames := 0, aisFrames := 0 }
    matrix := { s1.matrix with masters := s1.matrix.masters.map (fun _ => { grants := 0, refused := 0, wait := 0 }) } }

/-- COUNTING_RESUME (R53, R54, R501, R502): at Tr:0:0 the timers catch up, the reference is selected and the status stream
starts. Nothing else of a turn boundary happens there. DESIGN CHOICE (assumption 125): where a stop of XIN has abandoned a start,
timers already started are not caught up: R401 would advance them, and the start that R509 runs again clears them. -/
def countingResumes (n : Nat) (s : State) : State :=
  if canResume s then
    let p := s.time.stopAt
    let tr := resumeTurn p n
    let s1 := resumeCounting tr (freshCounts s)
    let s2 := if s1.keeper.phase = .waiting then s1 else resumeTimers (p + b2n s1.keeper.unitsDone) tr s1
    let s3 := restartEngines (resumeDies { s2 with time := s2.time.select })
    let s4 := { s3 with
      keeper := { s3.keeper with xinStopped := false, unitsDone := false }
      keys := { s3.keys with sampleFrom := max s3.keys.sampleFrom tr } }.lower .xin
    let s5 := if s.keeper.xinStopped then updateReceivers s4 else lendAtTake (updateReceivers s4)
    if s5.keeper.phase = .waiting then s5 else startStream s5
  else s

/-! ### RESET_N (R83, R472) -/

/-- The references whose dies are in reset cannot report (02_position_time, "Where things meet"). -/
def dropPortReferences (s : State) : State :=
  let t := s.time
  let lost := match t.present with | some (.port _) => t.lose | _ => t
  { s with time := { lost with
      goodFrames := Vector.replicate 32 0, qualified := Vector.replicate 32 false, qualifiedFor := Vector.replicate 32 0 } }

/-- What RESET_N low does while the machine counts: every die but the position counters is reset, and every hinge is
released at once (R31, R83). -/
def resetDies (s : State) : State :=
  let s1 := dropPortReferences s
  let s2 := (releaseAtOnce (fun _ => true) s1).mapPorts (fun _ x => clearPort x)
  let s3 := forEach lineDies (fun d t => t.setDie d (fun x => x.restart)) s2
  let s4 := enterRest (dropLoads (clearTimers (unpowerEngines s3)))
  let s5 := { s4 with
    image := { s4.image with heldPage := none }
    keys := { s4.keys with live := s4.keys.live.map (fun k => { k.forget with accepted := none }) }
    keeper := { s4.keeper with
      phase := .waiting, reloading := false, dozeReq := false
      startKind := if s4.keeper.phase = .done then .reset else s4.keeper.startKind } }
  lendAtTake (stopStream (releaseReady (discardPatterns (freshPairs (dropBursts (dropChunks s5))))))

/-- DOZE ends: the partner's state is searching, and SEQ and counts restart ("Where things meet" of 14_partner_channel); the drift
alarm ends with it (R385). -/
def endDoze (s : State) : State :=
  let s1 := { s with
    keeper := { s.keeper with dozing := false }
    partner := s.partner.restart
    ptime := { s.ptime with timeSeq := 0, deaf := false } }
  s1.lower .drift

/-- The wake from DOZE (R148, R471): KP starts XIN; a wake sets POWER bit 4. -/
def wake (s : State) : State :=
  if s.keeper.dozing then
    let s1 := if s.ptime.listening then endListening s else s
    let s2 := endDoze s1
    let s3 := { s2 with keeper := { s2.keeper with reloading := s2.image.inUse.isSome } }
    s3.flagPower 4
  else s

/-- RESET_N_ASSERT (R83, R472): in RIDE, LAST and DARK it has no effect before the start that follows. -/
def resetAsserted (s : State) : State :=
  let s1 := { s with pins := { s.pins with resetN := false } }
  if s.keeper.power != .main || s.keeper.coldWait then s1 else resetDies (wake s1)

/-! ### DOZE (R148, R469 to R472) -/

/-- DOZE_REQUEST (R148): the request acts from the next turn boundary. -/
def dozeRequested (s : State) : State := { s with pins := { s.pins with doze := true } }

/-- The request stands at a turn boundary: it takes effect once a start has completed (R148, R469). -/
def dozeActs (s : State) : Bool :=
  s.pins.doze && s.keeper.phase == .done && s.keeper.power == .main && s.pins.resetN

/-- DOZE_WAKE (R148, R471): DOZE falls; before DOZE is entered the request is withdrawn. -/
def dozeFalls (s : State) : State :=
  let s1 := { s with pins := { s.pins with doze := false }, keeper := { s.keeper with dozeReq := false } }
  wake s1

/-- DOZE is entered at the turn boundary where the machine stands (R469, R501, "Where things meet" of 16 and 09). DESIGN CHOICE
(assumption 165): a key reader forces the current of the range it stood on when the keeper leaves DOZE. -/
def enterDoze (s : State) : State :=
  let page := s.activePage
  let s1 := stopCounting s.now { s with keys := { s.keys with live := s.keys.live.map (fun k => k.forget) } }
  let s2 := unpowerDies (unpowerEngines (dropLoads s1))
  let s3 := stopStream (releaseReady (discardPatterns (freshPairs (dropBursts (dropChunks s2)))))
  { s3 with
    image := { s3.image with wakePage := page }
    keeper := { s3.keeper with dozing := true, dozeReq := false, reloading := false, unitsDone := false }
    ptime := { s3.ptime with
      deaf := false, listening := false, skipping := false, window := if s3.ptime.skipping then s3.ptime.window else .narrow }
    frameDue := false }

def execXinStopped (k : Tick) (s : State) : Host.Outcome State Fault Refusal := .next (xinStops (atTick k s))

def execCountingResume (n : Nat) (s : State) : Host.Outcome State Fault Refusal := .next (countingResumes n s)

def execResetNAssert (k : Tick) (s : State) : Host.Outcome State Fault Refusal := .next (resetAsserted (atTick k s))

def execDozeRequest (k : Tick) (s : State) : Host.Outcome State Fault Refusal := .next (dozeRequested (atTick k s))

def execDozeWake (s : State) : Host.Outcome State Fault Refusal := .next (dozeFalls s)

end Sys2Proof.Machine
end

