-- ==== Sys2Proof/Machine/Start.lean ====
section
/-! DEFINITION. Starts (R66, R73 to R75, R113 to R116, R463 to R467): recognition and the boot keys, validation, and the
correction of the turn after a cold start. -/

namespace Sys2Proof.Machine

/-! ### Boot keys (R66, R72 to R75) -/

/-- A boot key is accepted when both its samples fall in the same band (R66); `m`: its reader's range before them. -/
def bootLevel (o : StartObs) (m : Range) (i : Fin 8) : Option (BitVec 4) :=
  if o.krefFault then none
  else match levelOfSample m o.boot0[i], levelOfSample (rangeAfter m o.boot0[i]) o.boot1[i] with
    | some a, some b => if a = b then some a else none
    | _, _ => none

/-- The family that a KEY_Gn level gives at boot sampling; under level 13 it is known once the image is. -/
def bootFamily (l : BitVec 4) : BitVec 4 := if framingOf l = .off then 0 else l

/-- The KEY_Gn level of a port's group. -/
def groupLevel (s : State) (p : Port) : BitVec 4 :=
  match s.keys.boot[p.val / 8]? with
  | some v => bootActing 0 v
  | none => 0

/-- The boot keys are sampled: levels, flags, and the families of the ports (R66, R72, R149). -/
def sampleBoot (o : StartObs) (s : State) : State :=
  let v := Vector.ofFn (fun i : Fin 8 => bootLevel o (s.keys.ranges.toList.getD i.val .m8) i)
  let flag := fun (i : Nat) => match v.toList.getD i none with
    | some l => bootReserved (Fin.ofNat 8 i) l
    | none => false
  let amb : BitVec 8 := maskOf 8 (fun i => (v.toList.getD i none).isNone)
  let s1 := { s with keys := { s.keys with
      ranges := followPins 0 o.boot1.toList (followPins 0 o.boot0.toList s.keys.ranges)
      boot := v, bootAmb := amb, unassigned := (s.keys.unassigned &&& 0xF00) ||| maskOf 12 (fun i => decide (i < 8) && flag i) } }
  s1.mapPorts (fun p x =>
    { x with line := { x.line with family := bootFamily (groupLevel s1 p), lbo := 0, monitor := 0, cas := false, robbed := false } })

/-! ### Recognition (R467) -/

/-- A start can be recognised: KP is in MAIN and waits, the rails are in range, and position is counted, or a cold start is
to begin counting (R464, R467). -/
def canStart (s : State) : Bool :=
  s.keeper.phase == .waiting && s.keeper.power == .main && s.keeper.coreOk && s.keeper.vlineOk &&
    (s.time.counting || s.keeper.coldWait)

/-- A cold start begins to count at the position found (R464). -/
def beginCounting (s : State) : State :=
  if s.keeper.coldWait then
    { s with
      frameDue := true
      time := { s.time with counting := true, partialSecond := s.pos.t.toNat % 250 != 0, mode := .freeRun }
      keeper := { s.keeper with coldWait := false } }
  else s

/-- T0 (R66): the first turn boundary at or after recognition. -/
def startTurn (s : State) : Nat := if s.pos.f = 0 ∧ s.pos.k = 0 then s.pos.t.toNat else s.pos.t.toNat + 1

/-- The partner channel before the image is known; `again`: RESET_N has not been released since the start before (R370, R375,
R381). -/
def startPartner (again : Bool) (s : State) : State :=
  let l := bootActing 7 s.keys.boot[(7 : Fin 8)]
  let p := if again then s.partner.again else { s.partner.restart with packetSeq := 0 }
  let q := { p with role := partRole l, carriage := partCarriage l }
  { s with
    partner := q.setState 0
    ptime := if again then { s.ptime with listening := false, deaf := false }
      else { s.ptime with
        timeSeq := 0, ownTime := none, gotTime := none, gotOctets := [], listening := false, deaf := false
        lastMeet := none, nextMeet := 0, meetCount := 0, window := .narrow, skipping := false } }

/-- The image status of the last start is gone: bits 0 to 3 and 7 tell of validation (R115), and a refused request ends
with the start (R119). -/
def startImage (o : StartObs) (s : State) : State :=
  let l := bootActing 5 s.keys.boot[(5 : Fin 8)]
  { s with image := { s.image with
      sfdpOk := o.sfdpOk, readA := o.readA, readB := o.readB, inUse := none, aValid := false, bValid := false, status := s.image.status &&& 0x70, windowSet := imgWindows l, density := o.psramDensity
      load := none, refused := none, refusedOn := false, heldPage := none, awaited := none, inForce := none } }

/-- START_RECOGNISED (R66, R467): the dies leave reset, the boot keys are sampled in frames T0:0 and T0:1, and every live key
holds its held value (R70). -/
def startRecognised (o : StartObs) (s : State) : State :=
  if canStart s then
    let s1 := beginCounting { s with pins := { s.pins with resetN := true, ready := false } }
    let t0 := startTurn s1
    let s2 := sampleBoot o (powerDies (unpowerEngines (clearTimers (enterRest s1))))
    let s3 := s2.mapPorts (fun _ x => { clearPort x with hinge := { x.hinge with waiting := false } })
    let s4 := { s3 with
      keys := { s3.keys with live := s3.keys.live.map (fun k => k.held), sampleFrom := t0 }
      time := { s3.time with newRefLevel := some (bootActing 4 s3.keys.boot[(4 : Fin 8)]) }
      modes := { s3.modes with cmd := 0 }
      tally := { s3.tally with filter := 0, filterChanged := s3.tally.filterChanged || s3.tally.filter != 0 }
      capture := { s3.capture with gate := true }
      keeper := { s3.keeper with phase := .validating, t0 := t0, reloading := false, dozeReq := false } }
    let s5 := forEach engines (fun e t => t.setCtl e (fun c => { c with leftOff := false, lost := false, cycles := 0 })) s4
    let s6 := imageAlarm (startImage o (startPartner s.pins.resetN (freshPairs (s5.lower .engineOff))))
    let s7 := updateReceivers (lendAtTake s6)
    if s7.pos.f = 0 ∧ s7.pos.k = 0 then startStream s7 else s7
  else s

/-! ### Validation (R113 to R116) -/

/-- What the two copies show, and the copy that is used (R113, R114, R115, R504). -/
def validate (s : State) : State :=
  let fl := s.image.flash
  let a := s.image.finds .a
  let b := s.image.finds .b
  let first := imgFirst (bootActing 5 s.keys.boot[(5 : Fin 8)])
  let good := fun (c : Copy) => match c with | .a => a | .b => b
  let use := if good first then some first else if good first.other then some first.other else none
  let flag := fun (on : Bool) (x : ImageBit) (t : State) => if on then t.flagImage x else t
  let s1 := { s with image := { s.image with aValid := a, bValid := b, inUse := use } }
  flag (!a) .aBad (flag (!b) .bBad (flag (use.isSome && use != some first) .fallback
    (flag (a && b && imgSerial fl .a != imgSerial fl .b) .differ
      (flag (!s.image.sfdpOk) .noFlash s1))))

/-- Under KEY_Gn level 13 the port profiles give the families (R74, R98). -/
def applyProfiles (s : State) : State :=
  s.mapPorts (fun p x =>
    if groupLevel s p = 13 then
      match s.image.inUse with
      | some c => match profileOf s.image.flash c p with
        | some f => { x with line := { x.line with
            family := f.family, lbo := if isT1Line f.family then f.lbo else 0, monitor := f.monitor, cas := f.cas, robbed := f.robbed } }
        | none => { x with line := { x.line with family := 0 } }
      | none => { x with line := { x.line with family := 0 } }
    else x)

/-- The partner channel is on when its carriage fits the partner port (R75, R361). -/
def openPartner (s : State) : State :=
  if s.partner.role = .off || s.image.inUse.isNone then s
  else if carriageFits s.partner.carriage s.ports[s.fabric.port].line.family then
    let next := if s.ptime.nextMeet = 0 then s.meetPeriods else s.ptime.nextMeet
    { s with partner := s.partner.setState 1, ptime := { s.ptime with nextMeet := next } }
  else s.flagUnassigned 7

/-- Page 0 of the copy in use is loaded into the active memories, and the shadows are empty (R116). -/
def loadPageZero (s : State) : State :=
  match s.image.inUse with
  | some c => setShadows .empty { s with image := { s.image with load := some ⟨0, c, false, true⟩ } }
  | none => s

/-- VALIDATION_COMPLETE (R113 to R116, R467); in a cold start the next record takes its number from the ring (R422). -/
def validated (s : State) : State :=
  if s.keeper.phase = .validating then
    let s1 := loadPageZero (openPartner (applyProfiles (validate s)))
    let s2 := imageAlarm { s1 with keeper := { s1.keeper with phase := .validated } }
    let s3 := if s2.keeper.coldDue then
        { s2 with tally := { s2.tally with seq := BitVec.ofNat 32 ((scanRing s2).1.getD 0) } }
      else s2
    updateReceivers s3
  else s

/-! ### The corrected turn of a cold start (R464, R465) -/

/-- Ticks kept as positions move with the turn: the tick grid itself never moves (R464). -/
def Slip.shift (d : Nat) (x : Slip) : Slip :=
  let f := fun (r : RxFrame) => { r with doneAt := r.doneAt + d }
  { x with
    waiting := x.waiting.map f, history := x.history.map f, lastRead := x.lastRead.map f, alignedAt := x.alignedAt.map (· + d) }

/-- The turn counter is set ahead to turn `t` (R464). -/
def jumpTo (t : Nat) (s : State) : State :=
  let d := t - s.pos.t.toNat
  let s1 := s.mapPorts (fun _ x => { x with slip := x.slip.shift (d * 65536) })
  { s1 with
    pos := { s.pos with t := BitVec.ofNat 48 t }
    time := { s1.time with partialSecond := true }
    alarm := { s1.alarm with
      pulseEnd := s1.alarm.pulseEnd.map (· + d * 65536), minEnd := s1.alarm.minEnd.map (· + d * 65536) }
    keeper := { s1.keeper with t0 := s1.keeper.t0 + d } }

/-- At the boundary at which validation completes, before step 1 of R25: the turn, the odometer and the stamp flags of a
cold start. -/
def correctTurn (s : State) : State :=
  if s.keeper.coldDue && s.keeper.phase == .validated then
    let rec_ := (scanRing s).2
    let found := s.keeper.coldFound || rec_.isSome
    let l := s.words.odoAtCold
    let s1 := match rec_ with
      | some (m, odo) =>
        let t := m % 2 ^ 48 + 1
        let j := if s.pos.t.toNat < t then jumpTo t s else s
        { j with keeper := { j.keeper with odometer := j.keeper.odometer + BitVec.ofNat 64 (odo - l.toNat) } }
      | none => s
    { s1 with
      time := { s1.time with gap := found, cold := !found }
      keeper := { s1.keeper with coldDue := false, coldFound := found } }
  else s

def execStartRecognised (o : StartObs) (k : Tick) (s : State) : Host.Outcome State Fault Refusal :=
  .next (startRecognised o (atTick k s))

def execValidationComplete (k : Tick) (s : State) : Host.Outcome State Fault Refusal :=
  .next (validated (atTick k s))

end Sys2Proof.Machine
end

