-- ==== Sys2Proof/Machine/Power.lean ====
section
/-! DEFINITION. The keeper's power states (R454 to R458, R463 to R466), the last-words store (R460 to R462), and the rails
(R448, R449). -/

namespace Sys2Proof.Machine

/-! ### The last-words record (R461, R462) -/

/-- A slot is valid (R462). -/
def slotGood (l : List Byte) : Bool :=
  (l.length == 64) && (leField l 0 2 == 0x574C) && (leField l 2 1 == 1) && (leField l 3 1 == 1) &&
    (leField l 0x3C 4 == (crc32 (l.take 0x3C)).toNat)

/-- SEQ of a slot. -/
def slotNumber (l : List Byte) : Nat := leField l 4 4

/-- The newest valid slot: false for slot 0, true for slot 1 (R462). -/
def LastWords.newest (w : LastWords) : Option Bool :=
  match slotGood w.slot0, slotGood w.slot1 with
  | true, true => some (decide (slotNumber w.slot0 < slotNumber w.slot1))
  | true, false => some false
  | false, true => some true
  | false, false => none

/-- The bytes of a slot. -/
def LastWords.slot (w : LastWords) (i : Bool) : List Byte := if i then w.slot1 else w.slot0

/-- Put bytes into a slot. -/
def LastWords.put (w : LastWords) (i : Bool) (l : List Byte) : LastWords :=
  if i then { w with slot1 := l } else { w with slot0 := l }

/-- Slot and SEQ of the next write (R462). -/
def LastWords.next (w : LastWords) : Bool × Nat :=
  match w.newest with
  | some i => (!i, slotNumber (w.slot i) + 1)
  | none => (false, 1)

/-- The timebase as counting would resume it (R53, R501). DEDUCED (assumption 163): while position is still counted, as if
counting stopped now and resumed. -/
def Timebase.asResumed (t : Timebase) : Timebase :=
  let held := if t.counting then t.holdCondition || t.mode == .holdover else t.heldAtStop
  { t with est := true, switched := false, mode := if held then .holdover else .freeRun }

/-- The turn that R53 gives if counting resumed now; while position is counted, the first uncounted position is the next
tick, and before a cold start is recognised it is the position that the start has found. -/
def resumeNow (s : State) (n : Nat) : Nat :=
  if s.time.counting then resumeTurn (s.now + 1) 0 else resumeTurn s.time.stopAt (if s.keeper.coldWait then 0 else n)

/-- A last-words record (R461). -/
def lastWordsRecord (s : State) (seq n cause : Nat) : List Byte :=
  let w := s.words
  let body := leBytes 2 0x574C ++ leBytes 1 1 ++ leBytes 1 1 ++ leBytes 4 seq ++ leBytes 8 (resumeNow s n * 65536) ++
    leBytes 1 s.time.asResumed.qual.toNat ++ leBytes 1 cause ++
    leBytes 1 (b2n (noRelease s && allBypassed s) + 2 * b2n s.tap.halt + 4 * w.mode) ++ leBytes 1 (min (w.vcell / 20) 255) ++
    leBytes 8 s.keeper.odometer.toNat ++ leBytes 4 w.rides.toNat ++ leBytes 4 w.lasts.toNat ++ leBytes 4 w.colds.toNat ++
    leBytes 4 s.tally.committed.toNat ++ leBytes 4 s.capture.seq.toNat ++ leBytes 2 w.levels.toNat ++ zeros 10
  body ++ leBytes 4 (crc32 body).toNat

/-- LAST is entered and the write begins (R454, R461, R462, R465). -/
def enterLast (n cause : Nat) (s : State) : State :=
  let s1 := { s with
    keeper := { s.keeper with power := .last }
    words := { s.words with lasts := s.words.lasts + 1 } }
  let (i, seq) := s1.words.next
  (({ s1 with words := { s1.words with writing := some (i, lastWordsRecord s1 seq n cause) } }).flagPower 1)

/-! ### Main power fails (R454, R457) -/

/-- A port as main fails: an inserted one begins its release, and so does one that is being inserted with its hinge energised; an
insertion whose hinge is not energised is abandoned (R162, R457, "Where things meet" of 13_hinges_rest_states). DEDUCED (assumption
169): one that waits for the boundary of a release begun before takes that of RIDE entry. -/
def PortSt.mainFails (x : PortSt) (now : Nat) : PortSt :=
  let h := x.hinge
  match h.seq with
  | .idle => { x with hinge := if h.role = .bypassed then { h with waiting := false } else h.beginRelease true now }
  | .building | .following =>
    { x with hinge := { h with seq := .idle, abandoned := false }, line := x.line.stopDriving now }
  | .energised | .terminated | .awaitB => { x with hinge := h.beginRelease true now }
  | _ => x

/-- Main fails in DOZE, which ends it: a listening window cut off past its instant has found nothing (R384, R473). -/
def dozeFails (s : State) : State :=
  if s.keeper.dozing then
    let cut := s.ptime.listening && s.ptime.windowAt != s.ptime.nextMeet
    let s1 := endDoze (if s.ptime.listening then endListening s else s)
    { s1 with ptime := { s1.ptime with
        skipping := true, window := if cut then s1.ptime.window.wider else s1.ptime.window } }
  else s

/-- MAIN_FAIL (R454, R457): RIDE, or LAST at once when VCELL is below 2.2 V. A fall in RIDE or LAST only restarts the count of
R455. -/
def mainFails (vcell n : Nat) (s : State) : State :=
  if s.keeper.power = .main then
    let s0 := dozeFails s
    let s1 := { s0 with
      words := { s0.words with
        vcell := vcell, mode := s0.modes.mode.code, levels := BitVec.ofNat 16 s0.liveKeys }
      keeper := { s0.keeper with
        dozeReq := false, reloading := false
        phase := if s0.keeper.phase = StartPhase.done then StartPhase.done else .waiting } }
    let s2 := s1.mapPorts (fun _ x => x.mainFails s.now)
    let s3 := lendAtTake (releaseReady (dropBursts (dropChunks s2)))
    if vcell < 2200 then enterLast n 2 s3
    else
      let s4 := { s3 with
        keeper := { s3.keeper with power := .ride }
        words := { s3.words with rides := s3.words.rides + 1 } }
      (s4.flagPower 0).countRide
  else { s with keeper := { s.keeper with stable := false } }

/-- ENGINES_POWER_DOWN (R457). -/
def enginesDown (s : State) : State := if s.riding then unpowerEngines (dropLoads s) else s

/-- The end of the present position frame, or the boundary itself where the machine stands on one. -/
def frameEndTick (s : State) : Nat := if s.pos.k = 0 ∧ s.frameDue then s.now else (s.pos.frames + 1) * 2048

/-- What is left of the present frame passes; the turn that ends with frame 31 has its lock criterion judged, and its KREF fault
(R39, R64). -/
def finishFrame (o : TurnObs) (s : State) : State :=
  if s.pos.k = 0 ∧ s.frameDue then s
  else
    let s1 := settleTimers (atTick 2047 s)
    if s.pos.f = 31#5 then
      krefTurn o.krefOut LiveKey.pass { s1 with time := s1.time.lockTurn o.freqPpb o.inLock }
    else s1

/-- LINE_DIES_POWER_DOWN (R457, R458): at the first frame boundary after the last release, the dies lose power and KP stops
XIN. -/
def lineDiesDown (o : TurnObs) (s : State) : State :=
  if s.riding && allBypassed s then
    let s1 := if s.time.counting then forgetSamples (stopCounting (frameEndTick s) (finishFrame o s)) else s
    stopStream (unpowerDies { s1 with frameDue := false })
  else s

/-- LAST_ENTRY from RIDE (R454, R461). -/
def lastEntered (n : Nat) (s : State) : State := if s.keeper.power = .ride then enterLast n 1 s else s

/-- LAST_WORDS_WRITE_DONE (R462, R466). -/
def writeDone (s : State) : State :=
  match s.words.writing with
  | some (i, l) => returnToMain { s with words := { (s.words.put i l) with writing := none } }
  | none => s

/-! ### DARK and back (R456, R464, R465) -/

/-- In DARK only what needs no power is left: the flash, the FRAM, the last-words store and the levels on the pins; the
PSRAM keeps its own supply. -/
def goDark (s : State) : State :=
  let b := State.reset
  { b with
    pending := s.pending, freeIdx := s.freeIdx
    pins := { s.pins with ready := false }
    image := { b.image with flash := s.image.flash }
    matrix := { b.matrix with
      framMem := s.matrix.framMem, psramMem := s.matrix.psramMem
      lendT := { b.matrix.lendT with high := s.matrix.lendT.high, requested := s.matrix.lendT.high }
      lendC := { b.matrix.lendC with high := s.matrix.lendC.high, requested := s.matrix.lendC.high } }
    keeper := { b.keeper with power := .dark, coldDue := false, coldWait := false, events := 0 }
    words := { b.words with slot0 := s.words.slot0, slot1 := s.words.slot1, colds := 0 } }

/-- DARK_ENTRY (R456): the write has completed and no release is in progress. -/
def darkEntered (s : State) : State :=
  if s.keeper.power = .last ∧ s.words.writing = none ∧ noRelease s then goDark s else s

/-- VKEEP_COLLAPSES (R456, R462): a write cut off leaves its slot failing its CRC (assumption 162). -/
def vkeepCollapses (s : State) : State :=
  let w := match s.words.writing with
    | some (i, _) => { (s.words.put i blankSlot) with writing := none }
    | none => s.words
  goDark { s with words := w }

/-- COLD_START (R463 to R465): position and odometer from the newest valid last-words record. -/
def coldStarted (s : State) : State :=
  if s.keeper.power = .dark then
    let l := match s.words.newest with | some i => s.words.slot i | none => []
    let found := s.words.newest.isSome
    let turn := if found then leField l 8 8 / 65536 + 1 else 0
    let num := fun (o : Nat) => BitVec.ofNat 32 (leField l o 4)
    let odo := BitVec.ofNat 64 (leField l 0x14 8)
    let s1 := { s with
      pos := ⟨BitVec.ofNat 48 turn, 0, 0⟩
      time := { s.time with counting := false, stopAt := turn * 65536, heldAtStop := false, est := false, gap := found, cold := !found }
      keeper := { s.keeper with
        power := .main, startKind := .cold, phase := .waiting, coldDue := true, coldWait := true, coldFound := found, odometer := odo }
      words := { s.words with rides := num 0x1C, lasts := num 0x20, colds := num 0x24 + 1, odoAtCold := odo }
      tally := { s.tally with committed := num 0x28 }
      capture := { s.capture with seq := num 0x2C } }
    s1.flagPower 3
  else s

/-- MAIN_STABLE (R455, R466). -/
def mainStable (s : State) : State := returnToMain { s with keeper := { s.keeper with stable := s.riding } }

/-! ### Rails (R448, R449) -/

/-- RAILS_IN_RANGE (R448, R449, "Where things meet" of 06_line_front_ends): these rails have been in range for 64
keeper-crystal periods. -/
def railsIn (core vline : Bool) (s : State) : State :=
  let s1 := { s with keeper := { s.keeper with coreOk := s.keeper.coreOk || core, vlineOk := s.keeper.vlineOk || vline } }
  if vline then s1.lower .vline else s1

/-- CORE_RAIL_OUT_OF_RANGE (R449): in MAIN both line dies are lost. -/
def coreRailOut (s : State) : State :=
  let s1 := { s with keeper := { s.keeper with coreOk := false } }
  if s.keeper.power = .main then loseLineDie .ldb (loseLineDie .lda s1) else s1

def execMainFail (vcell n : Nat) (k : Tick) (s : State) : Host.Outcome State Fault Refusal :=
  .next (mainFails vcell n (atTick k s))

def execEnginesPowerDown (s : State) : Host.Outcome State Fault Refusal := .next (enginesDown s)

def execLineDiesPowerDown (o : TurnObs) (s : State) : Host.Outcome State Fault Refusal := .next (lineDiesDown o s)

def execLastEntry (n : Nat) (s : State) : Host.Outcome State Fault Refusal := .next (lastEntered n s)

def execLastWordsWriteDone (s : State) : Host.Outcome State Fault Refusal := .next (writeDone s)

def execDarkEntry (s : State) : Host.Outcome State Fault Refusal := .next (darkEntered s)

def execVkeepCollapses (s : State) : Host.Outcome State Fault Refusal := .next (vkeepCollapses s)

def execColdStart (s : State) : Host.Outcome State Fault Refusal := .next (coldStarted s)

def execMainStable (s : State) : Host.Outcome State Fault Refusal := .next (mainStable s)

def execRailsInRange (core vline : Bool) (s : State) : Host.Outcome State Fault Refusal := .next (railsIn core vline s)

def execCoreRailOutOfRange (k : Tick) (s : State) : Host.Outcome State Fault Refusal := .next (coreRailOut (atTick k s))

end Sys2Proof.Machine
end

