-- ==== Sys2Proof/Machine/Tap.lean ====
section
/-! DEFINITION. The test access port (R490 to R492) and HALT (R491). -/

namespace Sys2Proof.Machine

/-- The instructions of the test access port with a code of their own (R490). -/
inductive TapInstr where
  | extest | samplePreload | idcode | highz | clamp | haltSet | haltClr
  deriving DecidableEq, Repr

/-- The code of an instruction (R490). -/
def TapInstr.code : TapInstr → BitVec 4
  | .extest => 0 | .samplePreload => 1 | .idcode => 2 | .highz => 3 | .clamp => 4 | .haltSet => 8 | .haltClr => 9

/-- All of them. -/
def TapInstr.all : List TapInstr := [.extest, .samplePreload, .idcode, .highz, .clamp, .haltSet, .haltClr]

/-- The code belongs to an instruction of its own; every other code is BYPASS (R490). -/
def tapListed (c : BitVec 4) : Bool := TapInstr.all.any (fun i => i.code == c)

/-- The identification code (R490): version 0x1, part 0x3D20, manufacturer 0x07B, and 1. -/
def idcodeValue : BitVec 32 := 0x13D200F7

/-- The data registers of the port (R490). -/
inductive DataReg where
  | boundary | identification | bypass
  deriving DecidableEq, Repr

/-- The data register that an instruction code selects (R490, R492): EXTEST acts as BYPASS while RESET_N is high. -/
def dataReg (resetN : Bool) (c : BitVec 4) : DataReg :=
  if c = TapInstr.extest.code then (if resetN then .bypass else .boundary)
  else if c = TapInstr.samplePreload.code then .boundary
  else if c = TapInstr.idcode.code then .identification
  else .bypass

/-- What the scanned output balls do (R490, R492). -/
inductive PinDrive where
  | functional | scanned | highz
  deriving DecidableEq, Repr

/-- What drives the scanned outputs: EXTEST, HIGHZ and CLAMP act only while RESET_N is low (R492). -/
def Tap.pins (t : Tap) (resetN : Bool) : PinDrive :=
  if resetN then .functional
  else if t.ir = TapInstr.extest.code ∨ t.ir = TapInstr.clamp.code then .scanned
  else if t.ir = TapInstr.highz.code then .highz
  else .functional

/-- An instruction is loaded at Update-IR. -/
def loadIr (c : BitVec 4) (s : State) : State := { s with tap := { s.tap with ir := c } }

/-! ### The balls of the boundary-scan register (R83, R414, R492, R498) -/

/-- A ball that the boundary-scan register covers (R492). -/
inductive Ball where
  | resetN | doze | ready | alarmN
  | lendReq (m : LendTarget) | lendGnt (m : LendTarget)
  | cpCsN | cpCk | cpDqs | cpDq (i : Fin 8)
  | mfCsN | mfSck | mfIo (i : Fin 4)
  | tfCsN | tfSck | tfSi | tfSo
  | statCk | statFs | statDo
  | hng (p : Port)
  | refin
  deriving DecidableEq, Repr

/-- All of them: 8 logic, 21 memory, 3 status and 32 hinge balls, and REFIN. DESIGN CHOICE (assumption 182): one bit for each, the
first next to TDO; the manual leaves the register's order to the boundary-scan description. -/
def scanBalls : List Ball :=
  [.resetN, .doze, .lendReq .tally, .lendReq .capture, .lendGnt .tally, .lendGnt .capture, .ready, .alarmN, .cpCsN, .cpCk, .cpDqs] ++
    (List.finRange 8).map .cpDq ++ [.mfCsN, .mfSck] ++ (List.finRange 4).map .mfIo ++
    [.tfCsN, .tfSck, .tfSi, .tfSo, .statCk, .statFs, .statDo] ++ allPorts.map .hng ++ [.refin]

/-- The ball is an input and nothing else. -/
def Ball.input : Ball → Bool
  | .resetN | .doze | .lendReq _ | .tfSo | .refin => true
  | _ => false

/-- The ball only pulls low (R480). -/
def Ball.openDrain : Ball → Bool
  | .ready | .alarmN | .lendGnt _ | .hng _ => true
  | _ => false

/-- KP drives the balls of a memory. -/
def State.drivesMemory (s : State) (t : Target) : Bool :=
  s.drivesBalls && !(match t with
    | .fram => s.matrix.lendT.granted || s.matrix.lendT.hiZ.isSome
    | .psram => s.matrix.lendC.granted || s.matrix.lendC.hiZ.isSome
    | _ => false)

/-- The chip select of a memory: low while a burst runs. -/
def State.csLevel (s : State) (t : Target) : Option Bool :=
  if s.drivesMemory t then some (s.matrix.target t).busy.isNone else none

/-- The clock of a memory: low while no burst runs (R416); within a burst it is not followed. -/
def State.clockLevel (s : State) (t : Target) : Option Bool :=
  if s.drivesMemory t && (s.matrix.target t).busy.isNone then some false else none

/-- The level that the machine gives a ball in its function; none where it drives nothing, or a level that is not followed. -/
def State.ballLevel (s : State) (b : Ball) : Option Bool :=
  let low := fun (x : Bool) => if x then some false else none
  match b with
  | .resetN => some s.pins.resetN
  | .doze => some s.pins.doze
  | .lendReq m => some (s.matrix.lend m).high
  | .lendGnt m => low (s.drivesBalls && !(s.matrix.lend m).granted)
  | .ready => low s.pins.ready
  | .alarmN => low s.alarmLow
  | .cpCsN => s.csLevel .psram
  | .cpCk => s.clockLevel .psram
  | .mfCsN => s.csLevel .flash
  | .mfSck => s.clockLevel .flash
  | .tfCsN => s.csLevel .fram
  | .tfSck => s.clockLevel .fram
  | .statCk => if s.ballsOn then some s.statCk else none
  | .statFs => if s.ballsOn then some s.statFs else none
  | .statDo => if s.ballsOn then some s.statDo else none
  | .hng p => low s.ports[p].hinge.driven
  | .cpDqs | .cpDq _ | .mfIo _ | .tfSi | .tfSo | .refin => none

/-- The level on a ball: what drives it, or else what the board has there, `seen`. -/
def ballSeen (s : State) (b : Ball) (bit seen : Bool) : Bool :=
  if b.input then (s.ballLevel b).getD seen
  else match s.tap.pins s.pins.resetN with
    | .functional => (s.ballLevel b).getD seen
    | .highz => seen
    | .scanned => if b.openDrain && bit then seen else bit

/-- What the boundary-scan register captures (R490). -/
def captureBalls (seen : List Bool) (s : State) : List Bool :=
  scanBalls.mapIdx (fun i b => ballSeen s b (s.tap.bsr.getD i false) (seen.getD i false))

/-- A data scan through the register that the instruction selects: it captures, `bits` are shifted in, and the boundary-scan register
is updated (R490). -/
def dataScan (bits seen : List Bool) (s : State) : State :=
  let chain := match dataReg s.pins.resetN s.tap.ir with
    | .boundary => captureBalls seen s
    | .identification => (List.range 32).map s.tap.idcode.getLsbD
    | .bypass => [false]
  let all := chain ++ bits
  let held := all.drop bits.length
  let t := { s.tap with out := all.take bits.length }
  { s with tap := match dataReg s.pins.resetN s.tap.ir with
    | .boundary => { t with bsr := held }
    | .identification => t
    | .bypass => { t with bypass := held.headD false } }

/-- EXTEST (R490, R492): with RESET_N low the scanned outputs take the register's bits, and a scan captures the balls and updates it;
with RESET_N high it acts as BYPASS. -/
def extest (bits seen : List Bool) (s : State) : State := dataScan bits seen (loadIr TapInstr.extest.code s)

/-- SAMPLE/PRELOAD (R490): the levels on the balls are captured, and the bits shifted in are preloaded. -/
def preload (bits seen : List Bool) (s : State) : State := dataScan bits seen (loadIr TapInstr.samplePreload.code s)

/-- HALT is asserted, or cleared, at Update-IR (R490, R491). -/
def setHalt (c : BitVec 4) (on : Bool) (s : State) : State :=
  let s1 := loadIr c s
  { s1 with tap := { s1.tap with halt := on } }

/-- BYPASS, by any code that no other instruction has: the bits pass through the bypass register. -/
def loadBypass (c : BitVec 4) (bits : List Bool) (s : State) : State := if tapListed c then s else dataScan bits [] (loadIr c s)

/-- Test-Logic-Reset (R490, R491): HALT is cleared, and IDCODE is the instruction, its register loaded. -/
def testLogicReset (s : State) : State :=
  { s with tap := { s.tap with ir := TapInstr.idcode.code, idcode := idcodeValue, halt := false } }

def execExtest (bits seen : List Bool) (s : State) : Host.Outcome State Fault Refusal := .next (extest bits seen s)

def execSamplePreload (bits seen : List Bool) (s : State) : Host.Outcome State Fault Refusal := .next (preload bits seen s)

def execIdcode (s : State) : Host.Outcome State Fault Refusal := .next (loadIr TapInstr.idcode.code s)

def execHighz (s : State) : Host.Outcome State Fault Refusal := .next (loadIr TapInstr.highz.code s)

def execClamp (s : State) : Host.Outcome State Fault Refusal := .next (loadIr TapInstr.clamp.code s)

def execHaltSet (k : Tick) (s : State) : Host.Outcome State Fault Refusal :=
  .next (setHalt TapInstr.haltSet.code true (atTick k s))

def execHaltClr (k : Tick) (s : State) : Host.Outcome State Fault Refusal :=
  .next (setHalt TapInstr.haltClr.code false (atTick k s))

def execBypass (code : BitVec 4) (bits : List Bool) (s : State) : Host.Outcome State Fault Refusal :=
  .next (loadBypass code bits s)

def execTestLogicReset (k : Tick) (s : State) : Host.Outcome State Fault Refusal := .next (testLogicReset (atTick k s))

end Sys2Proof.Machine
end

