-- ==== Sys2Proof/Machine/Frame.lean ====
section
/-! DEFINITION. The position frame boundary (R217 and the frame-clocked work of every die): what ends with a frame, what
begins with the next, and FRAME_BOUNDARY. -/

namespace Sys2Proof.Machine

/-- Position moves to a boundary, and the work of its tick 0 is done. -/
def moveTo (p : Pos) (s : State) : State := tickWork { s with pos := p }

/-! ### The end of a frame -/

/-- The page that governed the frame just read governs what is left of it (R120). -/
def latchPages (s : State) : State :=
  forEach engines (fun e t => t.setData e (fun d => { d with govern := d.active, governCopy := d.activeCopy })) s

/-- The slip buffers of every port are read for the boundary at tick `b`, and the frame's events are counted (R202, R206). -/
def readPorts (b : Nat) (s : State) : State :=
  s.mapPorts (fun _ x =>
    let y := slipRead b x
    { y with raw := y.raw.endFrame })

/-- Position frame `q` ends: output cells, taps and analysers, slip buffers, counters, latches, culprits and selections. -/
def frameEnd (s : State) : State :=
  let s0 := settleTimers (atTick 2047 s)
  let q := s0.pos.frames
  let s1 := readPorts ((q + 1) * 2048) (captureFrame q (outputStages q s0))
  let s2 := endEngFrames (assignCulprits (latchFrames (q + 1) s1))
  endLendFrames (latchPages (pairFrames s2))

/-! ### The beginning of a frame -/

/-- KP reads the ball of a released hinge (R347). -/
def Hinge.readBack (low : Bool) (h : Hinge) : Hinge :=
  if h.driven then { h with lowBefore := false }
  else
    let f := low && (h.lowBefore || h.fault)
    { h with fault := f, faultSeen := h.faultSeen || f, lowBefore := low }

/-- Every hinge is read (R347). -/
def readHinges (low : BitVec 32) (s : State) : State :=
  let s1 := s.mapPorts (fun p x => { x with hinge := x.hinge.readBack (low.getLsbD p.val) })
  s1.setAlarm .hinge (allPorts.any (fun p => s1.ports[p].hinge.fault))

/-- At T0:2:0 the engines that KEY_ENG names are powered (R467). -/
def startEngines (s : State) : State :=
  if s.keeper.phase != .waiting && s.pos.t.toNat == s.keeper.t0 && s.pos.f == 2 && s.keeper.phase != .done then powerEngines s
  else s

/-- Input cells of every port are built from the frames just read (R217). -/
def buildInputs (s : State) : State := forEach allPorts (fun p t => buildInput s.pos.frames p t) s

/-- A resync's page copy that is complete is in force (R332). -/
def copiesArrive (s : State) : State := forEach engines pagesArrive s

/-- The receivers of a die that has just been found again start as they are to run (R506). -/
def startFound (s0 s : State) : State :=
  s.mapPorts (fun p x =>
    let d := dieOf p
    if (s.die d).found && !(s0.die d).found then runReceiver (receiverRuns s p) x else x)

/-- What begins with the present frame. -/
def frameStart (o : FrameObs) (s : State) : State :=
  let s1 := copiesArrive <| beginEngFrames (s.mapPorts (fun _ x => { x with raw := Raw.beginFrame x }))
  let s2 := readHinges o.hingeLow (readCaptures (memoryFrame (frameUnits s1)))
  let s3 := gridFrames s2.pos.frames (launchProof s2.pos.frames (buildInputs s2))
  let s4 := withdraw (syncWords o.digestX o.digestY (forEach engines stateFollows s3))
  let s5 := startFound s4 (findDie .ldb o.hbLdb (findDie .lda o.hbLda s4))
  startEngines (countGoodFrames o.refinOk s5)

/-- FRAME_BOUNDARY (R217): the boundary that a turn boundary has already brought, or the next one of the present turn. -/
def frameBoundary (o : FrameObs) (s : State) : State :=
  if !s.time.counting then s
  else if s.frameDue then frameStart o { s with frameDue := false }
  else if s.pos.f = 31#5 then s
  else
    let s1 := frameEnd s
    frameStart o (moveTo s1.pos.nextFrame s1)

def execFrameBoundary (o : FrameObs) (s : State) : Host.Outcome State Fault Refusal := .next (frameBoundary o s)

end Sys2Proof.Machine
end

