-- ==== Sys2Proof/Machine/Turn.lean ====
section
/-! DEFINITION. The turn boundary (R25): TURN_BOUNDARY, and DOZE_ENTRY, which takes its place. -/

namespace Sys2Proof.Machine

/-! ### What ends with the turn -/

/-- The turns in which the transmit current limit acted are counted (R163, R206). -/
def noteLimits (s : State) : State :=
  s.mapPorts (fun _ x => if x.line.txLimit then { x with raw := x.raw.note 18 1 } else x)

/-- T wraps (02_position_time, "Where things meet"). -/
def noteWrap (s : State) : State :=
  if s.pos.t = 0 then { s with time := { s.time with gap := true } } else s

/-- The odometer (R476). -/
def countTurn (s : State) : State :=
  if s.keeper.power = .main ∧ !s.keeper.dozing then
    { s with keeper := { s.keeper with odometer := s.keeper.odometer + 1 } }
  else s

/-- The turn ends: its last frame ends, and position moves to the boundary. The timers count its tick after step 1 of R25, or
not at all where DOZE is entered (R52). -/
def endTurn (s : State) : State :=
  let s1 := settlePatterns (frameEnd (noteLimits s))
  countTurn (noteWrap (fabricTick { s1 with pos := s1.pos.nextTurn }))

/-! ### Proof cycles (R140, R141) -/

/-- An engine's part in a cycle failed: a returned bit, a rally cell or an output mismatch. -/
def proofBad (s : State) (e : Eng) : Bool :=
  let t := (s.eng e).tally
  decide (0 < t.proofErr) || decide (0 < t.rallyFail) || decide (0 < s.engX.tally.mismatch + s.engY.tally.mismatch)

/-- The result of a cycle for one engine: one at fault by its returned bits falls to health 2. -/
def proofResult (whole : Bool) (e : Eng) (s : State) : State :=
  if (s.eng e).ctl.running then
    let bad := proofBad s e
    let s1 := s.setEngTally e (fun t => { t with proofRan := whole, proofPart := !whole, proofBad := whole && bad })
    if whole && decide (0 < (s.eng e).tally.proofErr) then lowerHealth e 2 .proof s1 else s1
  else s

/-- A proof cycle ends at a second boundary. -/
def endCycle (s : State) : State :=
  if s.modes.proofOn then
    let whole := !s.modes.proofPart
    let failed := whole && engines.any (fun e => (s.eng e).ctl.running && proofBad s e)
    let s1 := proofResult whole .ey (proofResult whole .ex s)
    let s2 := { s1 with modes := { s1.modes with proofPart := false, proofFailed := if whole then failed else s1.modes.proofFailed } }
    s2.setAlarm .proof s2.modes.proofFailed
  else s

/-- PROOF begins or ends at this boundary: the second in which it takes effect is incomplete, and so is a cycle cut short
(R141). -/
def followProof (s : State) : State :=
  let on := s.modes.mode == .proof
  if on && !s.modes.proofOn then
    { s with modes := { s.modes with proofOn := true, proofPart := true, proofFrom := s.pos.frames } }
  else if !on && s.modes.proofOn then
    let cut := fun (e : Eng) (t : State) =>
      if (t.eng e).ctl.running && !isSecond t.pos.t.toNat then t.setEngTally e (fun x => { x with proofPart := true }) else t
    let s1 := forEach engines cut s
    ({ s1 with modes := { s1.modes with proofOn := false, proofPart := false, proofFailed := false } }).lower .proof
  else s

/-! ### The steps of R25 -/

/-- Step 1: at a second boundary a proof cycle ends and the counters are latched. -/
def stepOne (s : State) : State := if isSecond s.pos.t.toNat then secondClose (endCycle s) else s

/-- READY (R467, R468), and the end of a start. -/
def readyTurn (s : State) : State :=
  let ends := s.keeper.phase == .started && decide (s.keeper.t0 + 10 ≤ s.pos.t.toNat) && s.image.inUse.isSome
  let ph := if ends then StartPhase.done else s.keeper.phase
  { s with
    keeper := { s.keeper with phase := ph }
    pins := { s.pins with ready := ph == .done && s.image.inUse.isSome && !s.keeper.reloading && !s.keeper.xinStopped } }

/-- A second that begins at this boundary has the health and the alarm conditions that its steps leave (R309, R427, R432); `closed`:
the boundary has closed a record, without which the second goes on (R505). -/
def openSecond (closed : Bool) (s : State) : State :=
  if closed then
    let s1 := forEach engines (fun e t => t.setEngTally e (fun x => { x with minHealth := (s.eng e).ctl.health })) s
    { s1 with alarm := { s1.alarm with seen := s1.alarm.holds } }
  else s

/-- The steps of R25 while the dies run. -/
def fullTurn (o : TurnObs) (s : State) : State :=
  let closed := isSecond s.pos.t.toNat && closes s
  let s1 := stepTwo o s.engX.ctl.health s.engY.ctl.health (tickTimers (stepOne s))
  let s2 := evalSignalDegrade (turnFlags (restoreDies (reenterSpray s1)))
  let swapped := swapPage s2
  let s3 := stepThree s2
  let s4 := stepFour o.krefOut { s3 with keeper := { s3.keeper with dozeReq := dozeActs s3 } }
  let s5 := updateReceivers (makeDeferred (retryRefused (followProof s4)))
  let start := s5.keeper.phase == .validated
  let s6 := stepFive (start && s5.image.inUse.isSome) swapped s5
  let s7 := if start then { s6 with keeper := { s6.keeper with phase := .started } } else s6
  partnerTurn o.keeper (startStream (readyTurn (captureTurn (openSecond closed s7))))

/-- A second boundary that closes no record leaves the open second partial (R505). -/
def unclosed (s : State) : State :=
  if isSecond s.pos.t.toNat then { s with time := { s.time with partialSecond := true } } else s

/-- A turn boundary in RIDE or LAST: turn-clocked timers count (R389), releases go on and the status stream runs; nothing closes
(R457, R458). -/
def ridingTurn (s : State) : State := startStream (updateReceivers (reconcileAll (turnFlags (turnUnits (unclosed s)))))

/-- A turn boundary T:0:0, after position has reached it. -/
def turnActions (o : TurnObs) (s : State) : State :=
  let s1 := transferNotices (referenceTurn o.freqPpb o.inLock (correctTurn s))
  let s2 :=
    if s1.keeper.power != .main then ridingTurn (krefTurn o.krefOut LiveKey.pass (tickTimers s1))
    else if !s1.pins.resetN || s1.keeper.phase == .waiting then
      turnFlags (turnUnits (unclosed (krefTurn o.krefOut LiveKey.pass (tickTimers s1))))
    else fullTurn o s1
  { s2 with frameDue := true }

/-- TURN_BOUNDARY (R25): the turn in progress ends, and the slow-plane actions due take effect in order. -/
def turnBoundary (o : TurnObs) (s : State) : State := if s.time.counting then turnActions o (endTurn s) else s

/-! ### DOZE_ENTRY (R148, R469) -/

/-- DOZE can be entered: it is requested, a start has completed, and no port is inserted or in a sequence. -/
def canDoze (s : State) : Bool := dozeActs s && s.time.counting && allBypassed s

/-- What the turn that ends at Te:0:0 has shown: the DPLL's turn (R501), the KREF fault, and the live keys' samples (R64, R68,
R507). -/
def lastTurn (o : TurnObs) (s : State) : State :=
  krefTurn o.krefOut LiveKey.accept { s with time := s.time.lockTurn o.freqPpb o.inLock }

/-- The page that KEY_PAGE names is requested where its level has changed with the turn that DOZE entry ends (R117, R507); the
request stands until the engines leave retention (R130). -/
def holdPageKey (old : Option (BitVec 4)) (s : State) : State :=
  if s.level 1 = old then s
  else { s with image := { s.image with heldPage := some (pageOfLevel ((s.level 1).getD 0)) } }

/-- DOZE_ENTRY: at the next turn boundary, or at the one where the machine stands, if the request has stood since before it
(R148, R469). -/
def dozeEntered (o : TurnObs) (s : State) : State :=
  if canDoze s then
    if s.frameDue && s.pos.f == 0 && s.pos.k == 0 then
      if s.keeper.dozeReq then
        let s1 := enterDoze (transferNotices (frameUnits s))
        { s1 with keeper := { s1.keeper with unitsDone := true } }
      else s
    else holdPageKey (s.level 1) (enterDoze (lastTurn o (transferNotices (endTurn s))))
  else s

def execTurnBoundary (o : TurnObs) (s : State) : Host.Outcome State Fault Refusal := .next (turnBoundary o s)

def execDozeEntry (o : TurnObs) (s : State) : Host.Outcome State Fault Refusal := .next (dozeEntered o s)

end Sys2Proof.Machine
end

