-- ==== Sys2Proof/Machine/Dispatch.lean ====
section
/-! DEFINITION. One arm for each command: its meaning. -/

namespace Sys2Proof.Machine

def exec (i : Instr) (s : State) : Host.Outcome State Fault Refusal :=
  match i with
  | .turnBoundary o => Sys2Proof.Machine.execTurnBoundary o s
  | .frameBoundary o => Sys2Proof.Machine.execFrameBoundary o s
  | .latchAis p k => Sys2Proof.Machine.execLatchAis p k s
  | .latchFailover p k => Sys2Proof.Machine.execLatchFailover p k s
  | .referenceLoss k => Sys2Proof.Machine.execReferenceLoss k s
  | .candidateQualified p => Sys2Proof.Machine.execCandidateQualified p s
  | .refinQualified => Sys2Proof.Machine.execRefinQualified s
  | .candidateDisqualified c outOfRange k => Sys2Proof.Machine.execCandidateDisqualified c outOfRange k s
  | .xinStopped k => Sys2Proof.Machine.execXinStopped k s
  | .countingResume n => Sys2Proof.Machine.execCountingResume n s
  | .activePageReloadDone x y => Sys2Proof.Machine.execActivePageReloadDone x y s
  | .liveKeySample mode page cmd tally => Sys2Proof.Machine.execLiveKeySample mode page cmd tally s
  | .resetNAssert k => Sys2Proof.Machine.execResetNAssert k s
  | .startRecognised o k => Sys2Proof.Machine.execStartRecognised o k s
  | .validationComplete k => Sys2Proof.Machine.execValidationComplete k s
  | .pageLoadComplete x y k => Sys2Proof.Machine.execPageLoadComplete x y k s
  | .dozeRequest k => Sys2Proof.Machine.execDozeRequest k s
  | .dozeEntry o => Sys2Proof.Machine.execDozeEntry o s
  | .dozeWake => Sys2Proof.Machine.execDozeWake s
  | .lendRequest m k => Sys2Proof.Machine.execLendRequest m k s
  | .lendGrant m k => Sys2Proof.Machine.execLendGrant m k s
  | .lendRelease m wrote k => Sys2Proof.Machine.execLendRelease m wrote k s
  | .lendCheck m k => Sys2Proof.Machine.execLendCheck m k s
  | .followDriveStart p k => Sys2Proof.Machine.execFollowDriveStart p k s
  | .hingeEnergise p k => Sys2Proof.Machine.execHingeEnergise p k s
  | .terminationOn p k => Sys2Proof.Machine.execTerminationOn p k s
  | .takeover p k => Sys2Proof.Machine.execTakeover p k s
  | .releaseBegin p k => Sys2Proof.Machine.execReleaseBegin p k s
  | .terminationOff p k => Sys2Proof.Machine.execTerminationOff p k s
  | .releaseComplete p k => Sys2Proof.Machine.execReleaseComplete p k s
  | .losDeclare p w k => Sys2Proof.Machine.execLosDeclare p w k s
  | .losClear p w k => Sys2Proof.Machine.execLosClear p w k s
  | .aisDeclare p bits k => Sys2Proof.Machine.execAisDeclare p bits k s
  | .aisClear p bits k => Sys2Proof.Machine.execAisClear p bits k s
  | .bipolarViolation p w n k => Sys2Proof.Machine.execBipolarViolation p w n k s
  | .excessZeros p w k => Sys2Proof.Machine.execExcessZeros p w k s
  | .transmitCurrentLimit p k => Sys2Proof.Machine.execTransmitCurrentLimit p k s
  | .vlineOutOfRange k => Sys2Proof.Machine.execVlineOutOfRange k s
  | .frameAlignmentGained p w k => Sys2Proof.Machine.execFrameAlignmentGained p w k s
  | .t1FrameAligned p w k => Sys2Proof.Machine.execT1FrameAligned p w k s
  | .lossOfFrame p w k => Sys2Proof.Machine.execLossOfFrame p w k s
  | .crc4MultiframeAligned p b k => Sys2Proof.Machine.execCrc4MultiframeAligned p b k s
  | .crc4Fallback p k => Sys2Proof.Machine.execCrc4Fallback p k s
  | .crc4FallbackExit p b k => Sys2Proof.Machine.execCrc4FallbackExit p b k s
  | .crc4WindowClose p k => Sys2Proof.Machine.execCrc4WindowClose p k s
  | .crcBlockChecked p b k => Sys2Proof.Machine.execCrcBlockChecked p b k s
  | .casMultiframeAligned p w k => Sys2Proof.Machine.execCasMultiframeAligned p w k s
  | .casMultiframeLost p w k => Sys2Proof.Machine.execCasMultiframeLost p w k s
  | .raiDeclare p w k => Sys2Proof.Machine.execRaiDeclare p w k s
  | .raiClear p w k => Sys2Proof.Machine.execRaiClear p w k s
  | .lineTimedFrameStart p k => Sys2Proof.Machine.execLineTimedFrameStart p k s
  | .selectionWordReceived d k => Sys2Proof.Machine.execSelectionWordReceived d k s
  | .holdOffExpiry g l c => Sys2Proof.Machine.execHoldOffExpiry g l c s
  | .wtrExpiry g => Sys2Proof.Machine.execWtrExpiry g s
  | .offsetConfirmed g d k => Sys2Proof.Machine.execOffsetConfirmed g d k s
  | .confirmationLost g d k => Sys2Proof.Machine.execConfirmationLost g d k s
  | .analyserSync d => Sys2Proof.Machine.execAnalyserSync d s
  | .analyserSyncLoss d => Sys2Proof.Machine.execAnalyserSyncLoss d s
  | .cellArrival r l hdr payload k => Sys2Proof.Machine.execCellArrival r l hdr payload k s
  | .resequencerTimeout r w k => Sys2Proof.Machine.execResequencerTimeout r w k s
  | .laneLockLoss d e l k => Sys2Proof.Machine.execLaneLockLoss d e l k s
  | .beatReceived d e l hdr payload k => Sys2Proof.Machine.execBeatReceived d e l hdr payload k s
  | .beatTimeout d e k => Sys2Proof.Machine.execBeatTimeout d e k s
  | .rallyLaunch d r => Sys2Proof.Machine.execRallyLaunch d r s
  | .rallyDeadline d r e st k => Sys2Proof.Machine.execRallyDeadline d r e st k s
  | .rallyFailureReport d e k => Sys2Proof.Machine.execRallyFailureReport d e k s
  | .heartbeatWord e claim k => Sys2Proof.Machine.execHeartbeatWord e claim k s
  | .incumbencyGrant k => Sys2Proof.Machine.execIncumbencyGrant k s
  | .dieLost d k => Sys2Proof.Machine.execDieLost d k s
  | .mirrorReceived w k => Sys2Proof.Machine.execMirrorReceived w k s
  | .ackReceived w k => Sys2Proof.Machine.execAckReceived w k s
  | .timeReceived w k => Sys2Proof.Machine.execTimeReceived w k s
  | .meetReceived w a k => Sys2Proof.Machine.execMeetReceived w a k s
  | .partnerFrameSent k => Sys2Proof.Machine.execPartnerFrameSent k s
  | .partnerLost => Sys2Proof.Machine.execPartnerLost s
  | .meetingInstant a => Sys2Proof.Machine.execMeetingInstant a s
  | .listeningWindowOpen a => Sys2Proof.Machine.execListeningWindowOpen a s
  | .listeningWindowEnd a => Sys2Proof.Machine.execListeningWindowEnd a s
  | .timerMatch n k => Sys2Proof.Machine.execTimerMatch n k s
  | .timerOverflow n k => Sys2Proof.Machine.execTimerOverflow n k s
  | .alarmPulseEnd k => Sys2Proof.Machine.execAlarmPulseEnd k s
  | .matrixRequest q k => Sys2Proof.Machine.execMatrixRequest q k s
  | .burstComplete t k => Sys2Proof.Machine.execBurstComplete t k s
  | .tallyCommit k => Sys2Proof.Machine.execTallyCommit k s
  | .mainFail vcell n k => Sys2Proof.Machine.execMainFail vcell n k s
  | .enginesPowerDown => Sys2Proof.Machine.execEnginesPowerDown s
  | .lineDiesPowerDown o => Sys2Proof.Machine.execLineDiesPowerDown o s
  | .lastEntry n => Sys2Proof.Machine.execLastEntry n s
  | .lastWordsWriteDone => Sys2Proof.Machine.execLastWordsWriteDone s
  | .darkEntry => Sys2Proof.Machine.execDarkEntry s
  | .mainStable => Sys2Proof.Machine.execMainStable s
  | .coldStart => Sys2Proof.Machine.execColdStart s
  | .railsInRange core vline => Sys2Proof.Machine.execRailsInRange core vline s
  | .coreRailOutOfRange k => Sys2Proof.Machine.execCoreRailOutOfRange k s
  | .extest bits seen => Sys2Proof.Machine.execExtest bits seen s
  | .samplePreload bits seen => Sys2Proof.Machine.execSamplePreload bits seen s
  | .idcode => Sys2Proof.Machine.execIdcode s
  | .highz => Sys2Proof.Machine.execHighz s
  | .clamp => Sys2Proof.Machine.execClamp s
  | .haltSet k => Sys2Proof.Machine.execHaltSet k s
  | .haltClr k => Sys2Proof.Machine.execHaltClr k s
  | .bypass code bits => Sys2Proof.Machine.execBypass code bits s
  | .testLogicReset k => Sys2Proof.Machine.execTestLogicReset k s
  | .frameWrittenInLineTime p w k => Sys2Proof.Machine.execFrameWrittenInLineTime p w k s
  | .liftedFrame p w k => Sys2Proof.Machine.execLiftedFrame p w k s
  | .linkRegainsLock d e l k => Sys2Proof.Machine.execLinkRegainsLock d e l k s
  | .vkeepCollapses => Sys2Proof.Machine.execVkeepCollapses s
  | .alarmConditionMinimumEnd k => Sys2Proof.Machine.execAlarmConditionMinimumEnd k s

end Sys2Proof.Machine
end

