-- ==== Sys2Proof/Safety.lean ====
section
/-! DEFINITION. What the claims about the KX32D-M are said in: a run that never stops, memories in their canonical form,
and the frames that say what a command left as it was. -/

namespace Sys2Proof.Machine

/-- The step at this state answers a next state: the block neither faults nor refuses. -/
def Runs (s : State) : Prop := ∃ t, step s = .next t

/-- Every memory is in its canonical form. -/
def Canonical (s : State) : Prop :=
  Mem.wf flashFill s.image.flash = true ∧ Mem.wf ramFill s.matrix.framMem = true ∧
    Mem.wf ramFill s.matrix.psramMem = true ∧ Mem.wf ramFill s.matrix.sramMem = true

/-- Every byte of every memory reads as it did. -/
def SameBytes (s u : State) : Prop :=
  ∀ a, Mem.read flashFill u.image.flash a = Mem.read flashFill s.image.flash a ∧
    Mem.read ramFill u.matrix.framMem a = Mem.read ramFill s.matrix.framMem a ∧
    Mem.read ramFill u.matrix.psramMem a = Mem.read ramFill s.matrix.psramMem a ∧
    Mem.read ramFill u.matrix.sramMem a = Mem.read ramFill s.matrix.sramMem a

/-- The commands that may change a byte of the tally FRAM, the capture PSRAM or the keeper SRAM: the end of a burst, the
commit of a tally record, the end of a lend, and the loss of the keeper's power. -/
def storesTo : Instr → Bool
  | .burstComplete _ _ | .tallyCommit _ | .lendRelease _ _ _ | .darkEntry | .vkeepCollapses => true
  | _ => false

/-- A byte of a target of the matrix. -/
def State.byteOf (s : State) (t : Target) (a : Nat) : Byte :=
  match t with
  | .flash => Mem.read flashFill s.image.flash a
  | .psram => Mem.read ramFill s.matrix.psramMem a
  | .fram => Mem.read ramFill s.matrix.framMem a
  | .sram => Mem.read ramFill s.matrix.sramMem a

/-- Nothing changed but port `p`. -/
def OnlyPort (p : Port) (s u : State) : Prop :=
  u = { s with ports := u.ports } ∧ ∀ q, q ≠ p → u.ports[q] = s.ports[q]

/-- Another port than `p` after events of `p`: as it was, but that the port which returns what `p` receives keeps from when it
sends all ones (R511). -/
def LoopKept (p q : Port) (s u : State) : Prop :=
  if q = partnerPort p ∧ loopsBack s p = true then
    u.ports[q] = { s.ports[q] with tx := { s.ports[q].tx with ones := u.ports[q].tx.ones } }
  else u.ports[q] = s.ports[q]

/-- Nothing changed but port `p`, the all ones of a line loop of `p`, the timers that count its events (what they have counted and
whether it wrapped), and the event entries of the open second. -/
def OnlyEvent (p : Port) (s u : State) : Prop :=
  u = { s with ports := u.ports, timers := u.timers, tally := u.tally } ∧
    (∀ q, q ≠ p → LoopKept p q s u) ∧
    (∀ i : TimerId, u.timers[i] = { s.timers[i] with
      counter := u.timers[i].counter, due := u.timers[i].due, wrapped := u.timers[i].wrapped }) ∧
    u.tally = { s.tally with
      entries := u.tally.entries, readNow := u.tally.readNow, lostNow := u.tally.lostNow, lostEntries := u.tally.lostEntries }

/-- Of the line dies and the partner no more changed than that the frame in transmission on the partner channel was cut off. -/
def ChannelCut (s u : State) : Prop :=
  (∀ d, u.die d = s.die d ∨ u.die d = (s.die d).cutFrames) ∧ u.partner = { s.partner with out := u.partner.out }

/-- Nothing changed but pair `g`. -/
def OnlyPair (g : PairId) (s u : State) : Prop :=
  u = { s with pairs := u.pairs } ∧ ∀ h, h ≠ g → u.pairs[h] = s.pairs[h]

/-- Nothing changed but the line die `d`. -/
def OnlyDie (d : LineDie) (s u : State) : Prop :=
  ∃ x, u = s.setDie d (fun _ => x)

/-- Nothing changed but the partner channel. -/
def OnlyPartner (s u : State) : Prop :=
  u = { s with partner := u.partner, ptime := u.ptime }

/-- A port bypassed with nothing in progress, its transmitter high-impedance and silent. -/
def PortSt.released (x : PortSt) : Prop :=
  x.hinge.role = .bypassed ∧ x.hinge.seq = .idle ∧ x.hinge.driven = false ∧ x.line.tx = .hiZ ∧ x.tx.octets = none

end Sys2Proof.Machine
end

