-- ==== Sys2Proof/Certificates/Slice0/Obligations.lean ====
section
/-! DEFINITION. The statements about the KX32D-M. In all of them `t` is the machine brought to the event's tick
(`atTick`), and a clause that names what changed is followed by the frame that says nothing else did. -/

open Sys2Proof Sys2Proof.Machine

/-! ### The block -/

/-- A step takes the command at the front of the queue and runs it with the queue's rest; with nothing waiting it changes
nothing (the model's choice: assumption 1). -/
def Obligations.StepRunsFront : Prop :=
  (∀ (c : Instr) (s : State) (rest : List Instr), s.pending = c :: rest → step s = exec c { s with pending := rest }) ∧
    ∀ s : State, s.pending = [] → step s = .next s

/-- Every command answers a next state and leaves the queue alone. -/
def Obligations.CommandsComplete : Prop :=
  ∀ (c : Instr) (s : State), ∃ u, exec c s = .next u ∧ u.pending = s.pending

/-- Reset: the keeper in MAIN with a cold start under way and its event flagged, position 0:0:0 not counted, stamp quality 0x12,
the odometer at 0 and one cold start counted, no engine claiming anything, every port released, ALARM_N not driven, HALT clear,
and the test access port in Test-Logic-Reset with IDCODE selected (R45, R463, R465, R490). The queue is empty and the position is 0
by the model's choice (assumptions 1 and 2). -/
def Obligations.ResetState : Prop :=
  State.reset.pending = [] ∧ State.reset.keeper.power = .main ∧ State.reset.keeper.startKind = .cold ∧
    State.reset.pos = ⟨0, 0, 0⟩ ∧ State.reset.time.counting = false ∧ State.reset.time.qual = 0x12 ∧
    State.reset.keeper.odometer = 0 ∧ State.reset.keeper.events = 8 ∧ State.reset.words.colds = 1 ∧
    State.reset.tap.ir = TapInstr.idcode.code ∧ State.reset.tap.idcode = 0x13D200F7 ∧ State.reset.tap.halt = false ∧
    State.reset.alarmLow = false ∧ (∀ e, (State.reset.eng e).ctl.claim = 0) ∧ ∀ p : Port, State.reset.ports[p].released

/-- At reset every memory is in its canonical form. -/
def Obligations.ResetCanonical : Prop := Canonical State.reset

/-- Every step keeps every memory in its canonical form. -/
def Obligations.StepKeepsCanonical : Prop := ∀ s u : State, Canonical s → step s = .next u → Canonical u

/-- No command ever writes the map flash (R3). -/
def Obligations.FlashNeverWritten : Prop :=
  ∀ (c : Instr) (s u : State), exec c s = .next u → u.image.flash = s.image.flash

/-- Every command but the end of a burst, the commit of a tally record, the end of a lend and the loss of the keeper's power
leaves every byte of every memory as it was. -/
def Obligations.OnlyStoresChangeMemory : Prop :=
  ∀ (c : Instr) (s u : State), storesTo c = false → exec c s = .next u → SameBytes s u

/-- HALT and the registers of the test access port change by no command but those of the test access port
and the loss of the keeper's power (R491); the last-words slots are written by nothing but the end of a last-words
write and a write cut off by VKEEP (R460). -/
def Obligations.HaltAndLastWordsHold : Prop :=
  (∀ (c : Instr) (s u : State),
      (match c with
        | .extest _ _ | .samplePreload _ _ | .idcode | .highz | .clamp | .haltSet _ | .haltClr _ | .bypass _ _ | .testLogicReset _
        | .darkEntry | .vkeepCollapses => False
        | _ => True) →
      exec c s = .next u → u.tap = s.tap) ∧
  (∀ (c : Instr) (s u : State), c ≠ .lastWordsWriteDone → c ≠ .vkeepCollapses → exec c s = .next u →
      u.words.slot0 = s.words.slot0 ∧ u.words.slot1 = s.words.slot1)

/-- Within a frame position moves on to a later tick while it is counted, and never back. On the way timers match, cells move
through the engines and over the links, and the beats of running engines are sent; a transmitter that was to stop driving at a
bit boundary may stop. Nothing else changes: of the engines the data part and the claim of their latest beat, of the line dies the
links, of a port its drive, of the alarm the pulse, of the tally the mark of a timer event. That position never goes back and that
the work of the ticks passed is done first, the matches of timers with it, is the model's choice (assumptions 5 and 156). -/
def Obligations.TickFrame : Prop :=
  ∀ (k : Tick) (s u : State), u = atTick k s →
    u = { s with
      pos := u.pos, timers := u.timers, engX := u.engX, engY := u.engY, lda := u.lda, ldb := u.ldb, ports := u.ports
      alarm := { s.alarm with pulseEnd := u.alarm.pulseEnd }, tally := { s.tally with timerTurn := u.tally.timerTurn } } ∧
    u.pos = { s.pos with k := if s.time.counting && decide (s.pos.k < k) then k else s.pos.k } ∧
    (∀ e, (u.eng e).ctl = { (s.eng e).ctl with word := (u.eng e).ctl.word } ∧ (u.eng e).tally = (s.eng e).tally) ∧
    (∀ d, u.die d = { s.die d with linkX := (u.die d).linkX, linkY := (u.die d).linkY }) ∧
    (∀ p : Port, u.ports[p] = s.ports[p] ∨
      (s.ports[p].line.stopAt.isSome = true ∧
        u.ports[p] = { s.ports[p] with line := { s.ports[p].line with tx := .hiZ, stopAt := none } })) ∧
    (s.time.counting = false ∨ k ≤ s.pos.k → u = s)

/-! ### Line conditions (06_line_front_ends) -/

/-- LOS_DECLARE, LOS_CLEAR, AIS_DECLARE and AIS_CLEAR on a port whose line shows what R171, R172 and R173 ask for: LOS holds, AIS
has ended and nothing may be read from the slip buffer until the next alignment; LOS has ended and a fresh series of AIS windows
begins; AIS holds, declared only while LOS does not; AIS has ended. `bits` are those received since the latest frame of the port was
written, which the windows of R173 take on from there. Each is captured with its code, 1, 2, 5 and 6, but in a listening window (R202,
R383, R402). Where the line does not show it nothing changes. -/
def Obligations.LineConditions : Prop :=
  (∀ (p : Port) (w : LineObs) (k : Tick) (s t : State), t = atTick k s →
      (t.ports[p].line.running = true → t.ports[p].line.los = false → losMet t.ports[p].line.family w = true →
        ∃ u, exec (.losDeclare p w k) s = .next u ∧
          u.ports[p].line = { t.ports[p].line with los := true, ais := false } ∧
          u.ports[p].raw = { t.ports[p].raw with los := true } ∧
          u.ports[p].slip.waiting = [] ∧ u.ports[p].slip.reading = false ∧ u.ports[p].slip.alignedAt = none ∧
          u.ports[p].framer = t.ports[p].framer ∧ u.ports[p].hinge = t.ports[p].hinge ∧ u.ports[p].tx = t.ports[p].tx ∧
          (t.pos.k ≠ 0 → t.ports[p].line.ais = false →
            t.ptime.listening = false → u.ports[p].capture = t.ports[p].capture.record t.stamp t.qual 1) ∧
          OnlyEvent p t u) ∧
      (t.ports[p].line.running = true → t.ports[p].line.los = true → losOver t.ports[p].line.family w = true →
        t.keeper.vlineOk = true →
        ∃ u, exec (.losClear p w k) s = .next u ∧
          u.ports[p].line = { t.ports[p].line with los := false, win := .reset } ∧
          u.ports[p].raw = t.ports[p].raw ∧ u.ports[p].framer = t.ports[p].framer ∧
          (t.pos.k ≠ 0 → t.ptime.listening = false →
            u.ports[p].capture = t.ports[p].capture.record t.stamp t.qual 2) ∧ OnlyEvent p t u) ∧
      (losMet t.ports[p].line.family w = false → exec (.losDeclare p w k) s = .next t) ∧
      (losOver t.ports[p].line.family w = false → exec (.losClear p w k) s = .next t)) ∧
  (∀ (p : Port) (bits : List Bool) (k : Tick) (s t : State), t = atTick k s →
      (t.ports[p].line.running = true → t.ports[p].line.los = false → t.ports[p].line.ais = false →
        aisMet t.ports[p].line bits = true →
        ∃ u, exec (.aisDeclare p bits k) s = .next u ∧ u.ports[p].line = { t.ports[p].line with ais := true } ∧
          u.ports[p].raw = { t.ports[p].raw with ais := true } ∧ u.ports[p].framer = t.ports[p].framer ∧
          (t.pos.k ≠ 0 → t.ptime.listening = false →
            u.ports[p].capture = t.ports[p].capture.record t.stamp t.qual 5) ∧ OnlyEvent p t u) ∧
      (t.ports[p].line.running = true → t.ports[p].line.ais = true → aisOver t.ports[p].line bits = true →
        ∃ u, exec (.aisClear p bits k) s = .next u ∧ u.ports[p].line = { t.ports[p].line with ais := false } ∧
          u.ports[p].raw = t.ports[p].raw ∧ u.ports[p].framer = t.ports[p].framer ∧
          (t.pos.k ≠ 0 → t.ptime.listening = false →
            u.ports[p].capture = t.ports[p].capture.record t.stamp t.qual 6) ∧ OnlyEvent p t u) ∧
      (t.ports[p].line.los = true ∨ aisMet t.ports[p].line bits = false → exec (.aisDeclare p bits k) s = .next t) ∧
      (aisOver t.ports[p].line bits = false → exec (.aisClear p bits k) s = .next t))

/-- BIPOLAR_VIOLATION of a pulse that breaks the alternation outside a substitution, and EXCESS_ZEROS at the zero that exceeds the
limit of the port's line code, are counted in counters 7 and 8 of the frame while LOS is not declared, and not otherwise;
TRANSMIT_CURRENT_LIMIT marks the turn of a transmitter that is not high-impedance (R163, R165, R206). -/
def Obligations.LineEventsCount : Prop :=
  ∀ (p : Port) (w : List Pulse) (i : Nat) (k : Tick) (s t : State), t = atTick k s →
    (t.ports[p].line.running = true → t.ports[p].line.los = false →
      violationAt (lineCodeOf t.ports[p].line.family) w i = true →
      ∃ u, exec (.bipolarViolation p w i k) s = .next u ∧
        (∀ n : Fin 19, u.ports[p].raw.pend[n] = t.ports[p].raw.pend[n] + if n = 7 then 1 else 0) ∧
        u.ports[p] = { t.ports[p] with raw := { t.ports[p].raw with pend := u.ports[p].raw.pend } } ∧ OnlyPort p t u) ∧
    (t.ports[p].line.running = true → t.ports[p].line.los = false →
      zerosExceeded (lineCodeOf t.ports[p].line.family) w = true →
      ∃ u, exec (.excessZeros p w k) s = .next u ∧
        (∀ n : Fin 19, u.ports[p].raw.pend[n] = t.ports[p].raw.pend[n] + if n = 8 then 1 else 0) ∧
        u.ports[p] = { t.ports[p] with raw := { t.ports[p].raw with pend := u.ports[p].raw.pend } } ∧ OnlyPort p t u) ∧
    (t.ports[p].line.los = true ∨ violationAt (lineCodeOf t.ports[p].line.family) w i = false →
      exec (.bipolarViolation p w i k) s = .next t) ∧
    (t.ports[p].line.los = true ∨ zerosExceeded (lineCodeOf t.ports[p].line.family) w = false →
      exec (.excessZeros p w k) s = .next t) ∧
    (t.ports[p].line.tx ≠ .hiZ →
      ∃ u, exec (.transmitCurrentLimit p k) s = .next u ∧
        u.ports[p] = { t.ports[p] with line := { t.ports[p].line with txLimit := true } } ∧ OnlyPort p t u) ∧
    (t.ports[p].line.tx = .hiZ → exec (.transmitCurrentLimit p k) s = .next t)

/-- VLINE_OUT_OF_RANGE: every port is bypassed with its hinge released, its transmitter high-impedance, its termination off and
nothing sent, every running port that is not an NRZ port is in LOS, and the alarm condition of bit 9 holds (R161, R357, R427).
In RIDE or LAST, where it ends the releases, the keeper may return to MAIN (R454, R455). RAILS_IN_RANGE notes the rails that it reports,
and with VLINE among them ends that condition (R448). CORE_RAIL_OUT_OF_RANGE in MAIN: every powered line die is lost with its ports
released; otherwise only the rail is noted (R449). -/
def Obligations.RailsOutOfRange : Prop :=
  (∀ (k : Tick) (s t : State), t = atTick k s →
      ∃ u, exec (.vlineOutOfRange k) s = .next u ∧ u.keeper.vlineOk = false ∧
        (t.riding = false → u.keeper = { t.keeper with vlineOk := false }) ∧
        (t.riding = true → t.keeper.stable = true → t.words.writing = none → u.keeper.power = .main) ∧
        (∀ p : Port, u.ports[p].released ∧ u.ports[p].line.terminated = false ∧
          (t.ports[p].line.running = true → lineCodeOf t.ports[p].line.family ≠ .nrz → u.ports[p].line.los = true)) ∧
        u.alarm.on .vline = true ∧ ChannelCut t u ∧
        u = { t with
          ports := u.ports, timers := u.timers, tally := u.tally, alarm := u.alarm, keeper := u.keeper, lda := u.lda
          ldb := u.ldb, partner := u.partner }) ∧
  (∀ (core vline : Bool) (s : State), ∃ u, exec (.railsInRange core vline) s = .next u ∧
      u.keeper = { s.keeper with coreOk := s.keeper.coreOk || core, vlineOk := s.keeper.vlineOk || vline } ∧
      (vline = true → u.alarm.on .vline = false) ∧ (vline = false → u.alarm = s.alarm) ∧
      u = { s with keeper := u.keeper, alarm := u.alarm }) ∧
  (∀ (k : Tick) (s t : State), t = atTick k s →
      (t.keeper.power = .main →
        ∃ u, exec (.coreRailOutOfRange k) s = .next u ∧ u.keeper = { t.keeper with coreOk := false } ∧
          (∀ d, (t.die d).powered = true → (u.die d).lost = true) ∧
          (∀ p : Port, (t.die (dieOf p)).powered = true → (t.die (dieOf p)).lost = false →
            u.ports[p].released ∧ u.ports[p].line.running = false) ∧
          u = { t with
            keeper := u.keeper, lda := u.lda, ldb := u.ldb, ports := u.ports, alarm := u.alarm, partner := u.partner }) ∧
      (t.keeper.power ≠ .main →
        exec (.coreRailOutOfRange k) s = .next { t with keeper := { t.keeper with coreOk := false } }))

/-! ### Framing (07_framing) -/

/-- FRAME_ALIGNMENT_GAINED on E1 and T1_FRAME_ALIGNED on T1, with the bits in which the search finds its alignment: the framer is
aligned, the frame in receipt number 0 of an E1 port and the last of its superframe on T1; AIS ends, the CRC-4 multiframe search
begins on E1-CRC, and the slip buffer may be read from this tick on (R173, R180, R181, R183, R189, R202). With bits in which the search
finds no alignment it goes on, and nothing else changes. That an E1 frame counts as number 0 is the model's choice until a multiframe
is aligned (assumption 127). -/
def Obligations.AlignmentGained : Prop :=
  ∀ (p : Port) (bits : List Bool) (k : Tick) (s t : State), t = atTick k s → t.ports[p].line.running = true →
    t.ports[p].framer.aligned = false →
    ((huntOn t.ports[p].line.family bits t.ports[p].framer.hunt).2 = true →
      (isE1 t.ports[p].line.family = true →
        ∃ u, exec (.frameAlignmentGained p bits k) s = .next u ∧ u.ports[p].framer.aligned = true ∧
          u.ports[p].framer.frameNo = 0 ∧
          u.ports[p].framer.crcMf = (if framingOf t.ports[p].line.family = .e1Crc then .searching else .none) ∧
          u.ports[p].framer.casMf = false ∧ u.ports[p].framer.rai = false ∧
          u.ports[p].framer.sig = t.ports[p].framer.sig ∧
          u.ports[p].line = { t.ports[p].line with ais := false, win := u.ports[p].line.win } ∧ u.ports[p].slip.waiting = [] ∧
          u.ports[p].line.win = t.ports[p].line.winAfter (bits.take (bits.length - 8)) ∧
          u.ports[p].slip.alignedAt = some t.now ∧
          u.ports[p].raw = { t.ports[p].raw with lomf := t.ports[p].raw.lomf || lomfOf u.ports[p] } ∧ OnlyEvent p t u) ∧
      (isT1 t.ports[p].line.family = true →
        ∃ u, exec (.t1FrameAligned p bits k) s = .next u ∧ u.ports[p].framer.aligned = true ∧
          u.ports[p].framer.frameNo = superLen (framingOf t.ports[p].line.family) ∧ u.ports[p].framer.crcMf = .none ∧
          u.ports[p].line = { t.ports[p].line with ais := false, win := u.ports[p].line.win } ∧ u.ports[p].slip.waiting = [] ∧
          u.ports[p].line.win = t.ports[p].line.winAfter (bits.take (bits.length - 1)) ∧
          u.ports[p].slip.alignedAt = some t.now ∧
          u.ports[p].raw = { t.ports[p].raw with lomf := t.ports[p].raw.lomf || lomfOf u.ports[p] } ∧
          OnlyEvent p t u)) ∧
    ((huntOn t.ports[p].line.family bits t.ports[p].framer.hunt).2 = false →
      (isE1 t.ports[p].line.family = true →
        ∃ u, exec (.frameAlignmentGained p bits k) s = .next u ∧ OnlyPort p t u ∧
          u.ports[p] = { t.ports[p] with framer := { t.ports[p].framer with
            hunt := (huntOn t.ports[p].line.family bits t.ports[p].framer.hunt).1 } }) ∧
      (isT1 t.ports[p].line.family = true →
        ∃ u, exec (.t1FrameAligned p bits k) s = .next u ∧ OnlyPort p t u ∧
          u.ports[p] = { t.ports[p] with framer := { t.ports[p].framer with
            hunt := (huntOn t.ports[p].line.family bits t.ports[p].framer.hunt).1 } }))

/-- LOSS_OF_FRAME of a running port whose framing bits, with those of the frame in receipt, end alignment: the framer leaves
ALIGNED and every layer above with it, nothing may be read from the slip buffer, and the loss and the framing error that caused it
are counted once each, in counters 6 and 9 (R180, R181, R189, R202, R206). -/
def Obligations.LossOfFrameCounted : Prop :=
  ∀ (p : Port) (head : Byte) (k : Tick) (s t : State), t = atTick k s → t.ports[p].line.running = true →
    (framingLost t.ports[p] [head] = true →
      ∃ u, exec (.lossOfFrame p head k) s = .next u ∧ u.ports[p].framer.aligned = false ∧ u.ports[p].framer.crcMf = .none ∧
        u.ports[p].framer.casMf = false ∧ u.ports[p].framer.rai = false ∧ u.ports[p].framer.sig = t.ports[p].framer.sig ∧
        lofOf u.ports[p] = true ∧ u.ports[p].raw.lof = true ∧
        (∀ i : Fin 19, u.ports[p].raw.pend[i] = t.ports[p].raw.pend[i] + if i = 6 ∨ i = 9 then 1 else 0) ∧
        u.ports[p].line = t.ports[p].line ∧ u.ports[p].slip.alignedAt = none ∧
        (t.pos.k ≠ 0 → t.ptime.listening = false →
          u.ports[p].capture = t.ports[p].capture.record t.stamp t.qual 3) ∧ OnlyEvent p t u) ∧
    (framingLost t.ports[p] [head] = false → exec (.lossOfFrame p head k) s = .next t)

/-- CRC4_MULTIFRAME_ALIGNED out of the search, when two valid MFAS have been received as R183 asks; CRC4_FALLBACK when 64 frames of
the search have passed; CRC4_FALLBACK_EXIT out of fallback, when two valid MFAS have been received as R184 asks. The frame in receipt
is number 11 of an aligned multiframe, its error window begins afresh, out of fallback no block is checked before the multiframe that
follows, and nothing else changes. -/
def Obligations.CrcMultiframe : Prop :=
  ∀ (p : Port) (bit1 : Bool) (k : Tick) (s t : State), t = atTick k s → t.ports[p].framer.aligned = true →
    (t.ports[p].framer.crcMf = .searching →
      (crcFound t.ports[p] bit1 = true →
        ∃ u, exec (.crc4MultiframeAligned p bit1 k) s = .next u ∧
          u.ports[p] = { t.ports[p] with framer := { t.ports[p].framer with
            crcMf := .aligned, crcFresh := false, frameNo := 11, winBlocks := 0, winErrors := 0 } } ∧ OnlyPort p t u) ∧
      (crcFound t.ports[p] bit1 = false → exec (.crc4MultiframeAligned p bit1 k) s = .next t) ∧
      (64 ≤ t.ports[p].framer.sinceBasic →
        ∃ u, exec (.crc4Fallback p k) s = .next u ∧
          u.ports[p] = { t.ports[p] with
            framer := { t.ports[p].framer with crcMf := .fallback }
            raw := { t.ports[p].raw with fbTurn := true, lomf := true } } ∧ OnlyPort p t u) ∧
      (t.ports[p].framer.sinceBasic < 64 → exec (.crc4Fallback p k) s = .next t)) ∧
    (t.ports[p].framer.crcMf = .fallback →
      (crcFoundAgain t.ports[p] bit1 = true →
        ∃ u, exec (.crc4FallbackExit p bit1 k) s = .next u ∧
          u.ports[p] = { t.ports[p] with framer := { t.ports[p].framer with
            crcMf := .aligned, crcFresh := true, frameNo := 11, winBlocks := 0, winErrors := 0 } } ∧ OnlyPort p t u ∧
          (framingOf t.ports[p].line.family = .e1Crc → blocksChecked u.ports[p] = false)) ∧
      (crcFoundAgain t.ports[p] bit1 = false → exec (.crc4FallbackExit p bit1 k) s = .next t))

/-- CRC_BLOCK_CHECKED at the last check bit of a block counts the block, an errored one in counter 11, the open window of R186 and
the E bit still to be sent for it (R186, R197, R206); where no block ends nothing changes. CRC4_WINDOW_CLOSE after 1000 blocks
restarts the window, and 915 or more errored blocks end the alignment of a running port (R186). -/
def Obligations.CrcWindow : Prop :=
  ∀ (p : Port) (k : Tick) (s t : State), t = atTick k s →
    (∀ check errored second : Bool, blocksChecked t.ports[p] = true →
      blockResult t.ports[p] check = some (errored, second) →
      ∃ u, exec (.crcBlockChecked p check k) s = .next u ∧
        (∀ i : Fin 19, u.ports[p].raw.pend[i] =
          t.ports[p].raw.pend[i] + if i = 10 then 1 else if i = 11 then b2n errored else 0) ∧
        u.ports[p].raw.crcTurn = t.ports[p].raw.crcTurn + b2n errored ∧
        (isT1 t.ports[p].line.family = false →
          u.ports[p].framer.winBlocks = t.ports[p].framer.winBlocks + 1 ∧
          u.ports[p].framer.winErrors = t.ports[p].framer.winErrors + b2n errored ∧
          u.ports[p].framer.eBitFirst = (t.ports[p].framer.eBitFirst || (errored && !second)) ∧
          u.ports[p].framer.eBitSecond = (t.ports[p].framer.eBitSecond || (errored && second))) ∧
        (isT1 t.ports[p].line.family = true → u.ports[p].framer = t.ports[p].framer) ∧
        u.ports[p] = { t.ports[p] with raw := u.ports[p].raw, framer := u.ports[p].framer } ∧ OnlyPort p t u) ∧
    (∀ check : Bool, (blocksChecked t.ports[p] = false ∨ blockResult t.ports[p] check = none) →
      exec (.crcBlockChecked p check k) s = .next t) ∧
    (t.ports[p].framer.crcMf = .aligned → 1000 ≤ t.ports[p].framer.winBlocks →
      ∃ u, exec (.crc4WindowClose p k) s = .next u ∧ u.ports[p].framer.winBlocks = 0 ∧ u.ports[p].framer.winErrors = 0 ∧
        u.ports[p].framer.aligned =
          (t.ports[p].framer.aligned && !(t.ports[p].line.running && decide (915 ≤ t.ports[p].framer.winErrors))) ∧
        u.ports[p].line = t.ports[p].line ∧ OnlyEvent p t u) ∧
    ((t.ports[p].framer.crcMf ≠ .aligned ∨ t.ports[p].framer.winBlocks < 1000) →
      exec (.crc4WindowClose p k) s = .next t)

/-- CAS_MULTIFRAME_ALIGNED, CAS_MULTIFRAME_LOST, RAI_DECLARE and RAI_CLEAR on a port that has received what R187 and R192 ask for:
CAS multiframe alignment, its frame in receipt number 0; its loss, an errored MFAS that ends it counted in counter 13 and the held
signalling as it was; RAI, and its end. Nothing else of the machine changes. -/
def Obligations.CasAndRai : Prop :=
  ∀ (p : Port) (ts16 : Byte) (octets : List Byte) (k : Tick) (s t : State), t = atTick k s →
    (t.ports[p].framer.aligned = true → isE1 t.ports[p].line.family = true → t.ports[p].line.cas = true →
      t.ports[p].framer.casMf = false → casFound t.ports[p] ts16 = true →
      ∃ u, exec (.casMultiframeAligned p ts16 k) s = .next u ∧
        u.ports[p] = { t.ports[p] with framer := { t.ports[p].framer with casMf := true, casNo := 0 } } ∧ OnlyPort p t u) ∧
    (t.ports[p].framer.casMf = true → (casErrors t.ports[p] ts16 = true ∨ casZeros t.ports[p] ts16 = true) →
      ∃ u, exec (.casMultiframeLost p ts16 k) s = .next u ∧
        (∀ i : Fin 19, u.ports[p].raw.pend[i] =
          t.ports[p].raw.pend[i] + if i = 13 then b2n (casErrors t.ports[p] ts16) else 0) ∧
        u.ports[p] = { t.ports[p] with
          framer := { t.ports[p].framer with casMf := false }
          raw := { t.ports[p].raw with lomf := true, pend := u.ports[p].raw.pend } } ∧ OnlyPort p t u) ∧
    (raiMet t.ports[p] octets = true → t.ports[p].framer.rai = false →
      ∃ u, exec (.raiDeclare p octets k) s = .next u ∧
        u.ports[p] = { t.ports[p] with
          framer := { t.ports[p].framer with rai := true, raiAt := t.ports[p].slip.nextNo }
          raw := { t.ports[p].raw with rai := true } } ∧ OnlyPort p t u) ∧
    (t.ports[p].framer.rai = true → raiOver t.ports[p] octets = true →
      ∃ u, exec (.raiClear p octets k) s = .next u ∧
        u.ports[p] = { t.ports[p] with framer := { t.ports[p].framer with rai := false } } ∧ OnlyPort p t u) ∧
    (casFound t.ports[p] ts16 = false → exec (.casMultiframeAligned p ts16 k) s = .next t) ∧
    (casErrors t.ports[p] ts16 = false → casZeros t.ports[p] ts16 = false →
      exec (.casMultiframeLost p ts16 k) s = .next t) ∧
    (raiMet t.ports[p] octets = false → exec (.raiDeclare p octets k) s = .next t) ∧
    (raiOver t.ports[p] octets = false → exec (.raiClear p octets k) s = .next t)

/-! ### Hinges (13_hinges_rest_states) -/

/-- The steps of an insertion, each at its position (R155, R348, R350): follow drive at the next received bit boundary from
(T + 1):0:0 on, the hinge at (T + 1):1:0, the termination at (T + 1):25:0. An insertion that has been abandoned goes back to idle at
the step that was due, a transmitter in follow drive then stopping as R162 says. At another position nothing changes. -/
def Obligations.InsertionSteps : Prop :=
  ∀ (p : Port) (k : Tick) (s t : State), t = atTick k s →
    (t.ports[p].hinge.seq = .building →
      nextBit t.ports[p].line.family ((t.ports[p].hinge.start + 1) * 65536) t.now = true →
      (t.ports[p].hinge.abandoned = false →
        ∃ u, exec (.followDriveStart p k) s = .next u ∧
          u.ports[p] = { t.ports[p] with
            hinge := { t.ports[p].hinge with seq := .following }
            line := { t.ports[p].line with tx := .follow, bitAt := t.now } } ∧
          OnlyPort p t u) ∧
      (t.ports[p].hinge.abandoned = true →
        ∃ u, exec (.followDriveStart p k) s = .next u ∧
          u.ports[p] = { t.ports[p] with
            hinge := { t.ports[p].hinge with seq := .idle, abandoned := false }
            line := t.ports[p].line.stopDriving t.now } ∧ OnlyPort p t u)) ∧
    (t.ports[p].hinge.seq = .following → t.now = (t.ports[p].hinge.start + 1) * 65536 + 2048 →
      (t.ports[p].hinge.abandoned = false →
        ∃ u, exec (.hingeEnergise p k) s = .next u ∧
          u.ports[p] = { t.ports[p] with
            hinge := { t.ports[p].hinge with seq := .energised, driven := true, lowBefore := false } } ∧ OnlyPort p t u) ∧
      (t.ports[p].hinge.abandoned = true →
        ∃ u, exec (.hingeEnergise p k) s = .next u ∧
          u.ports[p] = { t.ports[p] with
            hinge := { t.ports[p].hinge with seq := .idle, abandoned := false }
            line := t.ports[p].line.stopDriving t.now } ∧ OnlyPort p t u)) ∧
    (t.ports[p].hinge.seq = .energised → t.now = (t.ports[p].hinge.start + 1) * 65536 + 25 * 2048 →
      ∃ u, exec (.terminationOn p k) s = .next u ∧
        u.ports[p] = { t.ports[p] with
          hinge := { t.ports[p].hinge with seq := .terminated }, line := { t.ports[p].line with terminated := true } } ∧
        OnlyPort p t u) ∧
    ((t.ports[p].hinge.seq ≠ .building ∨
        nextBit t.ports[p].line.family ((t.ports[p].hinge.start + 1) * 65536) t.now = false) →
      exec (.followDriveStart p k) s = .next t) ∧
    ((t.ports[p].hinge.seq ≠ .following ∨ t.now ≠ (t.ports[p].hinge.start + 1) * 65536 + 2048) →
      exec (.hingeEnergise p k) s = .next t) ∧
    ((t.ports[p].hinge.seq ≠ .energised ∨ t.now ≠ (t.ports[p].hinge.start + 1) * 65536 + 25 * 2048) →
      exec (.terminationOn p k) s = .next t)

/-- The steps of a release, each at its position (R155, R161, R354, R355): at boundary B follow drive and the hinge released, and a
frame in transmission on the partner channel is cut off where the port carried it; 9 frames after B the termination off; at the next
bit boundary from 13 frames after B on high-impedance, silent and bypassed. At another position nothing changes, but that the end of a
release may let the keeper return to MAIN from RIDE or LAST. -/
def Obligations.ReleaseSteps : Prop :=
  ∀ (p : Port) (k : Tick) (s t : State), t = atTick k s →
    (t.ports[p].hinge.seq = .awaitB → releaseDue t p = true →
      ∃ u, exec (.releaseBegin p k) s = .next u ∧
        u.ports[p] = { t.ports[p] with
          hinge := { t.ports[p].hinge with seq := .released, driven := false, lowBefore := false, boundary := t.now }
          line := { t.ports[p].line with tx := .follow }, tx := { TxSt.silent with follow := t.ports[p].tx.follow } } ∧
        (∀ q, q ≠ p → u.ports[q] = t.ports[q]) ∧ ChannelCut t u ∧
        u = { t with ports := u.ports, lda := u.lda, ldb := u.ldb, partner := u.partner }) ∧
    (t.ports[p].hinge.seq = .released → t.now = t.ports[p].hinge.boundary + 9 * 2048 →
      ∃ u, exec (.terminationOff p k) s = .next u ∧
        u.ports[p] = { t.ports[p] with
          hinge := { t.ports[p].hinge with seq := .unterminated }, line := { t.ports[p].line with terminated := false } } ∧
        OnlyPort p t u) ∧
    (t.ports[p].hinge.seq = .unterminated →
      nextBit t.ports[p].line.family (t.ports[p].hinge.boundary + 13 * 2048) t.now = true →
      ∃ u, exec (.releaseComplete p k) s = .next u ∧
        u.ports[p] = { t.ports[p] with
          hinge := { t.ports[p].hinge with seq := .idle, role := .bypassed }
          line := { t.ports[p].line with tx := .hiZ }, tx := TxSt.silent } ∧
        (∀ q, q ≠ p → u.ports[q] = t.ports[q]) ∧ (t.riding = false → u.keeper = t.keeper) ∧
        u = { t with ports := u.ports, keeper := u.keeper }) ∧
    ((t.ports[p].hinge.seq ≠ .awaitB ∨ releaseDue t p = false) → exec (.releaseBegin p k) s = .next t) ∧
    ((t.ports[p].hinge.seq ≠ .released ∨ t.now ≠ t.ports[p].hinge.boundary + 9 * 2048) →
      exec (.terminationOff p k) s = .next t) ∧
    ((t.ports[p].hinge.seq ≠ .unterminated ∨
        nextBit t.ports[p].line.family (t.ports[p].hinge.boundary + 13 * 2048) t.now = false) → t.riding = false →
      exec (.releaseComplete p k) s = .next t)

/-- TAKEOVER at the boundary that R351 gives the new role: the port takes its role and drives its line, and its latch is no longer
held (R350, R351). A grid-timed port goes on with the stream that it has built since its insertion began; a port that passes a line
goes on with the frame received one multiframe ago (R133). At another tick nothing changes. -/
def Obligations.TakeoverDrives : Prop :=
  ∀ (p : Port) (k : Tick) (s t : State), t = atTick k s →
    (t.ports[p].hinge.seq = .terminated → takeoverDue t p = true →
      ∃ u, exec (.takeover p k) s = .next u ∧
        u.ports[p].hinge = { t.ports[p].hinge with seq := .idle, role := t.ports[p].hinge.target } ∧
        u.ports[p].line = { t.ports[p].line with tx := .drive } ∧ u.ports[p].latch.held = 0 ∧ u.ports[p].latch.ais = false ∧
        u.ports[p].raw = t.ports[p].raw ∧ u.ports[p].capture = t.ports[p].capture ∧
        (t.ports[p].hinge.target = .grid → u.ports[p].tx = { t.ports[p].tx with follow := [] }) ∧
        (∀ i, t.ports[p].hinge.target = .lineTimed i → t.ports[p].hinge.content ≠ .lineLoop →
          u.ports[p].slip.nextOut = some (firstPassed t p i)) ∧
        ((∀ i, t.ports[p].hinge.target = .lineTimed i → t.ports[p].hinge.content = .lineLoop → i = partnerPort p) →
          ∀ q, q ≠ p → u.ports[q] = t.ports[q]) ∧
        u = { t with ports := u.ports }) ∧
    ((t.ports[p].hinge.seq ≠ .terminated ∨ takeoverDue t p = false) → exec (.takeover p k) s = .next t)

/-! ### What the transmitters send (08_slot_fabric, 12_duplicate_engines) -/

/-- LATCH_AIS: after 64 held frames a latch in use sends AIS and the alarm condition of bit 3 holds; a driving port sends
all ones at once (R331). LATCH_FAILOVER: the latch accepts the engine it prefers, what it gave of a frame still to be sent comes from
that engine's cell of the same SEQ where it has one, and nothing but its own port changes; it stays when neither engine is eligible or the present one is preferred (R315, R316, R329). -/
def Obligations.LatchEvents : Prop :=
  (∀ (p : Port) (k : Tick) (s t : State), t = atTick k s → latchUsed t.ports[p] = true → t.ports[p].latch.ais = false →
      (64 ≤ t.ports[p].latch.held →
        ∃ u, exec (.latchAis p k) s = .next u ∧ u.ports[p].latch = { t.ports[p].latch with ais := true } ∧
          u.alarm.on .latch = true ∧ u.alarm.low u.now = true ∧
          (driving t.ports[p] = true →
            u.ports[p].tx.octets = some (aisOctets t.ports[p].line.family) ∧ u.ports[p].tx.ais = true) ∧
          u.ports[p].hinge = t.ports[p].hinge ∧ u.ports[p].line = t.ports[p].line ∧
          (∀ q, q ≠ p → u.ports[q] = t.ports[q]) ∧ u = { t with ports := u.ports, alarm := u.alarm }) ∧
      (t.ports[p].latch.held < 64 → exec (.latchAis p k) s = .next t)) ∧
  (∀ (p : Port) (k : Tick) (s t : State), t = atTick k s →
      (∀ e, preferred t p = some e → e ≠ t.ports[p].latch.accepted →
        ∃ u, exec (.latchFailover p k) s = .next u ∧
          u.ports[p].latch = { t.ports[p].latch with
            accepted := e, last := t.ports[p].latch.last.map (fun c => (t.ports[p].latch.cell e c.seq).getD c) } ∧ u.ports[p].hinge = t.ports[p].hinge ∧
          u.ports[p].line = t.ports[p].line ∧ OnlyPort p t u) ∧
      ((preferred t p = none ∨ preferred t p = some t.ports[p].latch.accepted) → exec (.latchFailover p k) s = .next t) ∧
      (preferred t p = none ↔ ∀ e, eligible t (dieOf p) e = false))

/-- LINE_TIMED_FRAME_START on a driving port. A port that passes a line, or inserts slots in it, sends the delayed frame of its
timing line, or AIS where that frame was received in LOS, LOF or AIS, or not at all, or where the latch sends AIS in a THROUGH
port, and the next one after it; where the delay is to be taken anew, that frame is the one received one multiframe ago (R133, R135,
R250, R331, R511). A port that sends the selected line of its pair takes a changed selection
word: the pair's selection is then the word's, and the port is timed by the other line (R262). -/
def Obligations.LineTimedFrameSent : Prop :=
  (∀ (p i : Port) (k : Tick) (s t : State), t = atTick k s → t.ports[p].hinge.role = .lineTimed i → driving t.ports[p] = true →
    (t.ports[p].hinge.content = .pass ∨ t.ports[p].hinge.content = .through) →
    ∃ u n, exec (.lineTimedFrameStart p k) s = .next u ∧ n = t.ports[p].slip.nextOut.getD (firstPassed t p i) ∧
      u.ports[p].slip.nextOut = some (n + 1) ∧
      u.ports[p].tx.start = t.now ∧ u.ports[p].tx.octets.isSome = true ∧
      u.ports[p].tx.ais = (match t.ports[i].slip.frame n with
        | some r => r.bad || (t.ports[p].latch.ais && t.ports[p].hinge.content == .through)
        | none => true) ∧
      (u.ports[p].tx.ais = true → u.ports[p].tx.octets = some (aisOctets t.ports[p].line.family)) ∧
      u.ports[p].line = t.ports[p].line ∧ u.ports[p].hinge = t.ports[p].hinge ∧
      (∀ q, q ≠ p → u.ports[q] = t.ports[q]) ∧ u = { t with ports := u.ports, lda := u.lda, ldb := u.ldb }) ∧
  (∀ (p i : Port) (w : Bool) (k : Tick) (s t : State), t = atTick k s → t.ports[p].hinge.role = .lineTimed i →
    driving t.ports[p] = true → t.ports[p].hinge.content = .selected → t.pairs[pairOf p].running = true → p = workPort (pairOf p) →
    (t.die (dieOf p)).word (pairOf p) = some w → w ≠ t.pairs[pairOf p].protect →
    ∃ u, exec (.lineTimedFrameStart p k) s = .next u ∧ u.pairs[pairOf p].protect = w ∧
      u.ports[p].hinge = { t.ports[p].hinge with
        role := .lineTimed (if w then protPort (pairOf p) else workPort (pairOf p)) } ∧
      u.ports[p].tx.start = t.now ∧ u.ports[p].tx.octets.isSome = true ∧ u.ports[p].line = t.ports[p].line ∧
      ∀ g : PairId, g ≠ pairOf p → u.pairs[g] = t.pairs[g])

/-- FRAME_WRITTEN_IN_LINE_TIME on a running port: the frame that the decoder reads from the pulses (R165) is the port's latest
received, numbered by the time that has passed since the frame before it, with the tick at which it was complete, marked as received in
LOS, LOF or AIS where one of them held in it; on an aligned port without LOS whose alignment it does not end it waits in the slip
buffer, of five frames at most, and the multiframe frame number moves on (R178, R181, R189, R201). On a port that is not aligned the
search takes its bits and no counter moves. The windows of R173 take its bits, and a port in follow drive sends what it received
(R348). Other ports change in what a line loop sends and in the frame that is due next where they pass this line, pairs in the delay
measured, the line dies in the carriage bits gathered. -/
def Obligations.FrameWritten : Prop :=
  ∀ (p : Port) (w : RxPulses) (octets : List Byte) (k : Tick) (s t : State), t = atTick k s → t.ports[p].line.running = true →
    octets = rxOctets t.ports[p] w →
    ∃ u f, exec (.frameWrittenInLineTime p w k) s = .next u ∧ u.ports[p].slip.history.head? = some f ∧
      f.octets = fitTo 32 octets ∧ f.number = t.ports[p].slip.numberAt t.now ∧ f.doneAt = t.now ∧
      f.bad = (t.ports[p].slip.badNow || t.ports[p].line.los || t.ports[p].line.ais || !t.ports[p].framer.aligned ||
        framingLost t.ports[p] octets) ∧
      u.ports[p].slip.nextNo = f.number + 1 ∧
      (t.ports[p].framer.aligned = true → t.ports[p].line.los = false → framingLost t.ports[p] octets = false →
        u.ports[p].slip.waiting.getLast? = some f ∧
        u.ports[p].slip.waiting.length = min 5 (t.ports[p].slip.waiting.length + 1) ∧
        (t.ports[p].framer.crcMf ≠ .searching → t.ports[p].framer.crcMf ≠ .fallback →
          u.ports[p].framer.frameNo = nextFrameNo t.ports[p].line.family t.ports[p].framer.frameNo)) ∧
      (t.ports[p].framer.aligned = false → t.ports[p].framer.casMf = false → t.ports[p].framer.rai = false →
        u.ports[p].framer = { t.ports[p].framer with
          hunt := (huntOn t.ports[p].line.family (frameBitList t.ports[p].line.family octets) t.ports[p].framer.hunt).1 } ∧
        u.ports[p].raw = t.ports[p].raw) ∧
      u.ports[p].line = { t.ports[p].line with
        win := t.ports[p].line.winAfter (frameBitList t.ports[p].line.family octets) } ∧
      (t.ports[p].line.tx = .follow → u.ports[p].tx = { t.ports[p].tx with follow := w.frame }) ∧
      u.ports[p].hinge = t.ports[p].hinge ∧
      (∀ q, q ≠ p → u.ports[q] = { t.ports[q] with
        tx := u.ports[q].tx, slip := { t.ports[q].slip with nextOut := u.ports[q].slip.nextOut } }) ∧
      (∀ q, q ≠ p → q ≠ partnerPort p → u.ports[q] = t.ports[q]) ∧
      (∀ g : PairId, u.pairs[g] = { t.pairs[g] with d := u.pairs[g].d, conf := u.pairs[g].conf }) ∧
      (∀ d, u.die d = { t.die d with inBits := (u.die d).inBits, inFirst := (u.die d).inFirst }) ∧
      u = { t with ports := u.ports, pairs := u.pairs, lda := u.lda, ldb := u.ldb, timers := u.timers, tally := u.tally }

/-! ### Patterns (10_pattern_engine) -/

/-- ANALYSER_SYNC and ANALYSER_SYNC_LOSS act in each engine where the transition is due (R277 to R279): the analyser enters SYNC with
its block begun afresh, or goes back to HUNT with a loss counted, and then takes the bits of the frame that waited for it. Where the
transition is not due, and in every other definition, nothing changes. -/
def Obligations.AnalyserTransitions : Prop :=
  ∀ (i : PatId) (s : State),
    (∃ u, exec (.analyserSync i) s = .next u ∧
      (∀ e, ((s.eng e).data.pats[i].ana.due = .sync →
          (u.eng e).data.pats[i] = feed (s.patDef i) (s.eng e).data.pats[i].ana.rest { (s.eng e).data.pats[i] with
            ana := { (s.eng e).data.pats[i].ana with inSync := true, blkBits := 0, blkErrs := 0, due := .none, rest := [] } }) ∧
        ((s.eng e).data.pats[i].ana.due ≠ .sync → (u.eng e).data.pats[i] = (s.eng e).data.pats[i]) ∧
        (∀ j, j ≠ i → (u.eng e).data.pats[j] = (s.eng e).data.pats[j])) ∧
      u = { s with
        engX := { s.engX with data := { s.engX.data with pats := u.engX.data.pats } }
        engY := { s.engY with data := { s.engY.data with pats := u.engY.data.pats } } }) ∧
    (∃ u, exec (.analyserSyncLoss i) s = .next u ∧
      (∀ e, ((s.eng e).data.pats[i].ana.due = .loss →
          (u.eng e).data.pats[i] = feed (s.patDef i) (s.eng e).data.pats[i].ana.rest { (s.eng e).data.pats[i] with
            ana := { (s.eng e).data.pats[i].ana with
              inSync := false, loaded := 0, correct := 0, blkBits := 0, blkErrs := 0, zeros := 0, due := .none, rest := [] }
            c := (s.eng e).data.pats[i].c.set 4 (sat32 (s.eng e).data.pats[i].c[4] 1) }) ∧
        ((s.eng e).data.pats[i].ana.due ≠ .loss → (u.eng e).data.pats[i] = (s.eng e).data.pats[i]) ∧
        (∀ j, j ≠ i → (u.eng e).data.pats[j] = (s.eng e).data.pats[j])) ∧
      u = { s with
        engX := { s.engX with data := { s.engX.data with pats := u.engX.data.pats } }
        engY := { s.engY with data := { s.engY.data with pats := u.engY.data.pats } } })

/-! ### Cells (08_slot_fabric) -/

/-- CELL_ARRIVAL with a HEC that fails: the cell is discarded and counted at its receiver, on the link it arrived over (R211); one lost
to an engine is evidence against that engine (R328). Nothing else changes. -/
def Obligations.HeaderErrors : Prop :=
  ∀ (r : Receiver) (l : LinkId) (hdr : BitVec 64) (payload : List Byte) (k : Tick) (s t : State), t = atTick k s →
    hecGood hdr = false → t.receives r = true →
    ∃ u, exec (.cellArrival r l hdr payload k) s = .next u ∧
      match r with
      | .line d e =>
        ((u.die d).links e)[l] = { ((t.die d).links e)[l] with hecDown := ((t.die d).links e)[l].hecDown + 1 } ∧
        (∀ m, m ≠ l → ((u.die d).links e)[m] = ((t.die d).links e)[m]) ∧
        (u.die d).links e.other = (t.die d).links e.other ∧
        u = t.setDie d (fun x => { x with linkX := (u.die d).linkX, linkY := (u.die d).linkY })
      | .engine e d =>
        ((u.die d).links e)[l] = { ((t.die d).links e)[l] with hecUp := ((t.die d).links e)[l].hecUp + 1 } ∧
        (∀ m, m ≠ l → ((u.die d).links e)[m] = ((t.die d).links e)[m]) ∧
        (u.die d).links e.other = (t.die d).links e.other ∧
        u = (t.setDie d (fun x => { x with linkX := (u.die d).linkX, linkY := (u.die d).linkY })).setCtl e
          (fun c => { c with lateNow := true })
      | .engineKeeper e =>
        u = (t.setEngTally e (fun x => { x with hecKeeper := x.hecKeeper + 1 })).setCtl e (fun c => { c with lateNow := true })
      | .keeper e => u = t.setEngTally e (fun x => { x with hecAtKeeper := x.hecAtKeeper + 1 })

/-- CELL_ARRIVAL of a circuit or packet cell with a good header: behind its flow it is late and counted alone; ahead of
it, it is held with its tick of arrival and nothing is released; in turn it is released with all that follows it
without a gap, and the flow expects the next number. RESEQUENCER_TIMEOUT releases the cells of a flow that have waited
32 ticks, with all of lower number (R215). -/
def Obligations.CellsResequenced : Prop :=
  (∀ (r : Receiver) (l : LinkId) (hdr : BitVec 64) (payload : List Byte) (k : Tick) (s t : State) (c : Cell) (f : FlowSt),
      t = atTick k s → t.receives r = true → hecGood hdr = true → c = cellOf hdr payload → (c.cls = .circuit ∨ c.cls = .packet) →
      f = flowFor (t.flowsAt r) c →
      (seqBelow c.seq f.next = true →
        exec (.cellArrival r l hdr payload k) s = .next (countSelect (recvEng r) .late 1 c t)) ∧
      (seqBelow c.seq f.next = false → c.seq ≠ f.next →
        exec (.cellArrival r l hdr payload k) s =
          .next (t.setFlows r (putFlow { f with held := insertHeld f.next ⟨c, t.now⟩ f.held } (t.flowsAt r)))) ∧
      (c.seq = f.next →
        ∃ u, exec (.cellArrival r l hdr payload k) s = .next u ∧
          flowFor (u.flowsAt r) c =
            { f with next := (drainHeld f.held (f.next + 1)).2.2, held := (drainHeld f.held (f.next + 1)).2.1 } ∧
          SameBytes t u ∧ u.tap = t.tap ∧ u.pos = t.pos)) ∧
  (∀ (r : Receiver) (w : Flow) (k : Tick) (s t : State), t = atTick k s →
      (∀ f, (t.flowsAt r).find? (fun x => x.flow == w) = some f →
        ∃ u, exec (.resequencerTimeout r w k) s = .next u ∧
          (u.flowsAt r).find? (fun x => x.flow == w) = some (f.expire t.now).flow ∧ SameBytes t u ∧ u.pos = t.pos) ∧
      ((t.flowsAt r).find? (fun x => x.flow == w) = none → exec (.resequencerTimeout r w k) s = .next t))

/-- LANE_LOCK_LOSS empties the link in both directions and takes it out of spraying; LINK_REGAINS_LOCK marks it locked, and it does
not spray before a turn boundary (R214). Nothing else changes. -/
def Obligations.LaneLock : Prop :=
  ∀ (d : LineDie) (e : Eng) (l : LinkId) (k : Tick) (s t : State), t = atTick k s →
    (∃ u, exec (.laneLockLoss d e l k) s = .next u ∧
      ((u.die d).links e)[l] = { ((t.die d).links e)[l] with locked := false, spraying := false, up := .idle, down := .idle } ∧
      (∀ m, m ≠ l → ((u.die d).links e)[m] = ((t.die d).links e)[m]) ∧
      (u.die d).links e.other = (t.die d).links e.other ∧
      u = t.setDie d (fun x => { x with linkX := (u.die d).linkX, linkY := (u.die d).linkY })) ∧
    (∃ u, exec (.linkRegainsLock d e l k) s = .next u ∧
      ((u.die d).links e)[l] = { ((t.die d).links e)[l] with locked := true } ∧
      (∀ m, m ≠ l → ((u.die d).links e)[m] = ((t.die d).links e)[m]) ∧
      (u.die d).links e.other = (t.die d).links e.other ∧
      u = t.setDie d (fun x => { x with linkX := (u.die d).linkX, linkY := (u.die d).linkY }))

/-- BEAT_RECEIVED with a good header brings the engine's claim and its tick to the line die, and a claim that differs from the wires
is noted for the tally; one whose header fails counts as missing, on its link (R314, R318). BEAT_TIMEOUT after 1024 ticks without a
beat takes the claim away, and sooner does nothing (R314). That the claim is compared with the wires when a beat arrives is the model's
inference (assumption 64). -/
def Obligations.Beats : Prop :=
  ∀ (d : LineDie) (e : Eng) (k : Tick) (s t : State), t = atTick k s →
    (∀ (l : LinkId) (hdr : BitVec 64) (payload : List Byte), t.receives (.line d e) = true →
      (hecGood hdr = true → (cellOf hdr payload).cls = .beat →
        ∃ u, exec (.beatReceived d e l hdr payload k) s = .next u ∧
          (u.die d).ofEng e = { (t.die d).ofEng e with
            beat := BitVec.ofNat 4 ((byteAt payload 0).toNat % 16), beatAt := t.now } ∧
          (u.die d).ofEng e.other = (t.die d).ofEng e.other ∧
          (u.eng e).tally = { (t.eng e).tally with
            disagreed := (t.eng e).tally.disagreed || (byteAt payload 0).toNat % 16 != (t.eng e).ctl.claim } ∧
          (u.eng e).ctl = (t.eng e).ctl ∧ (u.eng e).data = (t.eng e).data ∧ u.eng e.other = t.eng e.other ∧
          (∀ d', d' ≠ d → u.die d' = t.die d') ∧
          u = { t with lda := u.lda, ldb := u.ldb, engX := u.engX, engY := u.engY }) ∧
      (hecGood hdr = false →
        exec (.beatReceived d e l hdr payload k) s =
          .next (t.setDie d (fun x => x.setLink e l (fun y => { y with hecDown := y.hecDown + 1 }))))) ∧
    (((t.die d).ofEng e).beatAt + 1024 ≤ t.now →
      ∃ u, exec (.beatTimeout d e k) s = .next u ∧ (u.die d).ofEng e = { (t.die d).ofEng e with beat := 0 } ∧
        (u.die d).ofEng e.other = (t.die d).ofEng e.other ∧ effClaim u d e = 0 ∧ OnlyDie d t u) ∧
    (t.now < ((t.die d).ofEng e).beatAt + 1024 → exec (.beatTimeout d e k) s = .next t)

/-- An engine without power claims 0 at every latch (R29). -/
def Obligations.UnpoweredClaimsZero : Prop :=
  ∀ (s : State) (e : Eng), (s.eng e).ctl.powered = false → (s.eng e).ctl.claim = 0 ∧ ∀ d, effClaim s d e = 0

/-- RALLY_LAUNCH: at its tick a line die that works sends rally cell `r` of the present frame on its link `r` to every engine that
runs, due at the engine 4 ticks later (R319, R321); nothing goes to an engine that does not run, and nothing else changes. A line die
that does not work sends none. That the deadline is 4 ticks whatever the slice fit is the model's choice (assumption 61). -/
def Obligations.RallyLaunched : Prop :=
  ∀ (d : LineDie) (r : Fin 2) (s t : State), t = atTick (BitVec.ofNat 11 (rallyTick d r.val)) s →
    ((t.die d).works = true →
      ∃ u, exec (.rallyLaunch d r) s = .next u ∧
        (∀ e, (t.eng e).ctl.running = true →
          ({ die := d, r := r, eng := e, number := t.pos.frames, stage := .atEngine, due := t.now + 4 } : Rally) ∈ u.duplex.rallies ∧
          ((u.die d).links e)[r].up = ((t.die d).links e)[r].up.push linkSpan (rallyCell d r.val e t.pos.frames)) ∧
        (∀ e, (t.eng e).ctl.running = false → (u.die d).links e = (t.die d).links e) ∧
        (∀ y, y ∈ t.duplex.rallies → y ∈ u.duplex.rallies) ∧
        (∀ y, y ∈ u.duplex.rallies → y ∈ t.duplex.rallies ∨ (y.die = d ∧ y.r = r ∧ (t.eng y.eng).ctl.running = true)) ∧
        u = { t with lda := u.lda, ldb := u.ldb, duplex := { t.duplex with rallies := u.duplex.rallies } } ∧
        OnlyDie d t { u with duplex := t.duplex }) ∧
    ((t.die d).works = false → exec (.rallyLaunch d r) s = .next t)

/-- A rally cell past its deadline, and a report of a failure a line die holds, bring the engine to health 0 with the cause of
a rally failure, kept for the seam record if it holds incumbency (R309, R321, R323, R446); a cell that failed at its engine is still due at the line die that awaits it, and one that has not
returned there is held by it against the engine, whose claim there is then 0 (R321, R323). With no failure held, a report does
nothing. That the deadline at the line die is 4 ticks whatever the slice fit is the model's choice (assumption 61). -/
def Obligations.RallyFailures : Prop :=
  ∀ (d : LineDie) (e : Eng) (k : Tick) (s t : State), t = atTick k s →
    (∀ (r : Fin 2) (y : Rally), t.duplex.rallies.find? (fun y => y.eng == e && y.die == d && y.r == r && y.stage == .atEngine &&
        decide (y.due ≤ t.now)) = some y →
      ∃ u, exec (.rallyDeadline d r e .atEngine k) s = .next u ∧ (u.eng e).ctl.health = 0 ∧ (u.eng e).ctl.rallyFail = true ∧
        (0 < (t.eng e).ctl.health → (u.eng e).ctl.cause = 1) ∧
        u.duplex.rallies = { y with stage := .atDie, due := y.due + 4 } :: t.duplex.rallies.erase y ∧
        u.eng e.other = t.eng e.other ∧ (u.eng e).data = (t.eng e).data ∧
        u.duplex.fell = (if t.holds e = true ∧ 0 < (t.eng e).ctl.health then 1 else t.duplex.fell) ∧
        u = { t with
          engX := u.engX, engY := u.engY
          duplex := { t.duplex with rallies := u.duplex.rallies, fell := u.duplex.fell } }) ∧
    (∀ (r : Fin 2) (y : Rally), t.duplex.rallies.find? (fun y => y.eng == e && y.die == d && y.r == r && y.stage == .atDie &&
        decide (y.due ≤ t.now)) = some y →
      ∃ u, exec (.rallyDeadline d r e .atDie k) s = .next u ∧
        ((u.die (rallyReturn y.number y.r.val)).ofEng e).hold = true ∧
        effClaim u (rallyReturn y.number y.r.val) e = 0 ∧ u.duplex.rallies = t.duplex.rallies.erase y ∧
        OnlyDie (rallyReturn y.number y.r.val) t { u with duplex := t.duplex } ∧
        u.duplex = { t.duplex with rallies := u.duplex.rallies }) ∧
    (((t.die d).ofEng e).hold = true →
      ∃ u, exec (.rallyFailureReport d e k) s = .next u ∧ (u.eng e).ctl.health = 0 ∧ (u.eng e).ctl.rallyFail = true ∧
        (0 < (t.eng e).ctl.health → (u.eng e).ctl.cause = 1) ∧
        u.eng e.other = t.eng e.other ∧ (u.eng e).data = (t.eng e).data ∧
        u.duplex.fell = (if t.holds e = true ∧ 0 < (t.eng e).ctl.health then 1 else t.duplex.fell) ∧
        u = { t with engX := u.engX, engY := u.engY, duplex := { t.duplex with fell := u.duplex.fell } }) ∧
    (((t.die d).ofEng e).hold = false → exec (.rallyFailureReport d e k) s = .next t)

/-- LIFTED_FRAME at the access point of the partner port: where the carriage bits received end a frame, a frame of up to 256 octets
takes the next numbers of the die's packet cells, one for each 56 octets begun, and a longer one takes none (R210, R212, R237); of a
TIME the die keeps the tick at which its first bit was extracted (R372). Where they end none, and at another port, nothing changes. -/
def Obligations.LiftedFrame : Prop :=
  ∀ (p : Port) (bits : List Bool) (k : Tick) (s t : State), t = atTick k s →
    (t.partnerOn = true → p = t.fabric.port → accessOpen t.ports[p] = true →
      (∀ (octets : List Byte) (aborted : Bool), deframe ((t.die (dieOf p)).inBits ++ bits) = some (octets, aborted) →
        ∃ u, exec (.liftedFrame p bits k) s = .next u ∧
          (u.die (dieOf p)).packetSeq = (t.die (dieOf p)).packetSeq +
            (if 256 < octets.length then 0 else BitVec.ofNat 16 (cellsOfOctets octets.length)) ∧
          (octets.length = 24 → (byteAt octets 2).toNat / 16 = 3 →
            (u.die (dieOf p)).inStamp = (t.die (dieOf p)).inFirst) ∧
          u.ports = t.ports ∧ u.duplex = t.duplex ∧ SameBytes t u) ∧
      (deframe ((t.die (dieOf p)).inBits ++ bits) = none → exec (.liftedFrame p bits k) s = .next t)) ∧
    ((t.partnerOn = false ∨ p ≠ t.fabric.port) → exec (.liftedFrame p bits k) s = .next t)

/-! ### Line protection (09_line_protection) -/

/-- SELECTION_WORD_RECEIVED: the line die holds, for each running pair that it serves, the selection computed by the engine of higher
claim (R261). OFFSET_CONFIRMED of an offset that the lines show, within the limit of the framing, sets the differential delay and CONF;
CONFIRMATION_LOST clears CONF where the lines show no offset, or one that the limit does not admit, or the check has failed (R255,
R256). Otherwise nothing changes. -/
def Obligations.SelectionAndDelay : Prop :=
  (∀ (d : LineDie) (k : Tick) (s t : State), t = atTick k s →
      (t.selecting = true →
        ∃ u, exec (.selectionWordReceived d k) s = .next u ∧
          (∀ (g : PairId) (b : Bool), (g, b) ∈ (u.die d).words ↔
            (t.pairs[g].running = true ∧ dieOf (workPort g) = d ∧ (t.req (wordEng t) g).word = b)) ∧
          u = t.setDie d (fun x => { x with words := (u.die d).words })) ∧
      (t.selecting = false → exec (.selectionWordReceived d k) s = .next t)) ∧
  (∀ (s : State), (s.engY.ctl.claim < s.engX.ctl.claim → returnsWords s .ex = true → wordEng s = .ex) ∧
      (s.engX.ctl.claim < s.engY.ctl.claim → returnsWords s .ey = true → wordEng s = .ey)) ∧
  (∀ (g : PairId) (d : Int) (k : Tick) (s t : State), t = atTick k s → t.pairs[g].running = true →
      (confirmable t g d = true → showsOffset t g d = true →
        ∃ u, exec (.offsetConfirmed g d k) s = .next u ∧ u.pairs[g] = { t.pairs[g] with d := d, conf := true } ∧ OnlyPair g t u) ∧
      ((confirmable t g d = false ∨ showsOffset t g d = false) → exec (.offsetConfirmed g d k) s = .next t) ∧
      (showsLoss t g d = true →
        ∃ u, exec (.confirmationLost g d k) s = .next u ∧
          u.pairs[g] = { t.pairs[g] with d := if offsetSeen t g d then d else t.pairs[g].d, conf := false } ∧ OnlyPair g t u) ∧
      (showsLoss t g d = false → exec (.confirmationLost g d k) s = .next t))

/-- HOLD_OFF_EXPIRY makes a condition that has held throughout a request and cancels wait-to-restore, in each engine where the hold-off
has run out; the request in force there is then the highest, and the selection word follows it (R254, R257, R261). WTR_EXPIRY ends
wait-to-restore where it has run out (R259); that the request and the word follow with the next frame's decision, in which NR takes
over, is the model's inference (assumption 174). Other engines and other pairs stay as they were. -/
def Obligations.ProtectionTimers : Prop :=
  ∀ (g : PairId) (s : State), s.pairs[g].running = true →
    (∀ (l : PairLine) (c : FailCond),
      ∃ u, exec (.holdOffExpiry g l c) s = .next u ∧
        (∀ e, (holdOffDue s g l c e = true →
            ((u.req e g).hold l c).request = true ∧ ((u.req e g).hold l c).frames = ((s.req e g).hold l c).frames ∧
            (∀ l' c', (l', c') ≠ (l, c) → (u.req e g).hold l' c' = (s.req e g).hold l' c') ∧
            (u.req e g).wtr = none ∧ (u.req e g).req = (u.req e g).request s.pairs[g].command ∧
            (u.req e g).word = selects (s.prot g).revertive (u.req e g).req (s.req e g).word ∧
            (l = .protect → c = .sf → 9 ≤ (u.req e g).req)) ∧
          (holdOffDue s g l c e = false → u.req e g = s.req e g) ∧
          (∀ h, h ≠ g → u.req e h = s.req e h)) ∧
        u = { s with
          engX := { s.engX with data := { s.engX.data with reqs := u.engX.data.reqs } }
          engY := { s.engY with data := { s.engY.data with reqs := u.engY.data.reqs } } }) ∧
    (∃ u, exec (.wtrExpiry g) s = .next u ∧
      (∀ e, ((s.req e g).wtr = some 0 → u.req e g = { s.req e g with wtr := none }) ∧
        ((s.req e g).wtr ≠ some 0 → u.req e g = s.req e g) ∧ (∀ h, h ≠ g → u.req e h = s.req e h)) ∧
      u = { s with
        engX := { s.engX with data := { s.engX.data with reqs := u.engX.data.reqs } }
        engY := { s.engY with data := { s.engY.data with reqs := u.engY.data.reqs } } })

/-! ### The partner channel (14_partner_channel) -/

/-- MIRROR_RECEIVED and ACK_RECEIVED of valid frames (R367, R369, R376, R377): a MIRROR with the party's own SERIAL is to take
effect at the next turn boundary and is acknowledged, one with another SERIAL is acknowledged and flagged, and the party's own values
are to be in force again; an ACK of the
SEQ in hand clears the unacknowledged count and any other is counted as stale. A frame that is not valid is counted and
discarded. -/
def Obligations.MirrorAndAck : Prop :=
  ∀ (w : PartnerFrame) (k : Tick) (s t : State), t = atTick k s → t.partnerHears = true →
    (frameValid t .mirror w = true →
      ∃ u, exec (.mirrorReceived w k) s = .next u ∧ u.partner.state = 2 ∧ u.partner.sinceValid = 0 ∧
        (leField w.octets 5 4 = t.serial →
          u.partner.toForce = some (mirrorLevels w) ∧ u.partner.revert = false ∧ u.partner.ackDue = some (seqField w, false)) ∧
        (leField w.octets 5 4 ≠ t.serial →
          u.partner.toForce = none ∧ u.partner.ackDue = some (seqField w, true) ∧
          u.partner.revert = (t.partner.revert || t.partner.inForce.isSome) ∧ u.partner.status.getLsbD 3 = true) ∧
        u.partner.inForce = t.partner.inForce ∧ u.ptime.valid = satAdd 0xFFFF t.ptime.valid 1 ∧ OnlyPartner t u) ∧
    (frameValid t .mirror w = false →
      ∃ u, exec (.mirrorReceived w k) s = .next u ∧ u.partner.toForce = t.partner.toForce ∧ u.partner.ackDue = t.partner.ackDue ∧
        u.ptime = { t.ptime with discarded := satAdd 0xFFFF t.ptime.discarded 1 } ∧ OnlyPartner t u) ∧
    (frameValid t .ack w = true →
      ∃ u, exec (.ackReceived w k) s = .next u ∧ u.ptime.valid = satAdd 0xFFFF t.ptime.valid 1 ∧
        (seqField w = t.partner.seq → u.partner.unacked = 0 ∧ u.partner.state = 2 ∧ u.ptime.stale = t.ptime.stale) ∧
        (seqField w ≠ t.partner.seq → u.partner = t.partner ∧ u.ptime.stale = satAdd 0xFFFF t.ptime.stale 1) ∧
        OnlyPartner t u) ∧
    (frameValid t .ack w = false →
      ∃ u, exec (.ackReceived w k) s = .next u ∧ u.partner = t.partner ∧
        u.ptime = { t.ptime with discarded := satAdd 0xFFFF t.ptime.discarded 1 } ∧ OnlyPartner t u)

/-- TIME_RECEIVED of a valid TIME keeps its octets, its SEQ, and the tick and quality at which the line die extracted its first bit;
PARTNER_FRAME_SENT frees the line die for the next frame and keeps, of a TIME, its SEQ and the tick and quality at which its first bit
left (R370, R372, R373). -/
def Obligations.TimeExchange : Prop :=
  ∀ (k : Tick) (s t : State), t = atTick k s →
    (∀ w, t.partnerHears = true → frameValid t .time w = true →
      ∃ u, exec (.timeReceived w k) s = .next u ∧
        u.ptime = { t.ptime with
          valid := satAdd 0xFFFF t.ptime.valid 1, gotTime := stampKept (t.die (dieOf t.fabric.port)).inStamp (seqField w)
          gotOctets := (w.octets.drop 3).take 19 } ∧
        (t.partner.role = .peer → u.partner.state = 2 ∧ u.partner.sinceValid = 0) ∧
        (t.partner.role ≠ .peer → u.partner = t.partner) ∧ OnlyPartner t u) ∧
    (∀ o, t.partner.out = some o →
      ∃ u, exec (.partnerFrameSent k) s = .next u ∧ u.partner = { t.partner with out := none } ∧
        (o.type = Msg.time.code →
          u.ptime = { t.ptime with
            ownTime := stampKept (t.die (dieOf t.fabric.port)).outStamp (seqField ⟨o.octets, false⟩) }) ∧
        (o.type ≠ Msg.time.code → u.ptime = t.ptime) ∧ OnlyPartner t u) ∧
    (t.partner.out = none → exec (.partnerFrameSent k) s = .next t)

/-- PARTNER_LOST: a follower that has had no valid MIRROR for 136 turns takes its own values at the next turn boundary, and a
peer without a valid TIME or MEET for 750 turns is LOST (R380). Sooner, and for a leader, nothing changes. -/
def Obligations.PartnerIsLost : Prop :=
  ∀ s : State,
    (∀ b, s.partner.role = .follower b →
      (s.partner.state = 2 → 136 ≤ s.partner.sinceValid →
        ∃ u, exec .partnerLost s = .next u ∧ u.partner.state = 3 ∧ u.partner.revert = true ∧ u.partner.toForce = none ∧
          u = { s with partner := { s.partner with status := u.partner.status, revert := true, toForce := none } }) ∧
      ((s.partner.state ≠ 2 ∨ s.partner.sinceValid < 136) → exec .partnerLost s = .next s)) ∧
    (s.partner.role = .peer →
      ((s.partner.state = 1 ∨ s.partner.state = 2) → 750 ≤ s.partner.sinceValid →
        ∃ u, exec .partnerLost s = .next u ∧ u.partner.state = 3 ∧
          u = { s with partner := { s.partner with status := u.partner.status } }) ∧
      (s.partner.sinceValid < 750 → exec .partnerLost s = .next s)) ∧
    (s.partner.role = .leader → exec .partnerLost s = .next s)

/-- MEETING_INSTANT of a scheduled instant advances the schedule past it, and in the MAIN state, awake and counting, launches a MEET if
a frame can be launched now; after a failure of main power in DOZE it widens the window that is not held (R381, R473). MEET_RECEIVED
outside DOZE sets the schedule from the arrival unless the party launched a MEET of its own within the last half interval (R382); one
found in a listening window of DOZE ends the window, is counted, and makes the half width of the next 200 ms, or 50 ms where the
offset allows (R383, R384). Outside the window nothing is found. -/
def Obligations.MeetingSchedule : Prop :=
  ∀ (a : Nat) (s : State),
    (s.partnerOn = true → s.fabric.meet ≠ 0 →
      (∀ n : Nat, a = s.ptime.nextMeet + n * s.meetPeriods →
        ∃ u, exec (.meetingInstant a) s = .next u ∧ u.ptime.meetCount = s.ptime.meetCount + BitVec.ofNat 32 (n + 1) ∧
          u.ptime.nextMeet = a + s.meetPeriods ∧
          (s.keeper.power = .main → s.keeper.dozing = true → u.partner = s.partner) ∧
          (s.keeper.power = .main → s.keeper.dozing = false → s.time.counting = true → s.canLaunch = true →
            (∃ f, u.partner.out = some ⟨Msg.meet.code, f⟩) ∧ u.ptime.lastMeet = some a ∧
            u.ptime.launched = satAdd 0xFFFF s.ptime.launched 1) ∧
          (s.keeper.power ≠ .main → u.partner = s.partner ∧
            u.ptime.window = if s.ptime.skipping then s.ptime.window.wider else s.ptime.window) ∧
          u = { s with partner := u.partner, ptime := u.ptime, freeIdx := u.freeIdx, engX := u.engX, engY := u.engY } ∧
          (∀ e, u.eng e = { s.eng e with data := { (s.eng e).data with fromKeeper := (u.eng e).data.fromKeeper } })) ∧
      ((∀ n : Nat, a ≠ s.ptime.nextMeet + n * s.meetPeriods) → exec (.meetingInstant a) s = .next s)) ∧
    (∀ (w : PartnerFrame) (k : Tick) (t : State), t = atTick k s → t.partnerOn = true → frameValid t .meet w = true →
      (t.keeper.dozing = false →
        ∃ u, exec (.meetReceived w a k) s = .next u ∧ u.ptime.valid = satAdd 0xFFFF t.ptime.valid 1 ∧
          (launchedLately t a = false → u.ptime.nextMeet = a + t.meetPeriods ∧ u.ptime.offset = meetOffset t a) ∧
          (launchedLately t a = true → u.ptime.nextMeet = t.ptime.nextMeet ∧ u.ptime.offset = t.ptime.offset) ∧
          OnlyPartner t u) ∧
      (t.keeper.dozing = true → t.inWindow a = true →
        ∃ u, exec (.meetReceived w a k) s = .next u ∧ u.ptime.listening = false ∧ u.ptime.meets = satAdd 0xFFFF t.ptime.meets 1 ∧
          u.ptime.window = (if (meetOffset t a).natAbs ≤ Window.narrow.half then .narrow else .middle) ∧
          (launchedLately t a = false → u.ptime.nextMeet = a + t.meetPeriods ∧ u.ptime.offset = meetOffset t a) ∧
          (u.die (dieOf t.fabric.port)).powered = false ∧ u.ports[t.fabric.port].line.running = false ∧
          (∀ q, q ≠ t.fabric.port → u.ports[q] = t.ports[q])) ∧
      (t.keeper.dozing = true → t.inWindow a = false → exec (.meetReceived w a k) s = .next t))

/-- In DOZE, LISTENING_WINDOW_OPEN half a window before a meeting instant powers the line die and the receiver of the partner port, its
termination as it was, and LISTENING_WINDOW_END half a window past the instant, with nothing found, stops them, counts an empty window
and widens the next; after the widest the party gives up with DRIFT and its alarm (R383 to R385). At other instants, and without a
window open, neither changes anything. -/
def Obligations.ListeningWindows : Prop :=
  ∀ (a : Nat) (s : State),
    (s.partnerOn = true → s.fabric.meet ≠ 0 → s.keeper.dozing = true → s.keeper.power = .main → s.ptime.deaf = false →
      s.ptime.listening = false → s.windowDue a = true →
      ∃ u, exec (.listeningWindowOpen a) s = .next u ∧
        u.ptime = { s.ptime with listening := true, windowAt := s.ptime.nextMeet } ∧
        (u.die (dieOf s.fabric.port)) = { s.die (dieOf s.fabric.port) with powered := true } ∧
        (∀ d, d ≠ dieOf s.fabric.port → u.die d = s.die d) ∧
        u.ports[s.fabric.port].line = { s.ports[s.fabric.port].line with
          running := true, los := false, ais := false, win := .reset } ∧
        u.ports[s.fabric.port].framer.aligned = false ∧ (∀ q, q ≠ s.fabric.port → u.ports[q] = s.ports[q]) ∧
        u = { s with lda := u.lda, ldb := u.ldb, ports := u.ports, ptime := u.ptime }) ∧
    (s.windowDue a = false → exec (.listeningWindowOpen a) s = .next s) ∧
    (s.ptime.listening = true → s.ptime.windowAt + s.ptime.window.half ≤ a →
      ∃ u, exec (.listeningWindowEnd a) s = .next u ∧ u.ptime.listening = false ∧
        u.ptime.empty = satAdd 0xFFFF s.ptime.empty 1 ∧ u.ptime.window = s.ptime.window.wider ∧
        (u.die (dieOf s.fabric.port)) = { s.die (dieOf s.fabric.port) with powered := false } ∧
        (∀ d, d ≠ dieOf s.fabric.port → u.die d = s.die d) ∧ u.ports[s.fabric.port].line.running = false ∧
        u.ports[s.fabric.port].hinge = s.ports[s.fabric.port].hinge ∧ (∀ q, q ≠ s.fabric.port → u.ports[q] = s.ports[q]) ∧
        (s.ptime.window = .wide → u.ptime.deaf = true ∧ u.partner.state = 3 ∧ u.partner.status.getLsbD 7 = true ∧
          u.alarm.on .drift = true) ∧
        (s.ptime.window ≠ .wide → u.partner = s.partner ∧ u.alarm = s.alarm) ∧
        u = { s with
          lda := u.lda, ldb := u.ldb, ports := u.ports, ptime := u.ptime, partner := u.partner, alarm := u.alarm }) ∧
    ((s.ptime.listening = false ∨ a < s.ptime.windowAt + s.ptime.window.half) → exec (.listeningWindowEnd a) s = .next s)

/-! ### The duplicated engines (12_duplicate_engines) -/

/-- HEARTBEAT_WORD of the withdrawn engine, as it sent it, with its claim bit clear lets KP grant, and INCUMBENCY_GRANT then, or after
1024 ticks, gives incumbency to the other engine if it runs and to no one if it does not (R311). A word with the bit set, or that the
engine did not send, changes nothing, and under HALT nothing moves. -/
def Obligations.IncumbencyMoves : Prop :=
  ∀ (e : Eng) (since : Nat) (k : Tick) (s t : State), t = atTick k s → t.duplex.incumbency = .moving e since →
    (∀ claim : BitVec 4, (t.eng e).ctl.running = true → claim.toNat = (t.eng e).ctl.word → claim.getLsbD 0 = false →
      exec (.heartbeatWord e claim k) s = .next { t with duplex := { t.duplex with clearSeen := true } }) ∧
    (∀ claim : BitVec 4, (claim.getLsbD 0 = true ∨ claim.toNat ≠ (t.eng e).ctl.word ∨ (t.eng e).ctl.running = false) →
      exec (.heartbeatWord e claim k) s = .next t) ∧
    (t.tap.halt = false → (t.duplex.clearSeen = true ∨ since + 1024 ≤ t.now) → (t.eng e.other).ctl.running = true →
      ∃ u, exec (.incumbencyGrant k) s = .next u ∧ u.duplex.incumbency = .held e.other ∧
        (u.eng e.other).ctl.incumbent = true ∧ (u.eng e.other).ctl.claim % 2 = 1 ∧ u.duplex.moved = true ∧
        u.capture.writer = some e.other ∧ u.ports = t.ports ∧ SameBytes t u) ∧
    (t.tap.halt = false → (t.duplex.clearSeen = true ∨ since + 1024 ≤ t.now) → (t.eng e.other).ctl.running = false →
      exec (.incumbencyGrant k) s = .next { t with duplex := { t.duplex with incumbency := .nobody } }) ∧
    ((t.tap.halt = true ∨ (t.duplex.clearSeen = false ∧ t.now < since + 1024)) → exec (.incumbencyGrant k) s = .next t)

/-- DIE_LOST: a lost line die has its sixteen ports released at once with their receivers stopped, and the alarm condition of
bit 4 holds (R357); a lost engine loses its power, claims 0 and is marked for a power cycle, and incumbency stays for KP to move where
the other engine runs (R312, R336). The die of another name, and every other port, stays as it was, but that a frame in transmission on
the partner channel is cut off where the port carried it. A die that is not powered, or lost already, changes nothing. In RIDE or LAST,
where it ends the releases, the keeper may return to MAIN (R454, R455). -/
def Obligations.DieLost : Prop :=
  ∀ (k : Tick) (s t : State), t = atTick k s →
    (∀ d,
      ((t.die d).powered = true → (t.die d).lost = false →
        ∃ u, exec (.dieLost (.line d) k) s = .next u ∧ (u.die d).lost = true ∧
          (∀ p : Port, dieOf p = d → u.ports[p].released ∧ u.ports[p].line.running = false) ∧
          (∀ p : Port, dieOf p ≠ d → u.ports[p] = t.ports[p]) ∧ u.alarm = t.alarm.raise t.now .dieLost ∧
          ChannelCut (t.setDie d (fun x => { x with lost := true, hbRun := 0, found := false })) u ∧
          (t.riding = false → u.keeper = t.keeper) ∧
          u = { t with
            lda := u.lda, ldb := u.ldb, ports := u.ports, alarm := u.alarm, partner := u.partner, keeper := u.keeper }) ∧
      (((t.die d).powered = false ∨ (t.die d).lost = true) → exec (.dieLost (.line d) k) s = .next (returnToMain t))) ∧
    (∀ e,
      ((t.eng e).ctl.powered = true →
        ∃ u, exec (.dieLost (.engine e) k) s = .next u ∧ (u.eng e).ctl.powered = false ∧ (u.eng e).ctl.claim = 0 ∧
          (u.eng e).ctl.lost = true ∧ (u.eng e).ctl.cause = 5 ∧ (u.eng e).tally.minHealth = 0 ∧
          u.eng e.other = t.eng e.other ∧
          ((t.eng e.other).ctl.running = true → u.duplex.incumbency = t.duplex.incumbency) ∧
          (∀ y, y ∈ u.duplex.rallies ↔ y ∈ t.duplex.rallies ∧ y.eng ≠ e) ∧
          u.duplex.fell = (if t.holds e then 5 else t.duplex.fell) ∧ (t.riding = false → u.keeper = t.keeper) ∧
          u = { t with
            engX := u.engX, engY := u.engY, keeper := u.keeper
            duplex := { t.duplex with incumbency := u.duplex.incumbency, rallies := u.duplex.rallies, fell := u.duplex.fell } }) ∧
      ((t.eng e).ctl.powered = false → exec (.dieLost (.engine e) k) s = .next (returnToMain t)))

/-! ### The loader (04_wosar_image) -/

/-- PAGE_LOAD_COMPLETE and ACTIVE_PAGE_RELOAD_DONE: when every engine that takes the load reports the page's CRC, a load for the
active memories puts the page in force, any other makes it the complete shadow page, and the line dies hold its V bits (R118, R223,
R471); a first failure is read again from the other copy while that copy is valid, and a load that fails with nothing more to try is
refused (R119). With no load in hand, or no reload to end, nothing changes. -/
def Obligations.PageLoads : Prop :=
  ∀ (x y : Option LoadReport) (k : Tick) (l : Load),
    (∀ s t, t = atTick k s → t.image.load = some l → allGood t l x y = true →
      ∃ u, exec (.pageLoadComplete x y k) s = .next u ∧ u.image.load = none ∧ u.image.flash = t.image.flash ∧
        (t.image.refused = some l.page → u.image.refused = none) ∧
        (∀ e, takesLoad t e = true →
          (l.toActive = true → (u.eng e).data.active = l.page ∧ (u.eng e).data.activeCopy = l.copy ∧
            (u.eng e).data.activeOk = true) ∧
          (l.toActive = false → (u.eng e).data.shadow = .complete l.page l.copy true ∧
            (u.eng e).data.active = (t.eng e).data.active)) ∧
        (∀ e, takesLoad t e = false → u.eng e = t.eng e) ∧
        (∀ d, (t.die d).works = true → (l.page, l.copy) ∈ (u.die d).vPages) ∧ u.ports = t.ports) ∧
    (∀ s t, t = atTick k s → t.image.load = some l → allGood t l x y = false →
      (l.second = false → t.image.valid l.copy.other = true →
        ∃ u, exec (.pageLoadComplete x y k) s = .next u ∧
          u.image.load = some { l with copy := l.copy.other, second := true } ∧ u.image.status.getLsbD 4 = true ∧
          u = { t with image := { t.image with load := u.image.load, status := u.image.status } }) ∧
      ((l.second = true ∨ t.image.valid l.copy.other = false) → t.keeper.reloading = false →
        ∃ u, exec (.pageLoadComplete x y k) s = .next u ∧ u.image.load = none ∧ u.image.refused = some l.page ∧
          u.image.status.getLsbD 5 = true ∧ u.alarm.on .image = true ∧
          (∀ e, (u.eng e).data.active = (t.eng e).data.active ∧ (takesLoad t e = true → (u.eng e).data.shadow = .empty)) ∧
          u.ports = t.ports)) ∧
    (∀ s t, t = atTick k s → t.image.load = none → exec (.pageLoadComplete x y k) s = .next t) ∧
    (∀ s, s.keeper.reloading = true → s.image.load = some l → l.toActive = true → allGood s l x y = true →
      ∃ u, exec (.activePageReloadDone x y) s = .next u ∧ u.keeper.reloading = false ∧ u.image.load = none ∧
        ∀ e, takesLoad s e = true → (u.eng e).data.active = l.page ∧ (u.eng e).data.activeOk = true) ∧
    (∀ s, s.keeper.reloading = false → exec (.activePageReloadDone x y) s = .next s)

/-! ### Keys and timers (03_keys_and_pins, 15_timers_capture) -/

/-- LIVE_KEY_SAMPLE in frame 31 keeps each key's level of the turn, none when its reading falls in no band or the range of its reader
changed, and its reader follows the pin (R58, R60, R65, R67, R69); in reset, before a start, and before the turn from which samples
count, the readers alone follow. In another frame nothing changes. -/
def Obligations.LiveKeysSampled : Prop :=
  ∀ (a b c d : KeyRaw) (s : State),
    (s.time.counting = true → s.keeper.dozing = false → s.pos.f = 31 →
      (s.pins.resetN = true → s.keeper.phase ≠ .waiting → s.keys.sampleFrom ≤ s.pos.t.toNat →
        ∃ u, exec (.liveKeySample a b c d) s = .next u ∧
          (∀ i : Fin 4, ∀ (m : Range) (r : KeyRaw), m = s.keys.ranges[i.val + 8] →
            r = (if i = 0 then a else if i = 1 then b else if i = 2 then c else d) →
            u.keys.live[i] = { s.keys.live[i] with
              newer := levelOfSample m r, ambNext := (levelOfSample m r).isNone } ∧
            u.keys.ranges[i.val + 8] = rangeAfter m r) ∧
          (∀ j : Fin 12, j.val < 8 → u.keys.ranges[j] = s.keys.ranges[j]) ∧
          u = { s with keys := { s.keys with live := u.keys.live, ranges := u.keys.ranges } }) ∧
      ((s.pins.resetN = false ∨ s.keeper.phase = .waiting ∨ s.pos.t.toNat < s.keys.sampleFrom) →
        ∃ u, exec (.liveKeySample a b c d) s = .next u ∧ u = { s with keys := { s.keys with ranges := u.keys.ranges } })) ∧
    ((s.time.counting = false ∨ s.keeper.dozing = true ∨ s.pos.f ≠ 31) → exec (.liveKeySample a b c d) s = .next s)

/-- TIMER_MATCH: an armed timer whose counter has reached its compare value matches; without reload it disarms with OUT at 1,
with reload the compare value is subtracted and OUT toggles, and the event is stamped and flagged (R393, R396). The timers
it clocks may count; nothing else changes but the alarm's pulse and the turn's timer flag. A timer that does not match stays as it
was. -/
def Obligations.TimerMatches : Prop :=
  ∀ (i : TimerId) (k : Tick) (s t : State), t = atTick k s →
    (t.matches_ i = true → ((t.preset i).src ≠ 3 ∨ (t.preset i).arg ≠ i.val) →
      ∃ u, exec (.timerMatch i k) s = .next u ∧
        u.timers[i].match_ = true ∧ u.timers[i].ovf = t.timers[i].ovf ∧ u.timers[i].stamp = t.stamp ∧
        u.timers[i].qual = t.qual ∧ u.timers[i].events = sat16 t.timers[i].events 1 ∧
        u.timers[i].pending = (t.timers[i].pending || (t.preset i).action != 0) ∧
        ((t.preset i).reload = false →
          u.timers[i].armed = false ∧ u.timers[i].out = true ∧ u.timers[i].counter = t.timers[i].counter) ∧
        ((t.preset i).reload = true →
          u.timers[i].armed = t.timers[i].armed ∧ u.timers[i].out = !t.timers[i].out ∧
          u.timers[i].value = t.timers[i].value - t.compareOf i ∧
          (t.timers[i].due = 0 →
            u.timers[i].counter = BitVec.ofNat 32 (t.timers[i].counter.toNat - t.compareOf i))) ∧
        ((t.preset i).pulse = true → u.alarm.pulseEnd = some (t.now + 1024)) ∧
        ((t.preset i).pulse = false → u.alarm = t.alarm) ∧
        u = { t with timers := u.timers, alarm := { t.alarm with pulseEnd := u.alarm.pulseEnd }
                     tally := { t.tally with timerTurn := true } }) ∧
    (t.matches_ i = false → exec (.timerMatch i k) s = .next t)

/-- A counter at 0xFFFF_FFFF that counts once more becomes 0 and owes an overflow, but for an armed reloading timer, whose matches come
first and take its compare value from all it has counted (R393); TIMER_OVERFLOW re-arms the timer, leaves OUT unchanged and sets the
overflow flag (R394, R396). With no overflow owed nothing changes. -/
def Obligations.TimerOverflows : Prop :=
  (∀ (t : Timer) (reload : Bool), t.counter = 0xFFFFFFFF → (reload = false ∨ t.armed = false) →
    (t.add reload 1).counter = 0 ∧ (t.add reload 1).wrapped = true) ∧
  (∀ (t : Timer) (n : Nat), t.armed = true → (t.add true n).value = t.value + n ∧ (t.add true n).wrapped = t.wrapped) ∧
  ∀ (i : TimerId) (k : Tick) (s t : State), t = atTick k s →
    (t.timers[i].wrapped = true → t.frozen i = false → ((t.preset i).src ≠ 3 ∨ (t.preset i).arg ≠ i.val) →
      ∃ u, exec (.timerOverflow i k) s = .next u ∧ u.timers[i].armed = true ∧ u.timers[i].out = t.timers[i].out ∧
        u.timers[i].counter = t.timers[i].counter ∧ u.timers[i].wrapped = false ∧ u.timers[i].ovf = true ∧
        u.timers[i].match_ = t.timers[i].match_ ∧ u.timers[i].stamp = t.stamp ∧
        u.timers[i].events = sat16 t.timers[i].events 1 ∧
        u = { t with timers := u.timers, alarm := { t.alarm with pulseEnd := u.alarm.pulseEnd }
                     tally := { t.tally with timerTurn := true } }) ∧
    (t.timers[i].wrapped = false → exec (.timerOverflow i k) s = .next t)

/-- ALARM_PULSE_END and ALARM_CONDITION_MINIMUM_END end what is over at their tick; ALARM_N is then called low only for another
cause (R398). Before its tick, and with nothing to end, neither has an effect. -/
def Obligations.AlarmEnds : Prop :=
  ∀ (k : Tick) (s t : State), t = atTick k s →
    (∀ n, t.alarm.pulseEnd = some n →
      (n ≤ t.now → ∃ u, exec (.alarmPulseEnd k) s = .next u ∧
        u.alarm.low u.now = (t.alarm.holds != 0 || t.alarm.minEnd.any (fun m => decide (t.now < m))) ∧
        u = { t with alarm := { t.alarm with pulseEnd := none } }) ∧
      (t.now < n → t.alarm.low t.now = true ∧ exec (.alarmPulseEnd k) s = .next t)) ∧
    (∀ n, t.alarm.minEnd = some n →
      (n ≤ t.now → ∃ u, exec (.alarmConditionMinimumEnd k) s = .next u ∧
        u.alarm.low u.now = (t.alarm.holds != 0 || t.alarm.pulseEnd.any (fun m => decide (t.now < m))) ∧
        u = { t with alarm := { t.alarm with minEnd := none } }) ∧
      (t.now < n → t.alarm.low t.now = true ∧ exec (.alarmConditionMinimumEnd k) s = .next t)) ∧
    (t.alarm.pulseEnd = none → exec (.alarmPulseEnd k) s = .next t) ∧
    (t.alarm.minEnd = none → exec (.alarmConditionMinimumEnd k) s = .next t)

/-! ### Matrix, lending and the tally (16_matrix_memories_tally) -/

/-- MATRIX_REQUEST of a master within its bounds: refused and counted when no window decodes it, a refused read giving zeros (R96,
R409); else it joins those that wait on its target (R413). Of these a target with a burst in progress, one that is lent, and one that a
lend has just given back grant none, and a free one grants the first in order among the masters that hold no burst elsewhere, if there
is one (R410, R413, R416). A request that finds the idle target parked on its master takes no grant cycle (R411); every other grant
takes 2 CCLK beside what its request has waited. The standby's capture writer never requests. While KP drives no memory balls nothing
happens. What a grant adds to WAIT, what stops bursts, and the register that takes a refused read's zeros are the model's (assumptions
86, 105 and 113). -/
def Obligations.MatrixRequests : Prop :=
  (∀ (q r : BurstReq) (k : Tick) (s t t1 : State), t = atTick k s → t1 = inHand q t →
    (t.runsBursts = true → asMade t1 q = some r →
      (∀ e, writerOf r.master = some e → t.activeEng = some e) → fnMaster r.fn r.master = true → 0 < r.len →
      r.len ≤ longest r.master →
      (decodes t r = none →
        ∃ u, exec (.matrixRequest q k) s = .next u ∧
          u.matrix.masters[masterNum r.master] = { t.matrix.masters[masterNum r.master] with
            refused := satAdd 0xFFFF t.matrix.masters[masterNum r.master].refused 1 } ∧
          (r.write = false → u.matrix.readBack = zeros r.len) ∧ (∀ x, u.matrix.target x = t.matrix.target x) ∧ SameBytes t u ∧
          u = { t1 with matrix := u.matrix }) ∧
      (∀ (tg : Target) (a : Nat) (w : BurstReq × Nat) (m : Matrix), decodes t r = some (tg, a) →
        w = ({ r with bytes := fitTo r.len r.bytes }, t.now) →
        m = t.matrix.setTarget tg (fun x => { x with waiting := x.waiting ++ [w] }) →
        (nextGrant t.now m tg = some w → (t.matrix.target tg).parked = r.master →
          ∃ u, exec (.matrixRequest q k) s = .next u ∧ u.matrix = doGrant t.now 0 tg w m ∧ SameBytes t u ∧
            u = { countMade r t1 with matrix := u.matrix }) ∧
        ((∀ x, x ≠ tg → (t.matrix.target x).waiting = []) →
          (∀ v, nextGrant t.now m tg = some v → (v ≠ w ∨ (t.matrix.target tg).parked ≠ r.master) →
            ∃ u, exec (.matrixRequest q k) s = .next u ∧ u.matrix = doGrant t.now 2 tg v m ∧ SameBytes t u ∧
              u = { countMade r t1 with matrix := u.matrix }) ∧
          (nextGrant t.now m tg = none →
            exec (.matrixRequest q k) s = .next { countMade r t1 with matrix := m })))) ∧
    (∀ e, writerOf q.master = some e → t.activeEng ≠ some e → exec (.matrixRequest q k) s = .next t) ∧
    (t.runsBursts = false → exec (.matrixRequest q k) s = .next t)) ∧
  (∀ (now : Nat) (m : Matrix) (tg : Target),
    (((m.target tg).busy ≠ none ∨ m.lent tg = true ∨ now < m.openAt tg) → nextGrant now m tg = none) ∧
    ((∀ w ∈ (m.target tg).waiting, m.holding w.1.master = true) → nextGrant now m tg = none) ∧
    (∀ w, nextGrant now m tg = some w → w ∈ (m.target tg).waiting ∧ m.holding w.1.master = false ∧
      ∀ v ∈ (m.target tg).waiting, m.holding v.1.master = false → rank w.1.master ≤ rank v.1.master) ∧
    ((m.target tg).busy = none → m.lent tg = false → m.openAt tg ≤ now →
      (∃ w ∈ (m.target tg).waiting, m.holding w.1.master = false) → (nextGrant now m tg).isSome = true)) ∧
  ∀ (now cost : Nat) (tg : Target) (w : BurstReq × Nat) (m u : Matrix), u = doGrant now cost tg w m →
    (u.target tg).busy = some w.1 ∧ (u.target tg).waiting = (m.target tg).waiting.erase w ∧
      (tg = .psram → (u.target tg).parked = w.1.master) ∧ (∀ x, x ≠ tg → u.target x = m.target x) ∧
      u.masters[masterNum w.1.master] = { m.masters[masterNum w.1.master] with
        grants := satAdd 0xFFFF m.masters[masterNum w.1.master].grants 1
        wait := satAdd 0xFFFFFFFF m.masters[masterNum w.1.master].wait ((now - w.2) * 16 + cost) } ∧
      ∀ i, i ≠ masterNum w.1.master → u.masters[i] = m.masters[i]

/-- BURST_COMPLETE: the burst in progress has written its bytes from the target address that the deciding window gives its matrix
address on, and every other byte of every memory is as it was; a read has returned the bytes there (R95, R96, R409, R410). The burst
with a capture record's commit word makes it the last one written: its number counts on, the next record follows it, from offset 0
after a wrap record, and KP keeps a copy of the word (R420, R444, R445). A burst that no window decodes any more ends with no effect on
any memory; without a burst in progress nothing changes. The register that takes what a read returns is the model's (assumption 113). -/
def Obligations.BurstStores : Prop :=
  ∀ (tg : Target) (k : Tick) (s t : State), t = atTick k s →
    (∀ q x b, (t.matrix.target tg).busy = some q → decodes t q = some (x, b) →
      ∃ u, exec (.burstComplete tg k) s = .next u ∧
        (q.write = true → tg ≠ .flash → Canonical t →
          ∀ i, i < q.bytes.length → u.byteOf tg (b + i) = byteAt q.bytes i) ∧
        (∀ a, (q.write = false ∨ a < b ∨ b + q.bytes.length ≤ a) → u.byteOf tg a = t.byteOf tg a) ∧
        (∀ x a, x ≠ tg → u.byteOf x a = t.byteOf x a) ∧
        (q.write = false → u.matrix.readBack = t.readTarget tg b q.len) ∧
        ((q.write = false ∨ q.commit = false) → u.capture = t.capture ∧ u.tally = t.tally) ∧
        (q.write = true → q.commit = true → q.fn = .captureRing → u.tally = t.tally ∧
          (t.capture.hand = none → u.capture = t.capture) ∧
          ∀ o r, t.capture.hand = some (o, r) →
            u.capture.seq = BitVec.ofNat 32 (leNat q.bytes) ∧ u.capture.hand = none ∧ u.capture.made = 0 ∧
            u.capture.offset = (if recordKind r = 3 then 0 else o + r.length) ∧
            u.capture.lastCommit = some (b, BitVec.ofNat 32 (leNat q.bytes)) ∧ u.capture.waiting = t.capture.waiting) ∧
        (q.fn ≠ .captureRing → u.capture = t.capture) ∧
        u = { t with matrix := u.matrix, capture := u.capture, tally := u.tally }) ∧
    (∀ q, (t.matrix.target tg).busy = some q → decodes t q = none →
      ∃ u, exec (.burstComplete tg k) s = .next u ∧ SameBytes t u ∧ u.matrix.readBack = t.matrix.readBack ∧
        u = { t with matrix := u.matrix }) ∧
    ((t.matrix.target tg).busy = none → exec (.burstComplete tg k) s = .next t)

/-- TALLY_COMMIT while the FRAM is free for the dump engine: the rest of the record in writing, its body first and TAIL_SEQ last in a
burst of its own, stands in slot (its number mod the slots) of the tally ring, and every other byte of every memory is as it was; its
number is the last committed (R421, R423). While another burst holds the FRAM, while it is lent, and while KP drives no memory balls,
nothing is committed. That body bursts not requested before go with the commit is the model's choice (assumption 180). -/
def Obligations.RecordCommitted : Prop :=
  ∀ (k : Tick) (s t : State), t = atTick k s →
    (∀ (r : Record) (w : Win) (o a : Nat), ringFree t = true → (t.matrix.target .fram).waiting = [] → t.tally.writing = some r →
      ringWindow t.image = some w → o = r.bytes.length * (r.seq.toNat % (w.size / r.bytes.length)) → a = w.toff + o →
      (∀ q : BurstReq, q.master = .dump → q.fn = .tallyRing → q.write = true → 0 < q.len → o ≤ q.offset →
        q.offset + q.len ≤ o + r.bytes.length → decodes t q = some (.fram, a + (q.offset - o))) →
      t.tally.made + 4 ≤ r.bytes.length →
      ∃ u, exec (.tallyCommit k) s = .next u ∧ u.tally.committed = r.seq ∧ u.tally.commitTurn = true ∧
        u.tally.lastCommit = some (a + r.bytes.length - 4, r.seq) ∧
        (Canonical t → ∀ i, t.tally.made ≤ i → i < r.bytes.length → u.byteOf .fram (a + i) = byteAt r.bytes i) ∧
        (∀ b, (b < a + t.tally.made ∨ a + r.bytes.length ≤ b) → u.byteOf .fram b = t.byteOf .fram b) ∧
        (∀ x b, x ≠ .fram → u.byteOf x b = t.byteOf x b) ∧
        (t.tally.buffer = [] → u.tally.writing = none) ∧ u = { t with matrix := u.matrix, tally := u.tally }) ∧
    ((t.runsBursts = false ∨ (t.matrix.target .fram).busy ≠ none ∨ t.matrix.lent .fram = true) →
      exec (.tallyCommit k) s = .next t)

/-- LEND_REQUEST, while KP drives the memory balls, is recognised when a lendable window of the set in use lies on the target, and
counted and ignored when none does; while it does not, the memory is the host's (R417, R508). A request that is high already changes
nothing. The balls of a memory with no burst in progress go high-impedance at once; LEND_GRANT gives the memory to the host once they
have been so for a tick, and not before (R416, R489). -/
def Obligations.LendBegins : Prop :=
  ∀ (l : LendTarget) (k : Tick) (s t : State), t = atTick k s →
    ((t.matrix.lend l).high = false →
      ((t.drivesBalls = false ∨ lendable t.image l = true) →
        ∃ u, exec (.lendRequest l k) s = .next u ∧
          u.matrix.lend l = { t.matrix.lend l with
            high := true, requested := true
            hiZ := if (t.matrix.lend l).granted = false ∧ (t.matrix.target (lendTarget l)).busy = none ∧ (t.matrix.lend l).hiZ = none
              then some t.now else (t.matrix.lend l).hiZ } ∧
          u.matrix.lent (lendTarget l) = true ∧
          (∀ x, x ≠ l → u.matrix.lend x = { t.matrix.lend x with hiZ := (u.matrix.lend x).hiZ }) ∧
          u = { t with matrix := { t.matrix with lendT := u.matrix.lendT, lendC := u.matrix.lendC } }) ∧
      (t.drivesBalls = true → lendable t.image l = false →
        exec (.lendRequest l k) s = .next { t with matrix := { t.matrix.setLend l (fun x => { x with high := true }) with
          ignored := satAdd 0xFFFF t.matrix.ignored 1 } })) ∧
    ((t.matrix.lend l).high = true → exec (.lendRequest l k) s = .next t) ∧
    ((t.matrix.lend l).requested = true → (t.matrix.lend l).granted = false →
      ((t.matrix.target (lendTarget l)).busy = none → t.floated l = true →
        ∃ u, exec (.lendGrant l k) s = .next u ∧
          u.matrix.lend l = { t.matrix.lend l with granted := true, lentNow := true } ∧
          u = { t with matrix := t.matrix.setLend l (fun _ => u.matrix.lend l) }) ∧
      (((t.matrix.target (lendTarget l)).busy ≠ none ∨ t.floated l = false) → exec (.lendGrant l k) s = .next t)) ∧
    (((t.matrix.lend l).requested = false ∨ (t.matrix.lend l).granted = true) → exec (.lendGrant l k) s = .next t)

/-- LEND_RELEASE: the lend is over and its check falls due; no burst is granted at once, and none on this memory before 32 ticks later; a
byte the host did not write is as it was, and one it wrote once is what it wrote; released before its grant, no memory changes and no
check falls due (R416, R420). LEND_CHECK then compares the last
commit word with KP's copy (R420), and does nothing when none is due. -/
def Obligations.LendEnds : Prop :=
  ∀ (l : LendTarget) (k : Tick) (s t : State), t = atTick k s →
    (∀ wrote : List (Nat × Byte),
      ((t.matrix.lend l).granted = true →
        ∃ u, exec (.lendRelease l wrote k) s = .next u ∧
          u.matrix.lend l = { t.matrix.lend l with
            high := false, requested := false, granted := false, checkDue := true, hiZ := none, openAt := t.now + 32 } ∧
          (∀ x, u.matrix.target x = t.matrix.target x) ∧
          (∀ a, (∀ w ∈ wrote, w.1 ≠ a) → u.byteOf (lendTarget l) a = t.byteOf (lendTarget l) a) ∧
          (Canonical t → (wrote.map (fun w => w.1)).Nodup → ∀ w ∈ wrote, w.1 < deviceBytes (lendTarget l) →
            u.byteOf (lendTarget l) w.1 = w.2) ∧
          (∀ x a, x ≠ lendTarget l → u.byteOf x a = t.byteOf x a) ∧ u = { t with matrix := u.matrix, tally := u.tally }) ∧
      ((t.matrix.lend l).granted = false →
        ∃ u, exec (.lendRelease l wrote k) s = .next u ∧
          u.matrix.lend l = { t.matrix.lend l with high := false, requested := false, hiZ := none } ∧ SameBytes t u ∧
          u = { t with matrix := u.matrix, tally := u.tally })) ∧
    ((t.matrix.lend l).checkDue = true → t.matrix.lent (lendTarget l) = false →
      ∃ u, exec (.lendCheck l k) s = .next u ∧ u.matrix.lend l = { t.matrix.lend l with checkDue := false } ∧
        (∀ win a w, t.lendWindow l = some win → t.lastCommit l = some (a, w) →
          u.matrix.disturbed.getLsbD (lendBit l) =
            (t.matrix.disturbed.getLsbD (lendBit l) || leNat (t.readTarget (lendTarget l) a 4) != w.toNat)) ∧
        (t.lendWindow l = none → u.matrix.disturbed = t.matrix.disturbed) ∧ SameBytes t u ∧
        u = { t with matrix := u.matrix }) ∧
    (((t.matrix.lend l).checkDue = false ∨ t.matrix.lent (lendTarget l) = true) → exec (.lendCheck l k) s = .next t)

/-! ### Reference and position (02_position_time) -/

/-- CANDIDATE_QUALIFIED and REFIN_QUALIFIED after 64 good frame boundaries, and before them nothing; REFERENCE_LOSS and
CANDIDATE_DISQUALIFIED (R34, R35, R48, R49): a lost reference leaves holdover when lock had held 252 turns and free-run otherwise;
nothing but the position engine changes. A disqualified present reference is lost (the model's reading: assumption 9). That the run of
good frames begins afresh where the DPLL reports a candidate outside its range, and that REFERENCE_LOSS comes with the first tick in
holdover, is the model's choice (assumptions 122 and 123). -/
def Obligations.ReferenceCandidates : Prop :=
  ∀ (k : Tick) (s t : State), t = atTick k s →
    (∀ p : Port, refNamed s.time.refLevel (.port p) = true → 64 ≤ s.time.goodFrames[p] → s.time.qualified[p] = false →
      ∃ u, exec (.candidateQualified p) s = .next u ∧
        (∀ q : Port, u.time.qualified[q] = if q = p then true else s.time.qualified[q]) ∧
        (∀ q : Port, q ≠ p → u.time.qualifiedFor[q] = s.time.qualifiedFor[q]) ∧
        u = { s with time := { s.time with qualified := u.time.qualified, qualifiedFor := u.time.qualifiedFor } }) ∧
    (∀ p : Port, (s.time.goodFrames[p] < 64 ∨ refNamed s.time.refLevel (.port p) = false) →
      exec (.candidateQualified p) s = .next s) ∧
    (refNamed s.time.refLevel .refin = true → s.time.counting = true → 64 ≤ s.time.refinFrames → s.time.refinQual = false →
      ∃ u, exec .refinQualified s = .next u ∧
        u = { s with time := { s.time with refinQual := true, refinFor := u.time.refinFor } }) ∧
    ((s.time.refinFrames < 64 ∨ refNamed s.time.refLevel .refin = false) → exec .refinQualified s = .next s) ∧
    (∀ c, t.time.counting = true → t.time.present = some c →
      ∃ u, exec (.referenceLoss k) s = .next u ∧ u.time.present = none ∧ u.time.switched = true ∧
        (t.time.holdCondition = true → u.time.mode = .holdover ∧ u.time.heldSum = t.time.heldNow) ∧
        (t.time.holdCondition = false → u.time.mode = .freeRun) ∧ u.time.qualified = t.time.qualified ∧
        u = { t with time := u.time }) ∧
    (t.time.present = none → exec (.referenceLoss k) s = .next t) ∧
    (∀ (p : Port) (o : Bool), t.time.counting = true →
      ((o = true ∨ sourceUp t.ports[p] = false) →
        ∃ u, exec (.candidateDisqualified (.port p) o k) s = .next u ∧ u.time.goodFrames[p] = 0 ∧
          (∀ q : Port, u.time.qualified[q] = if q = p then false else t.time.qualified[q]) ∧
          u.time.refinQual = t.time.refinQual ∧ (t.time.present = some (.port p) → u.time.present = none) ∧
          (t.time.present ≠ some (.port p) → u.time.present = t.time.present ∧ u.time.mode = t.time.mode) ∧
          u = { t with time := u.time }) ∧
      (o = false → sourceUp t.ports[p] = true → exec (.candidateDisqualified (.port p) o k) s = .next t)) ∧
    (∀ o : Bool, t.time.counting = true →
      ∃ u, exec (.candidateDisqualified .refin o k) s = .next u ∧ u.time.refinQual = false ∧ u.time.refinFrames = 0 ∧
        u.time.qualified = t.time.qualified ∧ (t.time.present = some .refin → u.time.present = none) ∧
        (t.time.present ≠ some .refin → u.time.present = t.time.present ∧ u.time.mode = t.time.mode) ∧
        u = { t with time := u.time })

/-- XIN_STOPPED while position is counted: counting stops at the tick that is in progress, every port is released at once, REST is
entered, READY is released, the reference candidates are disqualified and the alarm condition of bit 5 of ALARMS holds (R52, R357, R427,
R501); with counting stopped it changes nothing. COUNTING_RESUME in MAIN, out of DOZE and with no cold start waiting, continues at the
turn of R53 with its frame boundary due and EST set, in holdover or free-run where no candidate is qualified (R53, R54, R501, R502); while position is counted it changes nothing. -/
def Obligations.CountingStopsAndResumes : Prop :=
  (∀ (k : Tick) (s t : State), t = atTick k s →
    (t.time.counting = true →
      ∃ u, exec (.xinStopped k) s = .next u ∧ u.time.counting = false ∧ u.time.stopAt = t.now + 1 ∧ u.pos = t.pos ∧
        (∀ p : Port, u.ports[p].released ∧ u.time.qualified[p] = false) ∧ u.time.refinQual = false ∧ u.time.present = none ∧
        u.modes.mode = .rest ∧ u.pins.ready = false ∧ u.alarm.on .xin = true ∧ u.keeper.odometer = t.keeper.odometer ∧
        SameBytes t u) ∧
    (t.time.counting = false → exec (.xinStopped k) s = .next t)) ∧
  (∀ (n : Nat) (s : State),
    (s.time.counting = false → s.keeper.power = .main → s.keeper.dozing = false → s.keeper.coldWait = false →
      ∃ u, exec (.countingResume n) s = .next u ∧ u.time.counting = true ∧ u.time.est = true ∧
        u.pos = ⟨BitVec.ofNat 48 (resumeTurn s.time.stopAt n), 0, 0⟩ ∧ u.frameDue = true ∧
        (s.time.present = none → u.time.present = none →
          u.time.mode = if s.time.heldAtStop then .holdover else .freeRun) ∧
        u.alarm.on .xin = false ∧ u.keeper.odometer = s.keeper.odometer ∧ SameBytes s u) ∧
    (s.time.counting = true → exec (.countingResume n) s = .next s))

/-! ### RESET_N, DOZE and starts (05_modes, 17_keeper_power_startup) -/

/-- RESET_N_ASSERT while the machine runs in MAIN: every port is released at once, the engines lose power and claim 0, the
timers stand cleared with their flags and counts kept, REST holds, and position and counting go on (R31, R83, R388, R396); in RIDE, LAST
and DARK, and before a cold start, only the level changes (R472). That the mode is REST while RESET_N is low and that the timers' flags
and counts of events stay are the model's inferences (assumptions 25 and 82). -/
def Obligations.ResetAsserted : Prop :=
  ∀ (k : Tick) (s t : State), t = atTick k s →
    (t.keeper.power = .main → t.keeper.coldWait = false →
      ∃ u, exec (.resetNAssert k) s = .next u ∧ u.pins.resetN = false ∧ u.pins.ready = false ∧ u.alarmLow = false ∧
        (∀ p : Port, u.ports[p].released ∧ u.ports[p].framer.aligned = false) ∧
        (∀ e, (u.eng e).ctl.powered = false ∧ (u.eng e).ctl.claim = 0) ∧ u.modes.mode = .rest ∧
        (∀ i : TimerId, u.timers[i].counter = 0 ∧ u.timers[i].started = false ∧ u.timers[i].match_ = t.timers[i].match_ ∧
          u.timers[i].ovf = t.timers[i].ovf ∧ u.timers[i].events = t.timers[i].events) ∧
        u.pos = t.pos ∧ u.time.counting = t.time.counting ∧ u.keeper.odometer = t.keeper.odometer ∧ SameBytes t u) ∧
    ((t.keeper.power ≠ .main ∨ t.keeper.coldWait = true) →
      exec (.resetNAssert k) s = .next { t with pins := { t.pins with resetN := false } })

/-- DOZE (R148, R469 to R471): the request is the pin alone. DOZE_ENTRY, once the request stands after a completed start in MAIN out of
reset, while position is counted and every port is bypassed with nothing in progress, enters DOZE with the dies and engines off and
counting stopped, while every hinge stays as it is: at the boundary where the machine stands if the request had taken effect before it,
and at the end of the turn in progress otherwise. Where one of these is missing nothing changes. DOZE_WAKE lowers the pin, and in DOZE
sets POWER bit 4 and leaves position where it stopped. -/
def Obligations.DozeEnteredAndLeft : Prop :=
  (∀ (k : Tick) (s t : State), t = atTick k s →
    exec (.dozeRequest k) s = .next { t with pins := { t.pins with doze := true } }) ∧
  (∀ (o : TurnObs) (s : State),
    (s.pins.doze = true → s.keeper.phase = .done → s.keeper.power = .main → s.pins.resetN = true → s.time.counting = true →
      (∀ p : Port, s.ports[p].hinge.role = .bypassed ∧ s.ports[p].hinge.seq = .idle) →
      (s.frameDue = true → s.pos.f = 0 → s.pos.k = 0 → s.keeper.dozeReq = true) →
      ∃ u, exec (.dozeEntry o) s = .next u ∧ u.keeper.dozing = true ∧ u.time.counting = false ∧ u.pins.ready = false ∧
        (∀ e, (u.eng e).ctl.powered = false) ∧ (∀ d, (u.die d).powered = false) ∧
        (∀ p : Port, u.ports[p].hinge = s.ports[p].hinge) ∧ u.time.stopAt = u.now ∧
        u.pos = (if s.frameDue = true ∧ s.pos.f = 0 ∧ s.pos.k = 0 then s.pos else ⟨s.pos.t + 1, 0, 0⟩) ∧ SameBytes s u) ∧
    ((s.frameDue = true ∧ s.pos.f = 0 ∧ s.pos.k = 0 ∧ s.keeper.dozeReq = false) → exec (.dozeEntry o) s = .next s) ∧
    ((s.pins.doze = false ∨ s.keeper.phase ≠ .done ∨ s.keeper.power ≠ .main ∨ s.pins.resetN = false ∨ s.time.counting = false ∨
        (∃ p : Port, s.ports[p].hinge.role ≠ .bypassed ∨ s.ports[p].hinge.seq ≠ .idle)) →
      exec (.dozeEntry o) s = .next s)) ∧
  (∀ s : State,
    (s.keeper.dozing = true →
      ∃ u, exec .dozeWake s = .next u ∧ u.keeper.dozing = false ∧ u.pins.doze = false ∧
        u.keeper.events = setBit s.keeper.events 4 true ∧ u.pos = s.pos ∧ u.time = s.time ∧
        (∀ p : Port, u.ports[p].hinge = s.ports[p].hinge) ∧ SameBytes s u) ∧
    (s.keeper.dozing = false →
      exec .dozeWake s = .next { s with pins := { s.pins with doze := false }, keeper := { s.keeper with dozeReq := false } }))

/-- START_RECOGNISED, in MAIN with the rails in range, while KP waits for a start and position is counted or a cold start is to begin
counting: the dies leave reset, T0 is the first turn boundary at or after it, each boot key takes the level in which both its samples
fall, every port the family that the level of its group gives, and every live key is held (R66, R70, R74, R467). VALIDATION_COMPLETE of a
start under way: each copy is valid or not, the first valid copy in KEY_IMG's order is in use, and page 0 of it is loaded (R113 to
R116). Otherwise neither changes anything. That a start is recognised as a release of RESET_N and that the boot keys apply from
recognition on are the model's (assumptions 110 and 28), and so is that KP's reads of the flash come with recognition (assumption 29). -/
def Obligations.StartsAndValidation : Prop :=
  ∀ (k : Tick) (s t : State), t = atTick k s →
    (∀ o : StartObs,
      (t.keeper.phase = .waiting → t.keeper.power = .main → t.keeper.coreOk = true → t.keeper.vlineOk = true →
        (t.time.counting = true ∨ t.keeper.coldWait = true) →
        ∃ u, exec (.startRecognised o k) s = .next u ∧ u.keeper.phase = .validating ∧ u.keeper.t0 = startTurn t ∧
          u.pins.resetN = true ∧ u.time.counting = true ∧ u.pos = t.pos ∧
          (∀ (i : Fin 8) (m : Range), m = t.keys.ranges[i.val] → u.keys.boot[i] = bootLevel o m i) ∧
          (∀ p : Port, u.ports[p].line.family = bootFamily (groupLevel u p)) ∧
          (∀ i : Fin 4, u.keys.live[i].value = none) ∧
          u.image.sfdpOk = o.sfdpOk ∧ u.image.readA = o.readA ∧ u.image.readB = o.readB ∧
          (∀ d, (u.die d).powered = true) ∧ (∀ e, (u.eng e).ctl.powered = false) ∧ u.modes.mode = .rest ∧
          u.image.inUse = none ∧ u.capture.gate = true ∧ SameBytes t u) ∧
      ((t.keeper.phase ≠ .waiting ∨ t.keeper.power ≠ .main ∨ t.keeper.coreOk = false ∨ t.keeper.vlineOk = false ∨
          (t.time.counting = false ∧ t.keeper.coldWait = false)) → exec (.startRecognised o k) s = .next t)) ∧
    ((t.keeper.phase = .validating →
        ∃ u, exec (.validationComplete k) s = .next u ∧ u.keeper.phase = .validated ∧
          u.image.aValid = (t.image.sfdpOk && t.image.readA && copyValid t.image.flash .a) ∧
          u.image.bValid = (t.image.sfdpOk && t.image.readB && copyValid t.image.flash .b) ∧
          (∀ c, c = imgFirst (bootActing 5 t.keys.boot[(5 : Fin 8)]) →
            u.image.inUse = (if u.image.valid c then some c else if u.image.valid c.other then some c.other else none)) ∧
          (∀ c, u.image.inUse = some c → u.image.load = some ⟨0, c, false, true⟩) ∧ u.pos = t.pos ∧ u.timers = t.timers ∧
          u.modes = t.modes ∧ SameBytes t u) ∧
      (t.keeper.phase ≠ .validating → exec (.validationComplete k) s = .next t))

/-! ### Power (17_keeper_power_startup) -/

/-- MAIN_FAIL enters RIDE, or LAST when VCELL is below 2.2 V, and in RIDE or LAST only restarts the count of R455;
ENGINES_POWER_DOWN and LINE_DIES_POWER_DOWN remove the power of the engines and, with every port bypassed, of the line dies, where
counting stops at the end of the frame in progress; LAST_ENTRY begins the last-words write and LAST_WORDS_WRITE_DONE completes it (R427, R454, R457, R458, R461, R462). No
hinge is driven on by any of them and position does not leave its frame. -/
def Obligations.MainPowerFails : Prop :=
  ∀ (v n : Nat) (k : Tick) (s t : State), t = atTick k s →
    (t.keeper.power = .main →
      ∃ u, exec (.mainFail v n k) s = .next u ∧ u.words.vcell = v ∧ u.pins.ready = false ∧
        (2200 ≤ v → u.keeper.power = .ride ∧ u.words.rides = t.words.rides + 1 ∧ u.words.lasts = t.words.lasts ∧
          u.keeper.events.getLsbD 0 = true ∧ u.words.writing = t.words.writing) ∧
        (v < 2200 → u.keeper.power = .last ∧ u.words.lasts = t.words.lasts + 1 ∧ u.words.rides = t.words.rides ∧
          u.keeper.events.getLsbD 1 = true ∧ u.words.writing.isSome = true) ∧
        (∀ p : Port, u.ports[p].hinge.driven = t.ports[p].hinge.driven) ∧ u.pos = t.pos ∧ u.time = t.time ∧ SameBytes t u) ∧
    (t.keeper.power ≠ .main → exec (.mainFail v n k) s = .next { t with keeper := { t.keeper with stable := false } }) ∧
    (s.riding = true →
      (∃ u, exec .enginesPowerDown s = .next u ∧ (∀ e, (u.eng e).ctl.powered = false ∧ (u.eng e).ctl.claim = 0) ∧
        u.ports = s.ports ∧ u.pos = s.pos ∧ u.time = s.time ∧ u.keeper = s.keeper ∧ SameBytes s u) ∧
      (allBypassed s = true →
        ∀ o : TurnObs, ∃ u, exec (.lineDiesPowerDown o) s = .next u ∧ (∀ d, (u.die d).powered = false) ∧ u.time.counting = false ∧
          (s.time.counting = true → u.time.stopAt = frameEndTick s) ∧ (s.time.counting = false → u.pos = s.pos ∧ u.time = s.time) ∧
          (∀ p : Port, u.ports[p].hinge = s.ports[p].hinge ∧ u.ports[p].line.tx = .hiZ) ∧
          u.pos.t = s.pos.t ∧ u.pos.f = s.pos.f ∧ u.keeper = s.keeper ∧ SameBytes s u) ∧
      (allBypassed s = false → ∀ o : TurnObs, exec (.lineDiesPowerDown o) s = .next s)) ∧
    (s.riding = false → exec .enginesPowerDown s = .next s ∧ ∀ o : TurnObs, exec (.lineDiesPowerDown o) s = .next s) ∧
    (s.keeper.power = .ride →
      ∃ u, exec (.lastEntry n) s = .next u ∧ u.keeper.power = .last ∧ u.words.lasts = s.words.lasts + 1 ∧
        u.keeper.events.getLsbD 1 = true ∧ (∃ i l, u.words.writing = some (i, l) ∧ i = s.words.next.1) ∧
        u = { s with keeper := u.keeper, words := u.words }) ∧
    (s.keeper.power ≠ .ride → exec (.lastEntry n) s = .next s) ∧
    (∀ i l, s.words.writing = some (i, l) →
      ∃ u, exec .lastWordsWriteDone s = .next u ∧ u.words.slot i = l ∧ u.words.slot (!i) = s.words.slot (!i) ∧
        u.words.writing = none ∧ (s.keeper.stable = false → u.keeper = s.keeper) ∧
        u = { s with words := u.words, keeper := u.keeper }) ∧
    (s.words.writing = none → exec .lastWordsWriteDone s = .next s)

/-- DARK_ENTRY with the write complete and no release in progress, and VKEEP_COLLAPSES, which leaves the slot it was writing
bad: DARK keeps the flash, the FRAM and the last-words slots (R456, R462), and the PSRAM, which has its own supply, by the model's choice
(assumption 12). COLD_START takes the turn after the newest record
and has not begun to count; MAIN_STABLE is a warm start in MAIN, or the second half of a cold one, once neither a write nor a release is
in progress (R455, R463 to R466). -/
def Obligations.DarkAndBack : Prop :=
  ∀ s : State,
    (s.keeper.power = .last → s.words.writing = none → noRelease s = true →
      ∃ u, exec .darkEntry s = .next u ∧ u.keeper.power = .dark ∧ u.words.slot0 = s.words.slot0 ∧
        u.words.slot1 = s.words.slot1 ∧ u.time.counting = false ∧ (∀ p : Port, u.ports[p].released) ∧
        (∀ a, u.byteOf .flash a = s.byteOf .flash a ∧ u.byteOf .fram a = s.byteOf .fram a ∧
          u.byteOf .psram a = s.byteOf .psram a)) ∧
    (s.keeper.power ≠ .last ∨ s.words.writing ≠ none ∨ noRelease s = false → exec .darkEntry s = .next s) ∧
    (∃ u, exec .vkeepCollapses s = .next u ∧ u.keeper.power = .dark ∧ (∀ p : Port, u.ports[p].released) ∧
      (∀ i l, s.words.writing = some (i, l) →
        slotGood (u.words.slot i) = false ∧ u.words.slot (!i) = s.words.slot (!i)) ∧
      (s.words.writing = none → u.words.slot0 = s.words.slot0 ∧ u.words.slot1 = s.words.slot1) ∧
      ∀ a, u.byteOf .flash a = s.byteOf .flash a ∧ u.byteOf .fram a = s.byteOf .fram a ∧
        u.byteOf .psram a = s.byteOf .psram a) ∧
    (s.keeper.power = .dark →
      ∃ u, exec .coldStart s = .next u ∧ u.keeper.power = .main ∧ u.keeper.startKind = .cold ∧ u.time.counting = false ∧
        (∀ i, s.words.newest = some i →
          u.pos = ⟨BitVec.ofNat 48 (leField (s.words.slot i) 8 8 / 65536 + 1), 0, 0⟩ ∧
            u.keeper.odometer = BitVec.ofNat 64 (leField (s.words.slot i) 0x14 8) ∧ u.time.gap = true ∧ u.time.cold = false) ∧
        (s.words.newest = none → u.pos = ⟨0, 0, 0⟩ ∧ u.keeper.odometer = 0 ∧ u.time.gap = false ∧ u.time.cold = true) ∧
        u.keeper.events.getLsbD 3 = true ∧ u.ports = s.ports ∧ SameBytes s u) ∧
    (s.keeper.power ≠ .dark → exec .coldStart s = .next s) ∧
    (s.riding = true →
      (s.words.writing = none → noRelease s = true →
        ∃ u, exec .mainStable s = .next u ∧ u.keeper.power = .main ∧ u.keeper.phase = .waiting ∧
          u.keeper.startKind = (if s.keeper.coldDue then .cold else .warm) ∧ u.keeper.events.getLsbD 2 = true ∧
          u.keeper.odometer = s.keeper.odometer ∧ u = { s with keeper := u.keeper }) ∧
      ((s.words.writing ≠ none ∨ noRelease s = false) →
        exec .mainStable s = .next { s with keeper := { s.keeper with stable := true } }))

/-! ### The test access port (18_electrical_package) -/

/-- Each instruction of the test access port stands in its register by its code of R490; HALT_SET and HALT_CLR change HALT,
Test-Logic-Reset clears it and selects IDCODE, and a code no other instruction has is BYPASS (R490 to R492). SAMPLE/PRELOAD, and EXTEST
while RESET_N is low, capture the scanned balls and take the bits shifted in; BYPASS, and EXTEST while RESET_N is high, pass them through
one bit. Nothing else of the machine changes. EXTEST, HIGHZ and CLAMP drive the scanned balls only while RESET_N is low. -/
def Obligations.TestAccessPort : Prop :=
  ∀ (s : State),
    (∀ (bits seen : List Bool) (s1 : State), s1 = { s with tap := { s.tap with ir := 0b0000 } } →
      (s.pins.resetN = false → exec (.extest bits seen) s = .next { s1 with tap := { s1.tap with
        bsr := (captureBalls seen s1 ++ bits).drop bits.length, out := (captureBalls seen s1 ++ bits).take bits.length } }) ∧
      (s.pins.resetN = true → exec (.extest bits seen) s = .next { s1 with tap := { s1.tap with
        bypass := ((false :: bits).drop bits.length).headD false, out := (false :: bits).take bits.length } })) ∧
    (∀ (bits seen : List Bool) (s1 : State), s1 = { s with tap := { s.tap with ir := 0b0001 } } →
      exec (.samplePreload bits seen) s = .next { s1 with tap := { s1.tap with
        bsr := (captureBalls seen s1 ++ bits).drop bits.length, out := (captureBalls seen s1 ++ bits).take bits.length } }) ∧
    (∀ (bits seen : List Bool), (captureBalls seen s).length = 65 ∧
      ((captureBalls seen s ++ bits).drop bits.length).length = 65) ∧
    exec .idcode s = .next { s with tap := { s.tap with ir := 0b0010 } } ∧
    exec .highz s = .next { s with tap := { s.tap with ir := 0b0011 } } ∧
    exec .clamp s = .next { s with tap := { s.tap with ir := 0b0100 } } ∧
    (∀ (c : BitVec 4) (bits : List Bool),
      (c ∉ [0b0000#4, 0b0001, 0b0010, 0b0011, 0b0100, 0b1000, 0b1001] →
        exec (.bypass c bits) s = .next { s with tap := { s.tap with
          ir := c, bypass := ((false :: bits).drop bits.length).headD false, out := (false :: bits).take bits.length } }) ∧
      (c ∈ [0b0000#4, 0b0001, 0b0010, 0b0011, 0b0100, 0b1000, 0b1001] → exec (.bypass c bits) s = .next s)) ∧
    (∀ (k : Tick) (t : State), t = atTick k s →
      exec (.haltSet k) s = .next { t with tap := { t.tap with ir := 0b1000, halt := true } } ∧
      exec (.haltClr k) s = .next { t with tap := { t.tap with ir := 0b1001, halt := false } } ∧
      exec (.testLogicReset k) s = .next { t with tap := { t.tap with ir := 0b0010, idcode := 0x13D200F7, halt := false } }) ∧
    ((Tap.pins { s.tap with ir := 0b0000 } true, Tap.pins { s.tap with ir := 0b0011 } true,
        Tap.pins { s.tap with ir := 0b0100 } true) = (.functional, .functional, .functional) ∧
      (Tap.pins { s.tap with ir := 0b0000 } false, Tap.pins { s.tap with ir := 0b0011 } false,
        Tap.pins { s.tap with ir := 0b0100 } false) = (.scanned, .highz, .scanned))

/-! ### Turns and frames (02_position_time) -/

/-- FRAME_BOUNDARY brings the next frame of the turn, or the frame that a turn boundary has already reached, and after frame 31 waits
for the turn boundary; TURN_BOUNDARY brings T + 1, 0, 0, counts the turn in the odometer in MAIN, and at a second boundary closes a
tally record when records are written (R24, R25, R42, R418, R476). At the boundary at which the validation of a cold start completes,
the newest valid tally record sets the turn and the odometer ahead, and GAP or COLD of the stamps tells whether any record was found
(R464, R465). Neither has an effect while position is not counted (R52). That FRAME_BOUNDARY waits for the turn boundary after frame 31
and that TURN_BOUNDARY comes from any frame is the model's choice (assumption 6). -/
def Obligations.TurnsAndFrames : Prop :=
  ∀ s : State,
    (∀ o : FrameObs, s.time.counting = true → s.frameDue = true →
      ∃ u, exec (.frameBoundary o) s = .next u ∧ u.pos = s.pos ∧ u.frameDue = false ∧ u.time.counting = true ∧
        u.keeper.odometer = s.keeper.odometer ∧ SameBytes s u) ∧
    (∀ o : FrameObs, s.time.counting = true → s.frameDue = false →
      (s.pos.f ≠ 31 →
        ∃ u, exec (.frameBoundary o) s = .next u ∧ u.pos = ⟨s.pos.t, s.pos.f + 1, 0⟩ ∧ u.time.counting = true ∧
          u.keeper.odometer = s.keeper.odometer ∧ SameBytes s u) ∧
      (s.pos.f = 31 → exec (.frameBoundary o) s = .next s)) ∧
    (∀ o : TurnObs, s.time.counting = true → s.keeper.coldDue = false →
      ∃ u, exec (.turnBoundary o) s = .next u ∧ u.pos = ⟨s.pos.t + 1, 0, 0⟩ ∧ u.frameDue = true ∧
        (s.keeper.power = .main → s.keeper.dozing = false → u.keeper.odometer = s.keeper.odometer + 1) ∧
        (s.keeper.power ≠ .main → u.keeper.odometer = s.keeper.odometer) ∧
        (closes s = true → u.tally.seq = s.tally.seq + if isSecond (s.pos.t + 1).toNat then 1 else 0) ∧ SameBytes s u) ∧
    (∀ (o : TurnObs) (b : State), s.time.counting = true → s.keeper.coldDue = true → b = endTurn s →
      ∃ u, exec (.turnBoundary o) s = .next u ∧ u.frameDue = true ∧ SameBytes s u ∧ b.pos = ⟨s.pos.t + 1, 0, 0⟩ ∧
        b.keeper.odometer = (if s.keeper.power = .main ∧ s.keeper.dozing = false then s.keeper.odometer + 1 else s.keeper.odometer) ∧
        (s.keeper.phase ≠ .validated →
          u.pos = b.pos ∧ u.keeper.odometer = b.keeper.odometer ∧ u.keeper.coldDue = true) ∧
        (s.keeper.phase = .validated → u.keeper.coldDue = false ∧
          u.time.gap = (s.keeper.coldFound || (scanRing b).2.isSome) ∧ u.time.cold = !u.time.gap ∧
          ((scanRing b).2 = none → u.pos = b.pos ∧ u.keeper.odometer = b.keeper.odometer) ∧
          ∀ m n, (scanRing b).2 = some (m, n) →
            u.pos = (if b.pos.t.toNat < m % 2 ^ 48 + 1 then ⟨BitVec.ofNat 48 (m % 2 ^ 48 + 1), 0, 0⟩ else b.pos) ∧
            u.keeper.odometer = b.keeper.odometer + BitVec.ofNat 64 (n - b.words.odoAtCold.toNat))) ∧
    (s.time.counting = false →
      (∀ o : FrameObs, exec (.frameBoundary o) s = .next s) ∧ ∀ o : TurnObs, exec (.turnBoundary o) s = .next s)
end

