-- ==== Sys2Proof/Laws/State.lean ====
section
/-! SUPPORT. What each update of one part of State leaves as it was: one lemma per field per update. -/

namespace Sys2Proof.Machine

variable (s : State)


/-! ### State.setPort -/

@[simp] theorem State.setPort_pending (p : Port) (f : PortSt → PortSt) : (s.setPort p f).pending = s.pending := rfl
@[simp] theorem State.setPort_pos (p : Port) (f : PortSt → PortSt) : (s.setPort p f).pos = s.pos := rfl
@[simp] theorem State.setPort_frameDue (p : Port) (f : PortSt → PortSt) : (s.setPort p f).frameDue = s.frameDue := rfl
@[simp] theorem State.setPort_time (p : Port) (f : PortSt → PortSt) : (s.setPort p f).time = s.time := rfl
@[simp] theorem State.setPort_keys (p : Port) (f : PortSt → PortSt) : (s.setPort p f).keys = s.keys := rfl
@[simp] theorem State.setPort_pins (p : Port) (f : PortSt → PortSt) : (s.setPort p f).pins = s.pins := rfl
@[simp] theorem State.setPort_image (p : Port) (f : PortSt → PortSt) : (s.setPort p f).image = s.image := rfl
@[simp] theorem State.setPort_modes (p : Port) (f : PortSt → PortSt) : (s.setPort p f).modes = s.modes := rfl
@[simp] theorem State.setPort_lda (p : Port) (f : PortSt → PortSt) : (s.setPort p f).lda = s.lda := rfl
@[simp] theorem State.setPort_ldb (p : Port) (f : PortSt → PortSt) : (s.setPort p f).ldb = s.ldb := rfl
@[simp] theorem State.setPort_engX (p : Port) (f : PortSt → PortSt) : (s.setPort p f).engX = s.engX := rfl
@[simp] theorem State.setPort_engY (p : Port) (f : PortSt → PortSt) : (s.setPort p f).engY = s.engY := rfl
@[simp] theorem State.setPort_duplex (p : Port) (f : PortSt → PortSt) : (s.setPort p f).duplex = s.duplex := rfl
@[simp] theorem State.setPort_pairs (p : Port) (f : PortSt → PortSt) : (s.setPort p f).pairs = s.pairs := rfl
@[simp] theorem State.setPort_capture (p : Port) (f : PortSt → PortSt) : (s.setPort p f).capture = s.capture := rfl
@[simp] theorem State.setPort_partner (p : Port) (f : PortSt → PortSt) : (s.setPort p f).partner = s.partner := rfl
@[simp] theorem State.setPort_ptime (p : Port) (f : PortSt → PortSt) : (s.setPort p f).ptime = s.ptime := rfl
@[simp] theorem State.setPort_timers (p : Port) (f : PortSt → PortSt) : (s.setPort p f).timers = s.timers := rfl
@[simp] theorem State.setPort_alarm (p : Port) (f : PortSt → PortSt) : (s.setPort p f).alarm = s.alarm := rfl
@[simp] theorem State.setPort_matrix (p : Port) (f : PortSt → PortSt) : (s.setPort p f).matrix = s.matrix := rfl
@[simp] theorem State.setPort_tally (p : Port) (f : PortSt → PortSt) : (s.setPort p f).tally = s.tally := rfl
@[simp] theorem State.setPort_status (p : Port) (f : PortSt → PortSt) : (s.setPort p f).status = s.status := rfl
@[simp] theorem State.setPort_keeper (p : Port) (f : PortSt → PortSt) : (s.setPort p f).keeper = s.keeper := rfl
@[simp] theorem State.setPort_words (p : Port) (f : PortSt → PortSt) : (s.setPort p f).words = s.words := rfl
@[simp] theorem State.setPort_tap (p : Port) (f : PortSt → PortSt) : (s.setPort p f).tap = s.tap := rfl
@[simp] theorem State.setPort_freeIdx (p : Port) (f : PortSt → PortSt) : (s.setPort p f).freeIdx = s.freeIdx := rfl

/-! ### State.mapPorts -/

@[simp] theorem State.mapPorts_pending (f : Port → PortSt → PortSt) : (s.mapPorts f).pending = s.pending := by simp only [State.mapPorts]
@[simp] theorem State.mapPorts_pos (f : Port → PortSt → PortSt) : (s.mapPorts f).pos = s.pos := by simp only [State.mapPorts]
@[simp] theorem State.mapPorts_frameDue (f : Port → PortSt → PortSt) : (s.mapPorts f).frameDue = s.frameDue := by simp only [State.mapPorts]
@[simp] theorem State.mapPorts_time (f : Port → PortSt → PortSt) : (s.mapPorts f).time = s.time := by simp only [State.mapPorts]
@[simp] theorem State.mapPorts_keys (f : Port → PortSt → PortSt) : (s.mapPorts f).keys = s.keys := by simp only [State.mapPorts]
@[simp] theorem State.mapPorts_pins (f : Port → PortSt → PortSt) : (s.mapPorts f).pins = s.pins := by simp only [State.mapPorts]
@[simp] theorem State.mapPorts_image (f : Port → PortSt → PortSt) : (s.mapPorts f).image = s.image := by simp only [State.mapPorts]
@[simp] theorem State.mapPorts_modes (f : Port → PortSt → PortSt) : (s.mapPorts f).modes = s.modes := by simp only [State.mapPorts]
@[simp] theorem State.mapPorts_lda (f : Port → PortSt → PortSt) : (s.mapPorts f).lda = s.lda := by simp only [State.mapPorts]
@[simp] theorem State.mapPorts_ldb (f : Port → PortSt → PortSt) : (s.mapPorts f).ldb = s.ldb := by simp only [State.mapPorts]
@[simp] theorem State.mapPorts_engX (f : Port → PortSt → PortSt) : (s.mapPorts f).engX = s.engX := by simp only [State.mapPorts]
@[simp] theorem State.mapPorts_engY (f : Port → PortSt → PortSt) : (s.mapPorts f).engY = s.engY := by simp only [State.mapPorts]
@[simp] theorem State.mapPorts_duplex (f : Port → PortSt → PortSt) : (s.mapPorts f).duplex = s.duplex := by simp only [State.mapPorts]
@[simp] theorem State.mapPorts_pairs (f : Port → PortSt → PortSt) : (s.mapPorts f).pairs = s.pairs := by simp only [State.mapPorts]
@[simp] theorem State.mapPorts_capture (f : Port → PortSt → PortSt) : (s.mapPorts f).capture = s.capture := by simp only [State.mapPorts]
@[simp] theorem State.mapPorts_partner (f : Port → PortSt → PortSt) : (s.mapPorts f).partner = s.partner := by simp only [State.mapPorts]
@[simp] theorem State.mapPorts_ptime (f : Port → PortSt → PortSt) : (s.mapPorts f).ptime = s.ptime := by simp only [State.mapPorts]
@[simp] theorem State.mapPorts_timers (f : Port → PortSt → PortSt) : (s.mapPorts f).timers = s.timers := by simp only [State.mapPorts]
@[simp] theorem State.mapPorts_alarm (f : Port → PortSt → PortSt) : (s.mapPorts f).alarm = s.alarm := by simp only [State.mapPorts]
@[simp] theorem State.mapPorts_matrix (f : Port → PortSt → PortSt) : (s.mapPorts f).matrix = s.matrix := by simp only [State.mapPorts]
@[simp] theorem State.mapPorts_tally (f : Port → PortSt → PortSt) : (s.mapPorts f).tally = s.tally := by simp only [State.mapPorts]
@[simp] theorem State.mapPorts_status (f : Port → PortSt → PortSt) : (s.mapPorts f).status = s.status := by simp only [State.mapPorts]
@[simp] theorem State.mapPorts_keeper (f : Port → PortSt → PortSt) : (s.mapPorts f).keeper = s.keeper := by simp only [State.mapPorts]
@[simp] theorem State.mapPorts_words (f : Port → PortSt → PortSt) : (s.mapPorts f).words = s.words := by simp only [State.mapPorts]
@[simp] theorem State.mapPorts_tap (f : Port → PortSt → PortSt) : (s.mapPorts f).tap = s.tap := by simp only [State.mapPorts]
@[simp] theorem State.mapPorts_freeIdx (f : Port → PortSt → PortSt) : (s.mapPorts f).freeIdx = s.freeIdx := by simp only [State.mapPorts]

/-! ### State.setHinge -/

@[simp] theorem State.setHinge_pending (p : Port) (f : Hinge → Hinge) : (s.setHinge p f).pending = s.pending := rfl
@[simp] theorem State.setHinge_pos (p : Port) (f : Hinge → Hinge) : (s.setHinge p f).pos = s.pos := rfl
@[simp] theorem State.setHinge_frameDue (p : Port) (f : Hinge → Hinge) : (s.setHinge p f).frameDue = s.frameDue := rfl
@[simp] theorem State.setHinge_time (p : Port) (f : Hinge → Hinge) : (s.setHinge p f).time = s.time := rfl
@[simp] theorem State.setHinge_keys (p : Port) (f : Hinge → Hinge) : (s.setHinge p f).keys = s.keys := rfl
@[simp] theorem State.setHinge_pins (p : Port) (f : Hinge → Hinge) : (s.setHinge p f).pins = s.pins := rfl
@[simp] theorem State.setHinge_image (p : Port) (f : Hinge → Hinge) : (s.setHinge p f).image = s.image := rfl
@[simp] theorem State.setHinge_modes (p : Port) (f : Hinge → Hinge) : (s.setHinge p f).modes = s.modes := rfl
@[simp] theorem State.setHinge_lda (p : Port) (f : Hinge → Hinge) : (s.setHinge p f).lda = s.lda := rfl
@[simp] theorem State.setHinge_ldb (p : Port) (f : Hinge → Hinge) : (s.setHinge p f).ldb = s.ldb := rfl
@[simp] theorem State.setHinge_engX (p : Port) (f : Hinge → Hinge) : (s.setHinge p f).engX = s.engX := rfl
@[simp] theorem State.setHinge_engY (p : Port) (f : Hinge → Hinge) : (s.setHinge p f).engY = s.engY := rfl
@[simp] theorem State.setHinge_duplex (p : Port) (f : Hinge → Hinge) : (s.setHinge p f).duplex = s.duplex := rfl
@[simp] theorem State.setHinge_pairs (p : Port) (f : Hinge → Hinge) : (s.setHinge p f).pairs = s.pairs := rfl
@[simp] theorem State.setHinge_capture (p : Port) (f : Hinge → Hinge) : (s.setHinge p f).capture = s.capture := rfl
@[simp] theorem State.setHinge_partner (p : Port) (f : Hinge → Hinge) : (s.setHinge p f).partner = s.partner := rfl
@[simp] theorem State.setHinge_ptime (p : Port) (f : Hinge → Hinge) : (s.setHinge p f).ptime = s.ptime := rfl
@[simp] theorem State.setHinge_timers (p : Port) (f : Hinge → Hinge) : (s.setHinge p f).timers = s.timers := rfl
@[simp] theorem State.setHinge_alarm (p : Port) (f : Hinge → Hinge) : (s.setHinge p f).alarm = s.alarm := rfl
@[simp] theorem State.setHinge_matrix (p : Port) (f : Hinge → Hinge) : (s.setHinge p f).matrix = s.matrix := rfl
@[simp] theorem State.setHinge_tally (p : Port) (f : Hinge → Hinge) : (s.setHinge p f).tally = s.tally := rfl
@[simp] theorem State.setHinge_status (p : Port) (f : Hinge → Hinge) : (s.setHinge p f).status = s.status := rfl
@[simp] theorem State.setHinge_keeper (p : Port) (f : Hinge → Hinge) : (s.setHinge p f).keeper = s.keeper := rfl
@[simp] theorem State.setHinge_words (p : Port) (f : Hinge → Hinge) : (s.setHinge p f).words = s.words := rfl
@[simp] theorem State.setHinge_tap (p : Port) (f : Hinge → Hinge) : (s.setHinge p f).tap = s.tap := rfl
@[simp] theorem State.setHinge_freeIdx (p : Port) (f : Hinge → Hinge) : (s.setHinge p f).freeIdx = s.freeIdx := rfl

/-! ### State.setLine -/

@[simp] theorem State.setLine_pending (p : Port) (f : Line → Line) : (s.setLine p f).pending = s.pending := rfl
@[simp] theorem State.setLine_pos (p : Port) (f : Line → Line) : (s.setLine p f).pos = s.pos := rfl
@[simp] theorem State.setLine_frameDue (p : Port) (f : Line → Line) : (s.setLine p f).frameDue = s.frameDue := rfl
@[simp] theorem State.setLine_time (p : Port) (f : Line → Line) : (s.setLine p f).time = s.time := rfl
@[simp] theorem State.setLine_keys (p : Port) (f : Line → Line) : (s.setLine p f).keys = s.keys := rfl
@[simp] theorem State.setLine_pins (p : Port) (f : Line → Line) : (s.setLine p f).pins = s.pins := rfl
@[simp] theorem State.setLine_image (p : Port) (f : Line → Line) : (s.setLine p f).image = s.image := rfl
@[simp] theorem State.setLine_modes (p : Port) (f : Line → Line) : (s.setLine p f).modes = s.modes := rfl
@[simp] theorem State.setLine_lda (p : Port) (f : Line → Line) : (s.setLine p f).lda = s.lda := rfl
@[simp] theorem State.setLine_ldb (p : Port) (f : Line → Line) : (s.setLine p f).ldb = s.ldb := rfl
@[simp] theorem State.setLine_engX (p : Port) (f : Line → Line) : (s.setLine p f).engX = s.engX := rfl
@[simp] theorem State.setLine_engY (p : Port) (f : Line → Line) : (s.setLine p f).engY = s.engY := rfl
@[simp] theorem State.setLine_duplex (p : Port) (f : Line → Line) : (s.setLine p f).duplex = s.duplex := rfl
@[simp] theorem State.setLine_pairs (p : Port) (f : Line → Line) : (s.setLine p f).pairs = s.pairs := rfl
@[simp] theorem State.setLine_capture (p : Port) (f : Line → Line) : (s.setLine p f).capture = s.capture := rfl
@[simp] theorem State.setLine_partner (p : Port) (f : Line → Line) : (s.setLine p f).partner = s.partner := rfl
@[simp] theorem State.setLine_ptime (p : Port) (f : Line → Line) : (s.setLine p f).ptime = s.ptime := rfl
@[simp] theorem State.setLine_timers (p : Port) (f : Line → Line) : (s.setLine p f).timers = s.timers := rfl
@[simp] theorem State.setLine_alarm (p : Port) (f : Line → Line) : (s.setLine p f).alarm = s.alarm := rfl
@[simp] theorem State.setLine_matrix (p : Port) (f : Line → Line) : (s.setLine p f).matrix = s.matrix := rfl
@[simp] theorem State.setLine_tally (p : Port) (f : Line → Line) : (s.setLine p f).tally = s.tally := rfl
@[simp] theorem State.setLine_status (p : Port) (f : Line → Line) : (s.setLine p f).status = s.status := rfl
@[simp] theorem State.setLine_keeper (p : Port) (f : Line → Line) : (s.setLine p f).keeper = s.keeper := rfl
@[simp] theorem State.setLine_words (p : Port) (f : Line → Line) : (s.setLine p f).words = s.words := rfl
@[simp] theorem State.setLine_tap (p : Port) (f : Line → Line) : (s.setLine p f).tap = s.tap := rfl
@[simp] theorem State.setLine_freeIdx (p : Port) (f : Line → Line) : (s.setLine p f).freeIdx = s.freeIdx := rfl

/-! ### State.setFramer -/

@[simp] theorem State.setFramer_pending (p : Port) (f : Framer → Framer) : (s.setFramer p f).pending = s.pending := rfl
@[simp] theorem State.setFramer_pos (p : Port) (f : Framer → Framer) : (s.setFramer p f).pos = s.pos := rfl
@[simp] theorem State.setFramer_frameDue (p : Port) (f : Framer → Framer) : (s.setFramer p f).frameDue = s.frameDue := rfl
@[simp] theorem State.setFramer_time (p : Port) (f : Framer → Framer) : (s.setFramer p f).time = s.time := rfl
@[simp] theorem State.setFramer_keys (p : Port) (f : Framer → Framer) : (s.setFramer p f).keys = s.keys := rfl
@[simp] theorem State.setFramer_pins (p : Port) (f : Framer → Framer) : (s.setFramer p f).pins = s.pins := rfl
@[simp] theorem State.setFramer_image (p : Port) (f : Framer → Framer) : (s.setFramer p f).image = s.image := rfl
@[simp] theorem State.setFramer_modes (p : Port) (f : Framer → Framer) : (s.setFramer p f).modes = s.modes := rfl
@[simp] theorem State.setFramer_lda (p : Port) (f : Framer → Framer) : (s.setFramer p f).lda = s.lda := rfl
@[simp] theorem State.setFramer_ldb (p : Port) (f : Framer → Framer) : (s.setFramer p f).ldb = s.ldb := rfl
@[simp] theorem State.setFramer_engX (p : Port) (f : Framer → Framer) : (s.setFramer p f).engX = s.engX := rfl
@[simp] theorem State.setFramer_engY (p : Port) (f : Framer → Framer) : (s.setFramer p f).engY = s.engY := rfl
@[simp] theorem State.setFramer_duplex (p : Port) (f : Framer → Framer) : (s.setFramer p f).duplex = s.duplex := rfl
@[simp] theorem State.setFramer_pairs (p : Port) (f : Framer → Framer) : (s.setFramer p f).pairs = s.pairs := rfl
@[simp] theorem State.setFramer_capture (p : Port) (f : Framer → Framer) : (s.setFramer p f).capture = s.capture := rfl
@[simp] theorem State.setFramer_partner (p : Port) (f : Framer → Framer) : (s.setFramer p f).partner = s.partner := rfl
@[simp] theorem State.setFramer_ptime (p : Port) (f : Framer → Framer) : (s.setFramer p f).ptime = s.ptime := rfl
@[simp] theorem State.setFramer_timers (p : Port) (f : Framer → Framer) : (s.setFramer p f).timers = s.timers := rfl
@[simp] theorem State.setFramer_alarm (p : Port) (f : Framer → Framer) : (s.setFramer p f).alarm = s.alarm := rfl
@[simp] theorem State.setFramer_matrix (p : Port) (f : Framer → Framer) : (s.setFramer p f).matrix = s.matrix := rfl
@[simp] theorem State.setFramer_tally (p : Port) (f : Framer → Framer) : (s.setFramer p f).tally = s.tally := rfl
@[simp] theorem State.setFramer_status (p : Port) (f : Framer → Framer) : (s.setFramer p f).status = s.status := rfl
@[simp] theorem State.setFramer_keeper (p : Port) (f : Framer → Framer) : (s.setFramer p f).keeper = s.keeper := rfl
@[simp] theorem State.setFramer_words (p : Port) (f : Framer → Framer) : (s.setFramer p f).words = s.words := rfl
@[simp] theorem State.setFramer_tap (p : Port) (f : Framer → Framer) : (s.setFramer p f).tap = s.tap := rfl
@[simp] theorem State.setFramer_freeIdx (p : Port) (f : Framer → Framer) : (s.setFramer p f).freeIdx = s.freeIdx := rfl

/-! ### State.setSlip -/

@[simp] theorem State.setSlip_pending (p : Port) (f : Slip → Slip) : (s.setSlip p f).pending = s.pending := rfl
@[simp] theorem State.setSlip_pos (p : Port) (f : Slip → Slip) : (s.setSlip p f).pos = s.pos := rfl
@[simp] theorem State.setSlip_frameDue (p : Port) (f : Slip → Slip) : (s.setSlip p f).frameDue = s.frameDue := rfl
@[simp] theorem State.setSlip_time (p : Port) (f : Slip → Slip) : (s.setSlip p f).time = s.time := rfl
@[simp] theorem State.setSlip_keys (p : Port) (f : Slip → Slip) : (s.setSlip p f).keys = s.keys := rfl
@[simp] theorem State.setSlip_pins (p : Port) (f : Slip → Slip) : (s.setSlip p f).pins = s.pins := rfl
@[simp] theorem State.setSlip_image (p : Port) (f : Slip → Slip) : (s.setSlip p f).image = s.image := rfl
@[simp] theorem State.setSlip_modes (p : Port) (f : Slip → Slip) : (s.setSlip p f).modes = s.modes := rfl
@[simp] theorem State.setSlip_lda (p : Port) (f : Slip → Slip) : (s.setSlip p f).lda = s.lda := rfl
@[simp] theorem State.setSlip_ldb (p : Port) (f : Slip → Slip) : (s.setSlip p f).ldb = s.ldb := rfl
@[simp] theorem State.setSlip_engX (p : Port) (f : Slip → Slip) : (s.setSlip p f).engX = s.engX := rfl
@[simp] theorem State.setSlip_engY (p : Port) (f : Slip → Slip) : (s.setSlip p f).engY = s.engY := rfl
@[simp] theorem State.setSlip_duplex (p : Port) (f : Slip → Slip) : (s.setSlip p f).duplex = s.duplex := rfl
@[simp] theorem State.setSlip_pairs (p : Port) (f : Slip → Slip) : (s.setSlip p f).pairs = s.pairs := rfl
@[simp] theorem State.setSlip_capture (p : Port) (f : Slip → Slip) : (s.setSlip p f).capture = s.capture := rfl
@[simp] theorem State.setSlip_partner (p : Port) (f : Slip → Slip) : (s.setSlip p f).partner = s.partner := rfl
@[simp] theorem State.setSlip_ptime (p : Port) (f : Slip → Slip) : (s.setSlip p f).ptime = s.ptime := rfl
@[simp] theorem State.setSlip_timers (p : Port) (f : Slip → Slip) : (s.setSlip p f).timers = s.timers := rfl
@[simp] theorem State.setSlip_alarm (p : Port) (f : Slip → Slip) : (s.setSlip p f).alarm = s.alarm := rfl
@[simp] theorem State.setSlip_matrix (p : Port) (f : Slip → Slip) : (s.setSlip p f).matrix = s.matrix := rfl
@[simp] theorem State.setSlip_tally (p : Port) (f : Slip → Slip) : (s.setSlip p f).tally = s.tally := rfl
@[simp] theorem State.setSlip_status (p : Port) (f : Slip → Slip) : (s.setSlip p f).status = s.status := rfl
@[simp] theorem State.setSlip_keeper (p : Port) (f : Slip → Slip) : (s.setSlip p f).keeper = s.keeper := rfl
@[simp] theorem State.setSlip_words (p : Port) (f : Slip → Slip) : (s.setSlip p f).words = s.words := rfl
@[simp] theorem State.setSlip_tap (p : Port) (f : Slip → Slip) : (s.setSlip p f).tap = s.tap := rfl
@[simp] theorem State.setSlip_freeIdx (p : Port) (f : Slip → Slip) : (s.setSlip p f).freeIdx = s.freeIdx := rfl

/-! ### State.setRaw -/

@[simp] theorem State.setRaw_pending (p : Port) (f : Raw → Raw) : (s.setRaw p f).pending = s.pending := rfl
@[simp] theorem State.setRaw_pos (p : Port) (f : Raw → Raw) : (s.setRaw p f).pos = s.pos := rfl
@[simp] theorem State.setRaw_frameDue (p : Port) (f : Raw → Raw) : (s.setRaw p f).frameDue = s.frameDue := rfl
@[simp] theorem State.setRaw_time (p : Port) (f : Raw → Raw) : (s.setRaw p f).time = s.time := rfl
@[simp] theorem State.setRaw_keys (p : Port) (f : Raw → Raw) : (s.setRaw p f).keys = s.keys := rfl
@[simp] theorem State.setRaw_pins (p : Port) (f : Raw → Raw) : (s.setRaw p f).pins = s.pins := rfl
@[simp] theorem State.setRaw_image (p : Port) (f : Raw → Raw) : (s.setRaw p f).image = s.image := rfl
@[simp] theorem State.setRaw_modes (p : Port) (f : Raw → Raw) : (s.setRaw p f).modes = s.modes := rfl
@[simp] theorem State.setRaw_lda (p : Port) (f : Raw → Raw) : (s.setRaw p f).lda = s.lda := rfl
@[simp] theorem State.setRaw_ldb (p : Port) (f : Raw → Raw) : (s.setRaw p f).ldb = s.ldb := rfl
@[simp] theorem State.setRaw_engX (p : Port) (f : Raw → Raw) : (s.setRaw p f).engX = s.engX := rfl
@[simp] theorem State.setRaw_engY (p : Port) (f : Raw → Raw) : (s.setRaw p f).engY = s.engY := rfl
@[simp] theorem State.setRaw_duplex (p : Port) (f : Raw → Raw) : (s.setRaw p f).duplex = s.duplex := rfl
@[simp] theorem State.setRaw_pairs (p : Port) (f : Raw → Raw) : (s.setRaw p f).pairs = s.pairs := rfl
@[simp] theorem State.setRaw_capture (p : Port) (f : Raw → Raw) : (s.setRaw p f).capture = s.capture := rfl
@[simp] theorem State.setRaw_partner (p : Port) (f : Raw → Raw) : (s.setRaw p f).partner = s.partner := rfl
@[simp] theorem State.setRaw_ptime (p : Port) (f : Raw → Raw) : (s.setRaw p f).ptime = s.ptime := rfl
@[simp] theorem State.setRaw_timers (p : Port) (f : Raw → Raw) : (s.setRaw p f).timers = s.timers := rfl
@[simp] theorem State.setRaw_alarm (p : Port) (f : Raw → Raw) : (s.setRaw p f).alarm = s.alarm := rfl
@[simp] theorem State.setRaw_matrix (p : Port) (f : Raw → Raw) : (s.setRaw p f).matrix = s.matrix := rfl
@[simp] theorem State.setRaw_tally (p : Port) (f : Raw → Raw) : (s.setRaw p f).tally = s.tally := rfl
@[simp] theorem State.setRaw_status (p : Port) (f : Raw → Raw) : (s.setRaw p f).status = s.status := rfl
@[simp] theorem State.setRaw_keeper (p : Port) (f : Raw → Raw) : (s.setRaw p f).keeper = s.keeper := rfl
@[simp] theorem State.setRaw_words (p : Port) (f : Raw → Raw) : (s.setRaw p f).words = s.words := rfl
@[simp] theorem State.setRaw_tap (p : Port) (f : Raw → Raw) : (s.setRaw p f).tap = s.tap := rfl
@[simp] theorem State.setRaw_freeIdx (p : Port) (f : Raw → Raw) : (s.setRaw p f).freeIdx = s.freeIdx := rfl

/-! ### State.setLatch -/

@[simp] theorem State.setLatch_pending (p : Port) (f : Latch → Latch) : (s.setLatch p f).pending = s.pending := rfl
@[simp] theorem State.setLatch_pos (p : Port) (f : Latch → Latch) : (s.setLatch p f).pos = s.pos := rfl
@[simp] theorem State.setLatch_frameDue (p : Port) (f : Latch → Latch) : (s.setLatch p f).frameDue = s.frameDue := rfl
@[simp] theorem State.setLatch_time (p : Port) (f : Latch → Latch) : (s.setLatch p f).time = s.time := rfl
@[simp] theorem State.setLatch_keys (p : Port) (f : Latch → Latch) : (s.setLatch p f).keys = s.keys := rfl
@[simp] theorem State.setLatch_pins (p : Port) (f : Latch → Latch) : (s.setLatch p f).pins = s.pins := rfl
@[simp] theorem State.setLatch_image (p : Port) (f : Latch → Latch) : (s.setLatch p f).image = s.image := rfl
@[simp] theorem State.setLatch_modes (p : Port) (f : Latch → Latch) : (s.setLatch p f).modes = s.modes := rfl
@[simp] theorem State.setLatch_lda (p : Port) (f : Latch → Latch) : (s.setLatch p f).lda = s.lda := rfl
@[simp] theorem State.setLatch_ldb (p : Port) (f : Latch → Latch) : (s.setLatch p f).ldb = s.ldb := rfl
@[simp] theorem State.setLatch_engX (p : Port) (f : Latch → Latch) : (s.setLatch p f).engX = s.engX := rfl
@[simp] theorem State.setLatch_engY (p : Port) (f : Latch → Latch) : (s.setLatch p f).engY = s.engY := rfl
@[simp] theorem State.setLatch_duplex (p : Port) (f : Latch → Latch) : (s.setLatch p f).duplex = s.duplex := rfl
@[simp] theorem State.setLatch_pairs (p : Port) (f : Latch → Latch) : (s.setLatch p f).pairs = s.pairs := rfl
@[simp] theorem State.setLatch_capture (p : Port) (f : Latch → Latch) : (s.setLatch p f).capture = s.capture := rfl
@[simp] theorem State.setLatch_partner (p : Port) (f : Latch → Latch) : (s.setLatch p f).partner = s.partner := rfl
@[simp] theorem State.setLatch_ptime (p : Port) (f : Latch → Latch) : (s.setLatch p f).ptime = s.ptime := rfl
@[simp] theorem State.setLatch_timers (p : Port) (f : Latch → Latch) : (s.setLatch p f).timers = s.timers := rfl
@[simp] theorem State.setLatch_alarm (p : Port) (f : Latch → Latch) : (s.setLatch p f).alarm = s.alarm := rfl
@[simp] theorem State.setLatch_matrix (p : Port) (f : Latch → Latch) : (s.setLatch p f).matrix = s.matrix := rfl
@[simp] theorem State.setLatch_tally (p : Port) (f : Latch → Latch) : (s.setLatch p f).tally = s.tally := rfl
@[simp] theorem State.setLatch_status (p : Port) (f : Latch → Latch) : (s.setLatch p f).status = s.status := rfl
@[simp] theorem State.setLatch_keeper (p : Port) (f : Latch → Latch) : (s.setLatch p f).keeper = s.keeper := rfl
@[simp] theorem State.setLatch_words (p : Port) (f : Latch → Latch) : (s.setLatch p f).words = s.words := rfl
@[simp] theorem State.setLatch_tap (p : Port) (f : Latch → Latch) : (s.setLatch p f).tap = s.tap := rfl
@[simp] theorem State.setLatch_freeIdx (p : Port) (f : Latch → Latch) : (s.setLatch p f).freeIdx = s.freeIdx := rfl

/-! ### State.setDie -/

@[simp] theorem State.setDie_pending (d : LineDie) (f : DieSt → DieSt) : (s.setDie d f).pending = s.pending := by cases d <;> rfl
@[simp] theorem State.setDie_pos (d : LineDie) (f : DieSt → DieSt) : (s.setDie d f).pos = s.pos := by cases d <;> rfl
@[simp] theorem State.setDie_frameDue (d : LineDie) (f : DieSt → DieSt) : (s.setDie d f).frameDue = s.frameDue := by cases d <;> rfl
@[simp] theorem State.setDie_time (d : LineDie) (f : DieSt → DieSt) : (s.setDie d f).time = s.time := by cases d <;> rfl
@[simp] theorem State.setDie_keys (d : LineDie) (f : DieSt → DieSt) : (s.setDie d f).keys = s.keys := by cases d <;> rfl
@[simp] theorem State.setDie_pins (d : LineDie) (f : DieSt → DieSt) : (s.setDie d f).pins = s.pins := by cases d <;> rfl
@[simp] theorem State.setDie_image (d : LineDie) (f : DieSt → DieSt) : (s.setDie d f).image = s.image := by cases d <;> rfl
@[simp] theorem State.setDie_modes (d : LineDie) (f : DieSt → DieSt) : (s.setDie d f).modes = s.modes := by cases d <;> rfl
@[simp] theorem State.setDie_ports (d : LineDie) (f : DieSt → DieSt) : (s.setDie d f).ports = s.ports := by cases d <;> rfl
@[simp] theorem State.setDie_engX (d : LineDie) (f : DieSt → DieSt) : (s.setDie d f).engX = s.engX := by cases d <;> rfl
@[simp] theorem State.setDie_engY (d : LineDie) (f : DieSt → DieSt) : (s.setDie d f).engY = s.engY := by cases d <;> rfl
@[simp] theorem State.setDie_duplex (d : LineDie) (f : DieSt → DieSt) : (s.setDie d f).duplex = s.duplex := by cases d <;> rfl
@[simp] theorem State.setDie_pairs (d : LineDie) (f : DieSt → DieSt) : (s.setDie d f).pairs = s.pairs := by cases d <;> rfl
@[simp] theorem State.setDie_capture (d : LineDie) (f : DieSt → DieSt) : (s.setDie d f).capture = s.capture := by cases d <;> rfl
@[simp] theorem State.setDie_partner (d : LineDie) (f : DieSt → DieSt) : (s.setDie d f).partner = s.partner := by cases d <;> rfl
@[simp] theorem State.setDie_ptime (d : LineDie) (f : DieSt → DieSt) : (s.setDie d f).ptime = s.ptime := by cases d <;> rfl
@[simp] theorem State.setDie_timers (d : LineDie) (f : DieSt → DieSt) : (s.setDie d f).timers = s.timers := by cases d <;> rfl
@[simp] theorem State.setDie_alarm (d : LineDie) (f : DieSt → DieSt) : (s.setDie d f).alarm = s.alarm := by cases d <;> rfl
@[simp] theorem State.setDie_matrix (d : LineDie) (f : DieSt → DieSt) : (s.setDie d f).matrix = s.matrix := by cases d <;> rfl
@[simp] theorem State.setDie_tally (d : LineDie) (f : DieSt → DieSt) : (s.setDie d f).tally = s.tally := by cases d <;> rfl
@[simp] theorem State.setDie_status (d : LineDie) (f : DieSt → DieSt) : (s.setDie d f).status = s.status := by cases d <;> rfl
@[simp] theorem State.setDie_keeper (d : LineDie) (f : DieSt → DieSt) : (s.setDie d f).keeper = s.keeper := by cases d <;> rfl
@[simp] theorem State.setDie_words (d : LineDie) (f : DieSt → DieSt) : (s.setDie d f).words = s.words := by cases d <;> rfl
@[simp] theorem State.setDie_tap (d : LineDie) (f : DieSt → DieSt) : (s.setDie d f).tap = s.tap := by cases d <;> rfl
@[simp] theorem State.setDie_freeIdx (d : LineDie) (f : DieSt → DieSt) : (s.setDie d f).freeIdx = s.freeIdx := by cases d <;> rfl

/-! ### State.setEng -/

@[simp] theorem State.setEng_pending (e : Eng) (f : EngSt → EngSt) : (s.setEng e f).pending = s.pending := by cases e <;> rfl
@[simp] theorem State.setEng_pos (e : Eng) (f : EngSt → EngSt) : (s.setEng e f).pos = s.pos := by cases e <;> rfl
@[simp] theorem State.setEng_frameDue (e : Eng) (f : EngSt → EngSt) : (s.setEng e f).frameDue = s.frameDue := by cases e <;> rfl
@[simp] theorem State.setEng_time (e : Eng) (f : EngSt → EngSt) : (s.setEng e f).time = s.time := by cases e <;> rfl
@[simp] theorem State.setEng_keys (e : Eng) (f : EngSt → EngSt) : (s.setEng e f).keys = s.keys := by cases e <;> rfl
@[simp] theorem State.setEng_pins (e : Eng) (f : EngSt → EngSt) : (s.setEng e f).pins = s.pins := by cases e <;> rfl
@[simp] theorem State.setEng_image (e : Eng) (f : EngSt → EngSt) : (s.setEng e f).image = s.image := by cases e <;> rfl
@[simp] theorem State.setEng_modes (e : Eng) (f : EngSt → EngSt) : (s.setEng e f).modes = s.modes := by cases e <;> rfl
@[simp] theorem State.setEng_ports (e : Eng) (f : EngSt → EngSt) : (s.setEng e f).ports = s.ports := by cases e <;> rfl
@[simp] theorem State.setEng_lda (e : Eng) (f : EngSt → EngSt) : (s.setEng e f).lda = s.lda := by cases e <;> rfl
@[simp] theorem State.setEng_ldb (e : Eng) (f : EngSt → EngSt) : (s.setEng e f).ldb = s.ldb := by cases e <;> rfl
@[simp] theorem State.setEng_duplex (e : Eng) (f : EngSt → EngSt) : (s.setEng e f).duplex = s.duplex := by cases e <;> rfl
@[simp] theorem State.setEng_pairs (e : Eng) (f : EngSt → EngSt) : (s.setEng e f).pairs = s.pairs := by cases e <;> rfl
@[simp] theorem State.setEng_capture (e : Eng) (f : EngSt → EngSt) : (s.setEng e f).capture = s.capture := by cases e <;> rfl
@[simp] theorem State.setEng_partner (e : Eng) (f : EngSt → EngSt) : (s.setEng e f).partner = s.partner := by cases e <;> rfl
@[simp] theorem State.setEng_ptime (e : Eng) (f : EngSt → EngSt) : (s.setEng e f).ptime = s.ptime := by cases e <;> rfl
@[simp] theorem State.setEng_timers (e : Eng) (f : EngSt → EngSt) : (s.setEng e f).timers = s.timers := by cases e <;> rfl
@[simp] theorem State.setEng_alarm (e : Eng) (f : EngSt → EngSt) : (s.setEng e f).alarm = s.alarm := by cases e <;> rfl
@[simp] theorem State.setEng_matrix (e : Eng) (f : EngSt → EngSt) : (s.setEng e f).matrix = s.matrix := by cases e <;> rfl
@[simp] theorem State.setEng_tally (e : Eng) (f : EngSt → EngSt) : (s.setEng e f).tally = s.tally := by cases e <;> rfl
@[simp] theorem State.setEng_status (e : Eng) (f : EngSt → EngSt) : (s.setEng e f).status = s.status := by cases e <;> rfl
@[simp] theorem State.setEng_keeper (e : Eng) (f : EngSt → EngSt) : (s.setEng e f).keeper = s.keeper := by cases e <;> rfl
@[simp] theorem State.setEng_words (e : Eng) (f : EngSt → EngSt) : (s.setEng e f).words = s.words := by cases e <;> rfl
@[simp] theorem State.setEng_tap (e : Eng) (f : EngSt → EngSt) : (s.setEng e f).tap = s.tap := by cases e <;> rfl
@[simp] theorem State.setEng_freeIdx (e : Eng) (f : EngSt → EngSt) : (s.setEng e f).freeIdx = s.freeIdx := by cases e <;> rfl

/-! ### State.setCtl -/

@[simp] theorem State.setCtl_pending (e : Eng) (f : EngCtl → EngCtl) : (s.setCtl e f).pending = s.pending := by cases e <;> rfl
@[simp] theorem State.setCtl_pos (e : Eng) (f : EngCtl → EngCtl) : (s.setCtl e f).pos = s.pos := by cases e <;> rfl
@[simp] theorem State.setCtl_frameDue (e : Eng) (f : EngCtl → EngCtl) : (s.setCtl e f).frameDue = s.frameDue := by cases e <;> rfl
@[simp] theorem State.setCtl_time (e : Eng) (f : EngCtl → EngCtl) : (s.setCtl e f).time = s.time := by cases e <;> rfl
@[simp] theorem State.setCtl_keys (e : Eng) (f : EngCtl → EngCtl) : (s.setCtl e f).keys = s.keys := by cases e <;> rfl
@[simp] theorem State.setCtl_pins (e : Eng) (f : EngCtl → EngCtl) : (s.setCtl e f).pins = s.pins := by cases e <;> rfl
@[simp] theorem State.setCtl_image (e : Eng) (f : EngCtl → EngCtl) : (s.setCtl e f).image = s.image := by cases e <;> rfl
@[simp] theorem State.setCtl_modes (e : Eng) (f : EngCtl → EngCtl) : (s.setCtl e f).modes = s.modes := by cases e <;> rfl
@[simp] theorem State.setCtl_ports (e : Eng) (f : EngCtl → EngCtl) : (s.setCtl e f).ports = s.ports := by cases e <;> rfl
@[simp] theorem State.setCtl_lda (e : Eng) (f : EngCtl → EngCtl) : (s.setCtl e f).lda = s.lda := by cases e <;> rfl
@[simp] theorem State.setCtl_ldb (e : Eng) (f : EngCtl → EngCtl) : (s.setCtl e f).ldb = s.ldb := by cases e <;> rfl
@[simp] theorem State.setCtl_duplex (e : Eng) (f : EngCtl → EngCtl) : (s.setCtl e f).duplex = s.duplex := by cases e <;> rfl
@[simp] theorem State.setCtl_pairs (e : Eng) (f : EngCtl → EngCtl) : (s.setCtl e f).pairs = s.pairs := by cases e <;> rfl
@[simp] theorem State.setCtl_capture (e : Eng) (f : EngCtl → EngCtl) : (s.setCtl e f).capture = s.capture := by cases e <;> rfl
@[simp] theorem State.setCtl_partner (e : Eng) (f : EngCtl → EngCtl) : (s.setCtl e f).partner = s.partner := by cases e <;> rfl
@[simp] theorem State.setCtl_ptime (e : Eng) (f : EngCtl → EngCtl) : (s.setCtl e f).ptime = s.ptime := by cases e <;> rfl
@[simp] theorem State.setCtl_timers (e : Eng) (f : EngCtl → EngCtl) : (s.setCtl e f).timers = s.timers := by cases e <;> rfl
@[simp] theorem State.setCtl_alarm (e : Eng) (f : EngCtl → EngCtl) : (s.setCtl e f).alarm = s.alarm := by cases e <;> rfl
@[simp] theorem State.setCtl_matrix (e : Eng) (f : EngCtl → EngCtl) : (s.setCtl e f).matrix = s.matrix := by cases e <;> rfl
@[simp] theorem State.setCtl_tally (e : Eng) (f : EngCtl → EngCtl) : (s.setCtl e f).tally = s.tally := by cases e <;> rfl
@[simp] theorem State.setCtl_status (e : Eng) (f : EngCtl → EngCtl) : (s.setCtl e f).status = s.status := by cases e <;> rfl
@[simp] theorem State.setCtl_keeper (e : Eng) (f : EngCtl → EngCtl) : (s.setCtl e f).keeper = s.keeper := by cases e <;> rfl
@[simp] theorem State.setCtl_words (e : Eng) (f : EngCtl → EngCtl) : (s.setCtl e f).words = s.words := by cases e <;> rfl
@[simp] theorem State.setCtl_tap (e : Eng) (f : EngCtl → EngCtl) : (s.setCtl e f).tap = s.tap := by cases e <;> rfl
@[simp] theorem State.setCtl_freeIdx (e : Eng) (f : EngCtl → EngCtl) : (s.setCtl e f).freeIdx = s.freeIdx := by cases e <;> rfl

/-! ### State.setEngTally -/

@[simp] theorem State.setEngTally_pending (e : Eng) (f : EngTally → EngTally) : (s.setEngTally e f).pending = s.pending := by cases e <;> rfl
@[simp] theorem State.setEngTally_pos (e : Eng) (f : EngTally → EngTally) : (s.setEngTally e f).pos = s.pos := by cases e <;> rfl
@[simp] theorem State.setEngTally_frameDue (e : Eng) (f : EngTally → EngTally) : (s.setEngTally e f).frameDue = s.frameDue := by cases e <;> rfl
@[simp] theorem State.setEngTally_time (e : Eng) (f : EngTally → EngTally) : (s.setEngTally e f).time = s.time := by cases e <;> rfl
@[simp] theorem State.setEngTally_keys (e : Eng) (f : EngTally → EngTally) : (s.setEngTally e f).keys = s.keys := by cases e <;> rfl
@[simp] theorem State.setEngTally_pins (e : Eng) (f : EngTally → EngTally) : (s.setEngTally e f).pins = s.pins := by cases e <;> rfl
@[simp] theorem State.setEngTally_image (e : Eng) (f : EngTally → EngTally) : (s.setEngTally e f).image = s.image := by cases e <;> rfl
@[simp] theorem State.setEngTally_modes (e : Eng) (f : EngTally → EngTally) : (s.setEngTally e f).modes = s.modes := by cases e <;> rfl
@[simp] theorem State.setEngTally_ports (e : Eng) (f : EngTally → EngTally) : (s.setEngTally e f).ports = s.ports := by cases e <;> rfl
@[simp] theorem State.setEngTally_lda (e : Eng) (f : EngTally → EngTally) : (s.setEngTally e f).lda = s.lda := by cases e <;> rfl
@[simp] theorem State.setEngTally_ldb (e : Eng) (f : EngTally → EngTally) : (s.setEngTally e f).ldb = s.ldb := by cases e <;> rfl
@[simp] theorem State.setEngTally_duplex (e : Eng) (f : EngTally → EngTally) : (s.setEngTally e f).duplex = s.duplex := by cases e <;> rfl
@[simp] theorem State.setEngTally_pairs (e : Eng) (f : EngTally → EngTally) : (s.setEngTally e f).pairs = s.pairs := by cases e <;> rfl
@[simp] theorem State.setEngTally_capture (e : Eng) (f : EngTally → EngTally) : (s.setEngTally e f).capture = s.capture := by cases e <;> rfl
@[simp] theorem State.setEngTally_partner (e : Eng) (f : EngTally → EngTally) : (s.setEngTally e f).partner = s.partner := by cases e <;> rfl
@[simp] theorem State.setEngTally_ptime (e : Eng) (f : EngTally → EngTally) : (s.setEngTally e f).ptime = s.ptime := by cases e <;> rfl
@[simp] theorem State.setEngTally_timers (e : Eng) (f : EngTally → EngTally) : (s.setEngTally e f).timers = s.timers := by cases e <;> rfl
@[simp] theorem State.setEngTally_alarm (e : Eng) (f : EngTally → EngTally) : (s.setEngTally e f).alarm = s.alarm := by cases e <;> rfl
@[simp] theorem State.setEngTally_matrix (e : Eng) (f : EngTally → EngTally) : (s.setEngTally e f).matrix = s.matrix := by cases e <;> rfl
@[simp] theorem State.setEngTally_tally (e : Eng) (f : EngTally → EngTally) : (s.setEngTally e f).tally = s.tally := by cases e <;> rfl
@[simp] theorem State.setEngTally_status (e : Eng) (f : EngTally → EngTally) : (s.setEngTally e f).status = s.status := by cases e <;> rfl
@[simp] theorem State.setEngTally_keeper (e : Eng) (f : EngTally → EngTally) : (s.setEngTally e f).keeper = s.keeper := by cases e <;> rfl
@[simp] theorem State.setEngTally_words (e : Eng) (f : EngTally → EngTally) : (s.setEngTally e f).words = s.words := by cases e <;> rfl
@[simp] theorem State.setEngTally_tap (e : Eng) (f : EngTally → EngTally) : (s.setEngTally e f).tap = s.tap := by cases e <;> rfl
@[simp] theorem State.setEngTally_freeIdx (e : Eng) (f : EngTally → EngTally) : (s.setEngTally e f).freeIdx = s.freeIdx := by cases e <;> rfl

/-! ### State.setData -/

@[simp] theorem State.setData_pending (e : Eng) (f : EngData → EngData) : (s.setData e f).pending = s.pending := by cases e <;> rfl
@[simp] theorem State.setData_pos (e : Eng) (f : EngData → EngData) : (s.setData e f).pos = s.pos := by cases e <;> rfl
@[simp] theorem State.setData_frameDue (e : Eng) (f : EngData → EngData) : (s.setData e f).frameDue = s.frameDue := by cases e <;> rfl
@[simp] theorem State.setData_time (e : Eng) (f : EngData → EngData) : (s.setData e f).time = s.time := by cases e <;> rfl
@[simp] theorem State.setData_keys (e : Eng) (f : EngData → EngData) : (s.setData e f).keys = s.keys := by cases e <;> rfl
@[simp] theorem State.setData_pins (e : Eng) (f : EngData → EngData) : (s.setData e f).pins = s.pins := by cases e <;> rfl
@[simp] theorem State.setData_image (e : Eng) (f : EngData → EngData) : (s.setData e f).image = s.image := by cases e <;> rfl
@[simp] theorem State.setData_modes (e : Eng) (f : EngData → EngData) : (s.setData e f).modes = s.modes := by cases e <;> rfl
@[simp] theorem State.setData_ports (e : Eng) (f : EngData → EngData) : (s.setData e f).ports = s.ports := by cases e <;> rfl
@[simp] theorem State.setData_lda (e : Eng) (f : EngData → EngData) : (s.setData e f).lda = s.lda := by cases e <;> rfl
@[simp] theorem State.setData_ldb (e : Eng) (f : EngData → EngData) : (s.setData e f).ldb = s.ldb := by cases e <;> rfl
@[simp] theorem State.setData_duplex (e : Eng) (f : EngData → EngData) : (s.setData e f).duplex = s.duplex := by cases e <;> rfl
@[simp] theorem State.setData_pairs (e : Eng) (f : EngData → EngData) : (s.setData e f).pairs = s.pairs := by cases e <;> rfl
@[simp] theorem State.setData_capture (e : Eng) (f : EngData → EngData) : (s.setData e f).capture = s.capture := by cases e <;> rfl
@[simp] theorem State.setData_partner (e : Eng) (f : EngData → EngData) : (s.setData e f).partner = s.partner := by cases e <;> rfl
@[simp] theorem State.setData_ptime (e : Eng) (f : EngData → EngData) : (s.setData e f).ptime = s.ptime := by cases e <;> rfl
@[simp] theorem State.setData_timers (e : Eng) (f : EngData → EngData) : (s.setData e f).timers = s.timers := by cases e <;> rfl
@[simp] theorem State.setData_alarm (e : Eng) (f : EngData → EngData) : (s.setData e f).alarm = s.alarm := by cases e <;> rfl
@[simp] theorem State.setData_matrix (e : Eng) (f : EngData → EngData) : (s.setData e f).matrix = s.matrix := by cases e <;> rfl
@[simp] theorem State.setData_tally (e : Eng) (f : EngData → EngData) : (s.setData e f).tally = s.tally := by cases e <;> rfl
@[simp] theorem State.setData_status (e : Eng) (f : EngData → EngData) : (s.setData e f).status = s.status := by cases e <;> rfl
@[simp] theorem State.setData_keeper (e : Eng) (f : EngData → EngData) : (s.setData e f).keeper = s.keeper := by cases e <;> rfl
@[simp] theorem State.setData_words (e : Eng) (f : EngData → EngData) : (s.setData e f).words = s.words := by cases e <;> rfl
@[simp] theorem State.setData_tap (e : Eng) (f : EngData → EngData) : (s.setData e f).tap = s.tap := by cases e <;> rfl
@[simp] theorem State.setData_freeIdx (e : Eng) (f : EngData → EngData) : (s.setData e f).freeIdx = s.freeIdx := by cases e <;> rfl

/-! ### State.setPair -/

@[simp] theorem State.setPair_pending (g : PairId) (f : PairSt → PairSt) : (s.setPair g f).pending = s.pending := rfl
@[simp] theorem State.setPair_pos (g : PairId) (f : PairSt → PairSt) : (s.setPair g f).pos = s.pos := rfl
@[simp] theorem State.setPair_frameDue (g : PairId) (f : PairSt → PairSt) : (s.setPair g f).frameDue = s.frameDue := rfl
@[simp] theorem State.setPair_time (g : PairId) (f : PairSt → PairSt) : (s.setPair g f).time = s.time := rfl
@[simp] theorem State.setPair_keys (g : PairId) (f : PairSt → PairSt) : (s.setPair g f).keys = s.keys := rfl
@[simp] theorem State.setPair_pins (g : PairId) (f : PairSt → PairSt) : (s.setPair g f).pins = s.pins := rfl
@[simp] theorem State.setPair_image (g : PairId) (f : PairSt → PairSt) : (s.setPair g f).image = s.image := rfl
@[simp] theorem State.setPair_modes (g : PairId) (f : PairSt → PairSt) : (s.setPair g f).modes = s.modes := rfl
@[simp] theorem State.setPair_ports (g : PairId) (f : PairSt → PairSt) : (s.setPair g f).ports = s.ports := rfl
@[simp] theorem State.setPair_lda (g : PairId) (f : PairSt → PairSt) : (s.setPair g f).lda = s.lda := rfl
@[simp] theorem State.setPair_ldb (g : PairId) (f : PairSt → PairSt) : (s.setPair g f).ldb = s.ldb := rfl
@[simp] theorem State.setPair_engX (g : PairId) (f : PairSt → PairSt) : (s.setPair g f).engX = s.engX := rfl
@[simp] theorem State.setPair_engY (g : PairId) (f : PairSt → PairSt) : (s.setPair g f).engY = s.engY := rfl
@[simp] theorem State.setPair_duplex (g : PairId) (f : PairSt → PairSt) : (s.setPair g f).duplex = s.duplex := rfl
@[simp] theorem State.setPair_capture (g : PairId) (f : PairSt → PairSt) : (s.setPair g f).capture = s.capture := rfl
@[simp] theorem State.setPair_partner (g : PairId) (f : PairSt → PairSt) : (s.setPair g f).partner = s.partner := rfl
@[simp] theorem State.setPair_ptime (g : PairId) (f : PairSt → PairSt) : (s.setPair g f).ptime = s.ptime := rfl
@[simp] theorem State.setPair_timers (g : PairId) (f : PairSt → PairSt) : (s.setPair g f).timers = s.timers := rfl
@[simp] theorem State.setPair_alarm (g : PairId) (f : PairSt → PairSt) : (s.setPair g f).alarm = s.alarm := rfl
@[simp] theorem State.setPair_matrix (g : PairId) (f : PairSt → PairSt) : (s.setPair g f).matrix = s.matrix := rfl
@[simp] theorem State.setPair_tally (g : PairId) (f : PairSt → PairSt) : (s.setPair g f).tally = s.tally := rfl
@[simp] theorem State.setPair_status (g : PairId) (f : PairSt → PairSt) : (s.setPair g f).status = s.status := rfl
@[simp] theorem State.setPair_keeper (g : PairId) (f : PairSt → PairSt) : (s.setPair g f).keeper = s.keeper := rfl
@[simp] theorem State.setPair_words (g : PairId) (f : PairSt → PairSt) : (s.setPair g f).words = s.words := rfl
@[simp] theorem State.setPair_tap (g : PairId) (f : PairSt → PairSt) : (s.setPair g f).tap = s.tap := rfl
@[simp] theorem State.setPair_freeIdx (g : PairId) (f : PairSt → PairSt) : (s.setPair g f).freeIdx = s.freeIdx := rfl

/-! ### State.setPat -/

@[simp] theorem State.setPat_pending (e : Eng) (i : PatId) (f : PatSt → PatSt) : (s.setPat e i f).pending = s.pending := by cases e <;> rfl
@[simp] theorem State.setPat_pos (e : Eng) (i : PatId) (f : PatSt → PatSt) : (s.setPat e i f).pos = s.pos := by cases e <;> rfl
@[simp] theorem State.setPat_frameDue (e : Eng) (i : PatId) (f : PatSt → PatSt) : (s.setPat e i f).frameDue = s.frameDue := by cases e <;> rfl
@[simp] theorem State.setPat_time (e : Eng) (i : PatId) (f : PatSt → PatSt) : (s.setPat e i f).time = s.time := by cases e <;> rfl
@[simp] theorem State.setPat_keys (e : Eng) (i : PatId) (f : PatSt → PatSt) : (s.setPat e i f).keys = s.keys := by cases e <;> rfl
@[simp] theorem State.setPat_pins (e : Eng) (i : PatId) (f : PatSt → PatSt) : (s.setPat e i f).pins = s.pins := by cases e <;> rfl
@[simp] theorem State.setPat_image (e : Eng) (i : PatId) (f : PatSt → PatSt) : (s.setPat e i f).image = s.image := by cases e <;> rfl
@[simp] theorem State.setPat_modes (e : Eng) (i : PatId) (f : PatSt → PatSt) : (s.setPat e i f).modes = s.modes := by cases e <;> rfl
@[simp] theorem State.setPat_ports (e : Eng) (i : PatId) (f : PatSt → PatSt) : (s.setPat e i f).ports = s.ports := by cases e <;> rfl
@[simp] theorem State.setPat_lda (e : Eng) (i : PatId) (f : PatSt → PatSt) : (s.setPat e i f).lda = s.lda := by cases e <;> rfl
@[simp] theorem State.setPat_ldb (e : Eng) (i : PatId) (f : PatSt → PatSt) : (s.setPat e i f).ldb = s.ldb := by cases e <;> rfl
@[simp] theorem State.setPat_duplex (e : Eng) (i : PatId) (f : PatSt → PatSt) : (s.setPat e i f).duplex = s.duplex := by cases e <;> rfl
@[simp] theorem State.setPat_pairs (e : Eng) (i : PatId) (f : PatSt → PatSt) : (s.setPat e i f).pairs = s.pairs := by cases e <;> rfl
@[simp] theorem State.setPat_capture (e : Eng) (i : PatId) (f : PatSt → PatSt) : (s.setPat e i f).capture = s.capture := by cases e <;> rfl
@[simp] theorem State.setPat_partner (e : Eng) (i : PatId) (f : PatSt → PatSt) : (s.setPat e i f).partner = s.partner := by cases e <;> rfl
@[simp] theorem State.setPat_ptime (e : Eng) (i : PatId) (f : PatSt → PatSt) : (s.setPat e i f).ptime = s.ptime := by cases e <;> rfl
@[simp] theorem State.setPat_timers (e : Eng) (i : PatId) (f : PatSt → PatSt) : (s.setPat e i f).timers = s.timers := by cases e <;> rfl
@[simp] theorem State.setPat_alarm (e : Eng) (i : PatId) (f : PatSt → PatSt) : (s.setPat e i f).alarm = s.alarm := by cases e <;> rfl
@[simp] theorem State.setPat_matrix (e : Eng) (i : PatId) (f : PatSt → PatSt) : (s.setPat e i f).matrix = s.matrix := by cases e <;> rfl
@[simp] theorem State.setPat_tally (e : Eng) (i : PatId) (f : PatSt → PatSt) : (s.setPat e i f).tally = s.tally := by cases e <;> rfl
@[simp] theorem State.setPat_status (e : Eng) (i : PatId) (f : PatSt → PatSt) : (s.setPat e i f).status = s.status := by cases e <;> rfl
@[simp] theorem State.setPat_keeper (e : Eng) (i : PatId) (f : PatSt → PatSt) : (s.setPat e i f).keeper = s.keeper := by cases e <;> rfl
@[simp] theorem State.setPat_words (e : Eng) (i : PatId) (f : PatSt → PatSt) : (s.setPat e i f).words = s.words := by cases e <;> rfl
@[simp] theorem State.setPat_tap (e : Eng) (i : PatId) (f : PatSt → PatSt) : (s.setPat e i f).tap = s.tap := by cases e <;> rfl
@[simp] theorem State.setPat_freeIdx (e : Eng) (i : PatId) (f : PatSt → PatSt) : (s.setPat e i f).freeIdx = s.freeIdx := by cases e <;> rfl

/-! ### State.setReq -/

@[simp] theorem State.setReq_pending (e : Eng) (g : PairId) (f : PairReq → PairReq) : (s.setReq e g f).pending = s.pending := by cases e <;> rfl
@[simp] theorem State.setReq_pos (e : Eng) (g : PairId) (f : PairReq → PairReq) : (s.setReq e g f).pos = s.pos := by cases e <;> rfl
@[simp] theorem State.setReq_frameDue (e : Eng) (g : PairId) (f : PairReq → PairReq) : (s.setReq e g f).frameDue = s.frameDue := by cases e <;> rfl
@[simp] theorem State.setReq_time (e : Eng) (g : PairId) (f : PairReq → PairReq) : (s.setReq e g f).time = s.time := by cases e <;> rfl
@[simp] theorem State.setReq_keys (e : Eng) (g : PairId) (f : PairReq → PairReq) : (s.setReq e g f).keys = s.keys := by cases e <;> rfl
@[simp] theorem State.setReq_pins (e : Eng) (g : PairId) (f : PairReq → PairReq) : (s.setReq e g f).pins = s.pins := by cases e <;> rfl
@[simp] theorem State.setReq_image (e : Eng) (g : PairId) (f : PairReq → PairReq) : (s.setReq e g f).image = s.image := by cases e <;> rfl
@[simp] theorem State.setReq_modes (e : Eng) (g : PairId) (f : PairReq → PairReq) : (s.setReq e g f).modes = s.modes := by cases e <;> rfl
@[simp] theorem State.setReq_ports (e : Eng) (g : PairId) (f : PairReq → PairReq) : (s.setReq e g f).ports = s.ports := by cases e <;> rfl
@[simp] theorem State.setReq_lda (e : Eng) (g : PairId) (f : PairReq → PairReq) : (s.setReq e g f).lda = s.lda := by cases e <;> rfl
@[simp] theorem State.setReq_ldb (e : Eng) (g : PairId) (f : PairReq → PairReq) : (s.setReq e g f).ldb = s.ldb := by cases e <;> rfl
@[simp] theorem State.setReq_duplex (e : Eng) (g : PairId) (f : PairReq → PairReq) : (s.setReq e g f).duplex = s.duplex := by cases e <;> rfl
@[simp] theorem State.setReq_pairs (e : Eng) (g : PairId) (f : PairReq → PairReq) : (s.setReq e g f).pairs = s.pairs := by cases e <;> rfl
@[simp] theorem State.setReq_capture (e : Eng) (g : PairId) (f : PairReq → PairReq) : (s.setReq e g f).capture = s.capture := by cases e <;> rfl
@[simp] theorem State.setReq_partner (e : Eng) (g : PairId) (f : PairReq → PairReq) : (s.setReq e g f).partner = s.partner := by cases e <;> rfl
@[simp] theorem State.setReq_ptime (e : Eng) (g : PairId) (f : PairReq → PairReq) : (s.setReq e g f).ptime = s.ptime := by cases e <;> rfl
@[simp] theorem State.setReq_timers (e : Eng) (g : PairId) (f : PairReq → PairReq) : (s.setReq e g f).timers = s.timers := by cases e <;> rfl
@[simp] theorem State.setReq_alarm (e : Eng) (g : PairId) (f : PairReq → PairReq) : (s.setReq e g f).alarm = s.alarm := by cases e <;> rfl
@[simp] theorem State.setReq_matrix (e : Eng) (g : PairId) (f : PairReq → PairReq) : (s.setReq e g f).matrix = s.matrix := by cases e <;> rfl
@[simp] theorem State.setReq_tally (e : Eng) (g : PairId) (f : PairReq → PairReq) : (s.setReq e g f).tally = s.tally := by cases e <;> rfl
@[simp] theorem State.setReq_status (e : Eng) (g : PairId) (f : PairReq → PairReq) : (s.setReq e g f).status = s.status := by cases e <;> rfl
@[simp] theorem State.setReq_keeper (e : Eng) (g : PairId) (f : PairReq → PairReq) : (s.setReq e g f).keeper = s.keeper := by cases e <;> rfl
@[simp] theorem State.setReq_words (e : Eng) (g : PairId) (f : PairReq → PairReq) : (s.setReq e g f).words = s.words := by cases e <;> rfl
@[simp] theorem State.setReq_tap (e : Eng) (g : PairId) (f : PairReq → PairReq) : (s.setReq e g f).tap = s.tap := by cases e <;> rfl
@[simp] theorem State.setReq_freeIdx (e : Eng) (g : PairId) (f : PairReq → PairReq) : (s.setReq e g f).freeIdx = s.freeIdx := by cases e <;> rfl

/-! ### State.setTimer -/

@[simp] theorem State.setTimer_pending (i : TimerId) (f : Timer → Timer) : (s.setTimer i f).pending = s.pending := rfl
@[simp] theorem State.setTimer_pos (i : TimerId) (f : Timer → Timer) : (s.setTimer i f).pos = s.pos := rfl
@[simp] theorem State.setTimer_frameDue (i : TimerId) (f : Timer → Timer) : (s.setTimer i f).frameDue = s.frameDue := rfl
@[simp] theorem State.setTimer_time (i : TimerId) (f : Timer → Timer) : (s.setTimer i f).time = s.time := rfl
@[simp] theorem State.setTimer_keys (i : TimerId) (f : Timer → Timer) : (s.setTimer i f).keys = s.keys := rfl
@[simp] theorem State.setTimer_pins (i : TimerId) (f : Timer → Timer) : (s.setTimer i f).pins = s.pins := rfl
@[simp] theorem State.setTimer_image (i : TimerId) (f : Timer → Timer) : (s.setTimer i f).image = s.image := rfl
@[simp] theorem State.setTimer_modes (i : TimerId) (f : Timer → Timer) : (s.setTimer i f).modes = s.modes := rfl
@[simp] theorem State.setTimer_ports (i : TimerId) (f : Timer → Timer) : (s.setTimer i f).ports = s.ports := rfl
@[simp] theorem State.setTimer_lda (i : TimerId) (f : Timer → Timer) : (s.setTimer i f).lda = s.lda := rfl
@[simp] theorem State.setTimer_ldb (i : TimerId) (f : Timer → Timer) : (s.setTimer i f).ldb = s.ldb := rfl
@[simp] theorem State.setTimer_engX (i : TimerId) (f : Timer → Timer) : (s.setTimer i f).engX = s.engX := rfl
@[simp] theorem State.setTimer_engY (i : TimerId) (f : Timer → Timer) : (s.setTimer i f).engY = s.engY := rfl
@[simp] theorem State.setTimer_duplex (i : TimerId) (f : Timer → Timer) : (s.setTimer i f).duplex = s.duplex := rfl
@[simp] theorem State.setTimer_pairs (i : TimerId) (f : Timer → Timer) : (s.setTimer i f).pairs = s.pairs := rfl
@[simp] theorem State.setTimer_capture (i : TimerId) (f : Timer → Timer) : (s.setTimer i f).capture = s.capture := rfl
@[simp] theorem State.setTimer_partner (i : TimerId) (f : Timer → Timer) : (s.setTimer i f).partner = s.partner := rfl
@[simp] theorem State.setTimer_ptime (i : TimerId) (f : Timer → Timer) : (s.setTimer i f).ptime = s.ptime := rfl
@[simp] theorem State.setTimer_alarm (i : TimerId) (f : Timer → Timer) : (s.setTimer i f).alarm = s.alarm := rfl
@[simp] theorem State.setTimer_matrix (i : TimerId) (f : Timer → Timer) : (s.setTimer i f).matrix = s.matrix := rfl
@[simp] theorem State.setTimer_tally (i : TimerId) (f : Timer → Timer) : (s.setTimer i f).tally = s.tally := rfl
@[simp] theorem State.setTimer_status (i : TimerId) (f : Timer → Timer) : (s.setTimer i f).status = s.status := rfl
@[simp] theorem State.setTimer_keeper (i : TimerId) (f : Timer → Timer) : (s.setTimer i f).keeper = s.keeper := rfl
@[simp] theorem State.setTimer_words (i : TimerId) (f : Timer → Timer) : (s.setTimer i f).words = s.words := rfl
@[simp] theorem State.setTimer_tap (i : TimerId) (f : Timer → Timer) : (s.setTimer i f).tap = s.tap := rfl
@[simp] theorem State.setTimer_freeIdx (i : TimerId) (f : Timer → Timer) : (s.setTimer i f).freeIdx = s.freeIdx := rfl

/-! ### State.raise -/

@[simp] theorem State.raise_pending (b : AlarmBit) : (s.raise b).pending = s.pending := rfl
@[simp] theorem State.raise_pos (b : AlarmBit) : (s.raise b).pos = s.pos := rfl
@[simp] theorem State.raise_frameDue (b : AlarmBit) : (s.raise b).frameDue = s.frameDue := rfl
@[simp] theorem State.raise_time (b : AlarmBit) : (s.raise b).time = s.time := rfl
@[simp] theorem State.raise_keys (b : AlarmBit) : (s.raise b).keys = s.keys := rfl
@[simp] theorem State.raise_pins (b : AlarmBit) : (s.raise b).pins = s.pins := rfl
@[simp] theorem State.raise_image (b : AlarmBit) : (s.raise b).image = s.image := rfl
@[simp] theorem State.raise_modes (b : AlarmBit) : (s.raise b).modes = s.modes := rfl
@[simp] theorem State.raise_ports (b : AlarmBit) : (s.raise b).ports = s.ports := rfl
@[simp] theorem State.raise_lda (b : AlarmBit) : (s.raise b).lda = s.lda := rfl
@[simp] theorem State.raise_ldb (b : AlarmBit) : (s.raise b).ldb = s.ldb := rfl
@[simp] theorem State.raise_engX (b : AlarmBit) : (s.raise b).engX = s.engX := rfl
@[simp] theorem State.raise_engY (b : AlarmBit) : (s.raise b).engY = s.engY := rfl
@[simp] theorem State.raise_duplex (b : AlarmBit) : (s.raise b).duplex = s.duplex := rfl
@[simp] theorem State.raise_pairs (b : AlarmBit) : (s.raise b).pairs = s.pairs := rfl
@[simp] theorem State.raise_capture (b : AlarmBit) : (s.raise b).capture = s.capture := rfl
@[simp] theorem State.raise_partner (b : AlarmBit) : (s.raise b).partner = s.partner := rfl
@[simp] theorem State.raise_ptime (b : AlarmBit) : (s.raise b).ptime = s.ptime := rfl
@[simp] theorem State.raise_timers (b : AlarmBit) : (s.raise b).timers = s.timers := rfl
@[simp] theorem State.raise_matrix (b : AlarmBit) : (s.raise b).matrix = s.matrix := rfl
@[simp] theorem State.raise_tally (b : AlarmBit) : (s.raise b).tally = s.tally := rfl
@[simp] theorem State.raise_status (b : AlarmBit) : (s.raise b).status = s.status := rfl
@[simp] theorem State.raise_keeper (b : AlarmBit) : (s.raise b).keeper = s.keeper := rfl
@[simp] theorem State.raise_words (b : AlarmBit) : (s.raise b).words = s.words := rfl
@[simp] theorem State.raise_tap (b : AlarmBit) : (s.raise b).tap = s.tap := rfl
@[simp] theorem State.raise_freeIdx (b : AlarmBit) : (s.raise b).freeIdx = s.freeIdx := rfl

/-! ### State.lower -/

@[simp] theorem State.lower_pending (b : AlarmBit) : (s.lower b).pending = s.pending := rfl
@[simp] theorem State.lower_pos (b : AlarmBit) : (s.lower b).pos = s.pos := rfl
@[simp] theorem State.lower_frameDue (b : AlarmBit) : (s.lower b).frameDue = s.frameDue := rfl
@[simp] theorem State.lower_time (b : AlarmBit) : (s.lower b).time = s.time := rfl
@[simp] theorem State.lower_keys (b : AlarmBit) : (s.lower b).keys = s.keys := rfl
@[simp] theorem State.lower_pins (b : AlarmBit) : (s.lower b).pins = s.pins := rfl
@[simp] theorem State.lower_image (b : AlarmBit) : (s.lower b).image = s.image := rfl
@[simp] theorem State.lower_modes (b : AlarmBit) : (s.lower b).modes = s.modes := rfl
@[simp] theorem State.lower_ports (b : AlarmBit) : (s.lower b).ports = s.ports := rfl
@[simp] theorem State.lower_lda (b : AlarmBit) : (s.lower b).lda = s.lda := rfl
@[simp] theorem State.lower_ldb (b : AlarmBit) : (s.lower b).ldb = s.ldb := rfl
@[simp] theorem State.lower_engX (b : AlarmBit) : (s.lower b).engX = s.engX := rfl
@[simp] theorem State.lower_engY (b : AlarmBit) : (s.lower b).engY = s.engY := rfl
@[simp] theorem State.lower_duplex (b : AlarmBit) : (s.lower b).duplex = s.duplex := rfl
@[simp] theorem State.lower_pairs (b : AlarmBit) : (s.lower b).pairs = s.pairs := rfl
@[simp] theorem State.lower_capture (b : AlarmBit) : (s.lower b).capture = s.capture := rfl
@[simp] theorem State.lower_partner (b : AlarmBit) : (s.lower b).partner = s.partner := rfl
@[simp] theorem State.lower_ptime (b : AlarmBit) : (s.lower b).ptime = s.ptime := rfl
@[simp] theorem State.lower_timers (b : AlarmBit) : (s.lower b).timers = s.timers := rfl
@[simp] theorem State.lower_matrix (b : AlarmBit) : (s.lower b).matrix = s.matrix := rfl
@[simp] theorem State.lower_tally (b : AlarmBit) : (s.lower b).tally = s.tally := rfl
@[simp] theorem State.lower_status (b : AlarmBit) : (s.lower b).status = s.status := rfl
@[simp] theorem State.lower_keeper (b : AlarmBit) : (s.lower b).keeper = s.keeper := rfl
@[simp] theorem State.lower_words (b : AlarmBit) : (s.lower b).words = s.words := rfl
@[simp] theorem State.lower_tap (b : AlarmBit) : (s.lower b).tap = s.tap := rfl
@[simp] theorem State.lower_freeIdx (b : AlarmBit) : (s.lower b).freeIdx = s.freeIdx := rfl

/-! ### State.setAlarm -/

@[simp] theorem State.setAlarm_pending (b : AlarmBit) (on : Bool) : (s.setAlarm b on).pending = s.pending := by cases on <;> rfl
@[simp] theorem State.setAlarm_pos (b : AlarmBit) (on : Bool) : (s.setAlarm b on).pos = s.pos := by cases on <;> rfl
@[simp] theorem State.setAlarm_frameDue (b : AlarmBit) (on : Bool) : (s.setAlarm b on).frameDue = s.frameDue := by cases on <;> rfl
@[simp] theorem State.setAlarm_time (b : AlarmBit) (on : Bool) : (s.setAlarm b on).time = s.time := by cases on <;> rfl
@[simp] theorem State.setAlarm_keys (b : AlarmBit) (on : Bool) : (s.setAlarm b on).keys = s.keys := by cases on <;> rfl
@[simp] theorem State.setAlarm_pins (b : AlarmBit) (on : Bool) : (s.setAlarm b on).pins = s.pins := by cases on <;> rfl
@[simp] theorem State.setAlarm_image (b : AlarmBit) (on : Bool) : (s.setAlarm b on).image = s.image := by cases on <;> rfl
@[simp] theorem State.setAlarm_modes (b : AlarmBit) (on : Bool) : (s.setAlarm b on).modes = s.modes := by cases on <;> rfl
@[simp] theorem State.setAlarm_ports (b : AlarmBit) (on : Bool) : (s.setAlarm b on).ports = s.ports := by cases on <;> rfl
@[simp] theorem State.setAlarm_lda (b : AlarmBit) (on : Bool) : (s.setAlarm b on).lda = s.lda := by cases on <;> rfl
@[simp] theorem State.setAlarm_ldb (b : AlarmBit) (on : Bool) : (s.setAlarm b on).ldb = s.ldb := by cases on <;> rfl
@[simp] theorem State.setAlarm_engX (b : AlarmBit) (on : Bool) : (s.setAlarm b on).engX = s.engX := by cases on <;> rfl
@[simp] theorem State.setAlarm_engY (b : AlarmBit) (on : Bool) : (s.setAlarm b on).engY = s.engY := by cases on <;> rfl
@[simp] theorem State.setAlarm_duplex (b : AlarmBit) (on : Bool) : (s.setAlarm b on).duplex = s.duplex := by cases on <;> rfl
@[simp] theorem State.setAlarm_pairs (b : AlarmBit) (on : Bool) : (s.setAlarm b on).pairs = s.pairs := by cases on <;> rfl
@[simp] theorem State.setAlarm_capture (b : AlarmBit) (on : Bool) : (s.setAlarm b on).capture = s.capture := by cases on <;> rfl
@[simp] theorem State.setAlarm_partner (b : AlarmBit) (on : Bool) : (s.setAlarm b on).partner = s.partner := by cases on <;> rfl
@[simp] theorem State.setAlarm_ptime (b : AlarmBit) (on : Bool) : (s.setAlarm b on).ptime = s.ptime := by cases on <;> rfl
@[simp] theorem State.setAlarm_timers (b : AlarmBit) (on : Bool) : (s.setAlarm b on).timers = s.timers := by cases on <;> rfl
@[simp] theorem State.setAlarm_matrix (b : AlarmBit) (on : Bool) : (s.setAlarm b on).matrix = s.matrix := by cases on <;> rfl
@[simp] theorem State.setAlarm_tally (b : AlarmBit) (on : Bool) : (s.setAlarm b on).tally = s.tally := by cases on <;> rfl
@[simp] theorem State.setAlarm_status (b : AlarmBit) (on : Bool) : (s.setAlarm b on).status = s.status := by cases on <;> rfl
@[simp] theorem State.setAlarm_keeper (b : AlarmBit) (on : Bool) : (s.setAlarm b on).keeper = s.keeper := by cases on <;> rfl
@[simp] theorem State.setAlarm_words (b : AlarmBit) (on : Bool) : (s.setAlarm b on).words = s.words := by cases on <;> rfl
@[simp] theorem State.setAlarm_tap (b : AlarmBit) (on : Bool) : (s.setAlarm b on).tap = s.tap := by cases on <;> rfl
@[simp] theorem State.setAlarm_freeIdx (b : AlarmBit) (on : Bool) : (s.setAlarm b on).freeIdx = s.freeIdx := by cases on <;> rfl

/-! ### State.flagImage -/

@[simp] theorem State.flagImage_pending (b : ImageBit) : (s.flagImage b).pending = s.pending := rfl
@[simp] theorem State.flagImage_pos (b : ImageBit) : (s.flagImage b).pos = s.pos := rfl
@[simp] theorem State.flagImage_frameDue (b : ImageBit) : (s.flagImage b).frameDue = s.frameDue := rfl
@[simp] theorem State.flagImage_time (b : ImageBit) : (s.flagImage b).time = s.time := rfl
@[simp] theorem State.flagImage_keys (b : ImageBit) : (s.flagImage b).keys = s.keys := rfl
@[simp] theorem State.flagImage_pins (b : ImageBit) : (s.flagImage b).pins = s.pins := rfl
@[simp] theorem State.flagImage_modes (b : ImageBit) : (s.flagImage b).modes = s.modes := rfl
@[simp] theorem State.flagImage_ports (b : ImageBit) : (s.flagImage b).ports = s.ports := rfl
@[simp] theorem State.flagImage_lda (b : ImageBit) : (s.flagImage b).lda = s.lda := rfl
@[simp] theorem State.flagImage_ldb (b : ImageBit) : (s.flagImage b).ldb = s.ldb := rfl
@[simp] theorem State.flagImage_engX (b : ImageBit) : (s.flagImage b).engX = s.engX := rfl
@[simp] theorem State.flagImage_engY (b : ImageBit) : (s.flagImage b).engY = s.engY := rfl
@[simp] theorem State.flagImage_duplex (b : ImageBit) : (s.flagImage b).duplex = s.duplex := rfl
@[simp] theorem State.flagImage_pairs (b : ImageBit) : (s.flagImage b).pairs = s.pairs := rfl
@[simp] theorem State.flagImage_capture (b : ImageBit) : (s.flagImage b).capture = s.capture := rfl
@[simp] theorem State.flagImage_partner (b : ImageBit) : (s.flagImage b).partner = s.partner := rfl
@[simp] theorem State.flagImage_ptime (b : ImageBit) : (s.flagImage b).ptime = s.ptime := rfl
@[simp] theorem State.flagImage_timers (b : ImageBit) : (s.flagImage b).timers = s.timers := rfl
@[simp] theorem State.flagImage_alarm (b : ImageBit) : (s.flagImage b).alarm = s.alarm := rfl
@[simp] theorem State.flagImage_matrix (b : ImageBit) : (s.flagImage b).matrix = s.matrix := rfl
@[simp] theorem State.flagImage_tally (b : ImageBit) : (s.flagImage b).tally = s.tally := rfl
@[simp] theorem State.flagImage_status (b : ImageBit) : (s.flagImage b).status = s.status := rfl
@[simp] theorem State.flagImage_keeper (b : ImageBit) : (s.flagImage b).keeper = s.keeper := rfl
@[simp] theorem State.flagImage_words (b : ImageBit) : (s.flagImage b).words = s.words := rfl
@[simp] theorem State.flagImage_tap (b : ImageBit) : (s.flagImage b).tap = s.tap := rfl
@[simp] theorem State.flagImage_freeIdx (b : ImageBit) : (s.flagImage b).freeIdx = s.freeIdx := rfl

/-! ### State.flagPartner -/

@[simp] theorem State.flagPartner_pending (b : PartnerBit) : (s.flagPartner b).pending = s.pending := rfl
@[simp] theorem State.flagPartner_pos (b : PartnerBit) : (s.flagPartner b).pos = s.pos := rfl
@[simp] theorem State.flagPartner_frameDue (b : PartnerBit) : (s.flagPartner b).frameDue = s.frameDue := rfl
@[simp] theorem State.flagPartner_time (b : PartnerBit) : (s.flagPartner b).time = s.time := rfl
@[simp] theorem State.flagPartner_keys (b : PartnerBit) : (s.flagPartner b).keys = s.keys := rfl
@[simp] theorem State.flagPartner_pins (b : PartnerBit) : (s.flagPartner b).pins = s.pins := rfl
@[simp] theorem State.flagPartner_image (b : PartnerBit) : (s.flagPartner b).image = s.image := rfl
@[simp] theorem State.flagPartner_modes (b : PartnerBit) : (s.flagPartner b).modes = s.modes := rfl
@[simp] theorem State.flagPartner_ports (b : PartnerBit) : (s.flagPartner b).ports = s.ports := rfl
@[simp] theorem State.flagPartner_lda (b : PartnerBit) : (s.flagPartner b).lda = s.lda := rfl
@[simp] theorem State.flagPartner_ldb (b : PartnerBit) : (s.flagPartner b).ldb = s.ldb := rfl
@[simp] theorem State.flagPartner_engX (b : PartnerBit) : (s.flagPartner b).engX = s.engX := rfl
@[simp] theorem State.flagPartner_engY (b : PartnerBit) : (s.flagPartner b).engY = s.engY := rfl
@[simp] theorem State.flagPartner_duplex (b : PartnerBit) : (s.flagPartner b).duplex = s.duplex := rfl
@[simp] theorem State.flagPartner_pairs (b : PartnerBit) : (s.flagPartner b).pairs = s.pairs := rfl
@[simp] theorem State.flagPartner_capture (b : PartnerBit) : (s.flagPartner b).capture = s.capture := rfl
@[simp] theorem State.flagPartner_ptime (b : PartnerBit) : (s.flagPartner b).ptime = s.ptime := rfl
@[simp] theorem State.flagPartner_timers (b : PartnerBit) : (s.flagPartner b).timers = s.timers := rfl
@[simp] theorem State.flagPartner_alarm (b : PartnerBit) : (s.flagPartner b).alarm = s.alarm := rfl
@[simp] theorem State.flagPartner_matrix (b : PartnerBit) : (s.flagPartner b).matrix = s.matrix := rfl
@[simp] theorem State.flagPartner_tally (b : PartnerBit) : (s.flagPartner b).tally = s.tally := rfl
@[simp] theorem State.flagPartner_status (b : PartnerBit) : (s.flagPartner b).status = s.status := rfl
@[simp] theorem State.flagPartner_keeper (b : PartnerBit) : (s.flagPartner b).keeper = s.keeper := rfl
@[simp] theorem State.flagPartner_words (b : PartnerBit) : (s.flagPartner b).words = s.words := rfl
@[simp] theorem State.flagPartner_tap (b : PartnerBit) : (s.flagPartner b).tap = s.tap := rfl
@[simp] theorem State.flagPartner_freeIdx (b : PartnerBit) : (s.flagPartner b).freeIdx = s.freeIdx := rfl

/-! ### State.flagUnassigned -/

@[simp] theorem State.flagUnassigned_pending (i : Nat) : (s.flagUnassigned i).pending = s.pending := rfl
@[simp] theorem State.flagUnassigned_pos (i : Nat) : (s.flagUnassigned i).pos = s.pos := rfl
@[simp] theorem State.flagUnassigned_frameDue (i : Nat) : (s.flagUnassigned i).frameDue = s.frameDue := rfl
@[simp] theorem State.flagUnassigned_time (i : Nat) : (s.flagUnassigned i).time = s.time := rfl
@[simp] theorem State.flagUnassigned_pins (i : Nat) : (s.flagUnassigned i).pins = s.pins := rfl
@[simp] theorem State.flagUnassigned_image (i : Nat) : (s.flagUnassigned i).image = s.image := rfl
@[simp] theorem State.flagUnassigned_modes (i : Nat) : (s.flagUnassigned i).modes = s.modes := rfl
@[simp] theorem State.flagUnassigned_ports (i : Nat) : (s.flagUnassigned i).ports = s.ports := rfl
@[simp] theorem State.flagUnassigned_lda (i : Nat) : (s.flagUnassigned i).lda = s.lda := rfl
@[simp] theorem State.flagUnassigned_ldb (i : Nat) : (s.flagUnassigned i).ldb = s.ldb := rfl
@[simp] theorem State.flagUnassigned_engX (i : Nat) : (s.flagUnassigned i).engX = s.engX := rfl
@[simp] theorem State.flagUnassigned_engY (i : Nat) : (s.flagUnassigned i).engY = s.engY := rfl
@[simp] theorem State.flagUnassigned_duplex (i : Nat) : (s.flagUnassigned i).duplex = s.duplex := rfl
@[simp] theorem State.flagUnassigned_pairs (i : Nat) : (s.flagUnassigned i).pairs = s.pairs := rfl
@[simp] theorem State.flagUnassigned_capture (i : Nat) : (s.flagUnassigned i).capture = s.capture := rfl
@[simp] theorem State.flagUnassigned_partner (i : Nat) : (s.flagUnassigned i).partner = s.partner := rfl
@[simp] theorem State.flagUnassigned_ptime (i : Nat) : (s.flagUnassigned i).ptime = s.ptime := rfl
@[simp] theorem State.flagUnassigned_timers (i : Nat) : (s.flagUnassigned i).timers = s.timers := rfl
@[simp] theorem State.flagUnassigned_alarm (i : Nat) : (s.flagUnassigned i).alarm = s.alarm := rfl
@[simp] theorem State.flagUnassigned_matrix (i : Nat) : (s.flagUnassigned i).matrix = s.matrix := rfl
@[simp] theorem State.flagUnassigned_tally (i : Nat) : (s.flagUnassigned i).tally = s.tally := rfl
@[simp] theorem State.flagUnassigned_status (i : Nat) : (s.flagUnassigned i).status = s.status := rfl
@[simp] theorem State.flagUnassigned_keeper (i : Nat) : (s.flagUnassigned i).keeper = s.keeper := rfl
@[simp] theorem State.flagUnassigned_words (i : Nat) : (s.flagUnassigned i).words = s.words := rfl
@[simp] theorem State.flagUnassigned_tap (i : Nat) : (s.flagUnassigned i).tap = s.tap := rfl
@[simp] theorem State.flagUnassigned_freeIdx (i : Nat) : (s.flagUnassigned i).freeIdx = s.freeIdx := rfl

/-! ### State.flagPower -/

@[simp] theorem State.flagPower_pending (i : Nat) : (s.flagPower i).pending = s.pending := rfl
@[simp] theorem State.flagPower_pos (i : Nat) : (s.flagPower i).pos = s.pos := rfl
@[simp] theorem State.flagPower_frameDue (i : Nat) : (s.flagPower i).frameDue = s.frameDue := rfl
@[simp] theorem State.flagPower_time (i : Nat) : (s.flagPower i).time = s.time := rfl
@[simp] theorem State.flagPower_keys (i : Nat) : (s.flagPower i).keys = s.keys := rfl
@[simp] theorem State.flagPower_pins (i : Nat) : (s.flagPower i).pins = s.pins := rfl
@[simp] theorem State.flagPower_image (i : Nat) : (s.flagPower i).image = s.image := rfl
@[simp] theorem State.flagPower_modes (i : Nat) : (s.flagPower i).modes = s.modes := rfl
@[simp] theorem State.flagPower_ports (i : Nat) : (s.flagPower i).ports = s.ports := rfl
@[simp] theorem State.flagPower_lda (i : Nat) : (s.flagPower i).lda = s.lda := rfl
@[simp] theorem State.flagPower_ldb (i : Nat) : (s.flagPower i).ldb = s.ldb := rfl
@[simp] theorem State.flagPower_engX (i : Nat) : (s.flagPower i).engX = s.engX := rfl
@[simp] theorem State.flagPower_engY (i : Nat) : (s.flagPower i).engY = s.engY := rfl
@[simp] theorem State.flagPower_duplex (i : Nat) : (s.flagPower i).duplex = s.duplex := rfl
@[simp] theorem State.flagPower_pairs (i : Nat) : (s.flagPower i).pairs = s.pairs := rfl
@[simp] theorem State.flagPower_capture (i : Nat) : (s.flagPower i).capture = s.capture := rfl
@[simp] theorem State.flagPower_partner (i : Nat) : (s.flagPower i).partner = s.partner := rfl
@[simp] theorem State.flagPower_ptime (i : Nat) : (s.flagPower i).ptime = s.ptime := rfl
@[simp] theorem State.flagPower_timers (i : Nat) : (s.flagPower i).timers = s.timers := rfl
@[simp] theorem State.flagPower_alarm (i : Nat) : (s.flagPower i).alarm = s.alarm := rfl
@[simp] theorem State.flagPower_matrix (i : Nat) : (s.flagPower i).matrix = s.matrix := rfl
@[simp] theorem State.flagPower_tally (i : Nat) : (s.flagPower i).tally = s.tally := rfl
@[simp] theorem State.flagPower_status (i : Nat) : (s.flagPower i).status = s.status := rfl
@[simp] theorem State.flagPower_words (i : Nat) : (s.flagPower i).words = s.words := rfl
@[simp] theorem State.flagPower_tap (i : Nat) : (s.flagPower i).tap = s.tap := rfl
@[simp] theorem State.flagPower_freeIdx (i : Nat) : (s.flagPower i).freeIdx = s.freeIdx := rfl

/-! ### State.countRide -/

@[simp] theorem State.countRide_pending : (s.countRide).pending = s.pending := rfl
@[simp] theorem State.countRide_pos : (s.countRide).pos = s.pos := rfl
@[simp] theorem State.countRide_frameDue : (s.countRide).frameDue = s.frameDue := rfl
@[simp] theorem State.countRide_time : (s.countRide).time = s.time := rfl
@[simp] theorem State.countRide_keys : (s.countRide).keys = s.keys := rfl
@[simp] theorem State.countRide_pins : (s.countRide).pins = s.pins := rfl
@[simp] theorem State.countRide_image : (s.countRide).image = s.image := rfl
@[simp] theorem State.countRide_modes : (s.countRide).modes = s.modes := rfl
@[simp] theorem State.countRide_ports : (s.countRide).ports = s.ports := rfl
@[simp] theorem State.countRide_lda : (s.countRide).lda = s.lda := rfl
@[simp] theorem State.countRide_ldb : (s.countRide).ldb = s.ldb := rfl
@[simp] theorem State.countRide_engX : (s.countRide).engX = s.engX := rfl
@[simp] theorem State.countRide_engY : (s.countRide).engY = s.engY := rfl
@[simp] theorem State.countRide_duplex : (s.countRide).duplex = s.duplex := rfl
@[simp] theorem State.countRide_pairs : (s.countRide).pairs = s.pairs := rfl
@[simp] theorem State.countRide_capture : (s.countRide).capture = s.capture := rfl
@[simp] theorem State.countRide_partner : (s.countRide).partner = s.partner := rfl
@[simp] theorem State.countRide_ptime : (s.countRide).ptime = s.ptime := rfl
@[simp] theorem State.countRide_timers : (s.countRide).timers = s.timers := rfl
@[simp] theorem State.countRide_alarm : (s.countRide).alarm = s.alarm := rfl
@[simp] theorem State.countRide_matrix : (s.countRide).matrix = s.matrix := rfl
@[simp] theorem State.countRide_tally : (s.countRide).tally = s.tally := rfl
@[simp] theorem State.countRide_status : (s.countRide).status = s.status := rfl
@[simp] theorem State.countRide_words : (s.countRide).words = s.words := rfl
@[simp] theorem State.countRide_tap : (s.countRide).tap = s.tap := rfl
@[simp] theorem State.countRide_freeIdx : (s.countRide).freeIdx = s.freeIdx := rfl

/-! ### One element of a vector, one port, one die, one engine -/

@[simp] theorem updV_get_same {α : Type} {n : Nat} (v : Vector α n) (i : Fin n) (f : α → α) : (updV v i f)[i.val] = f v[i.val] := by
  simp [updV]

/-- The same read by the index itself. -/
theorem updV_at {α : Type} {n : Nat} (v : Vector α n) (i : Fin n) (f : α → α) : (updV v i f)[i] = f v[i] := updV_get_same v i f

theorem updV_get_ne {α : Type} {n : Nat} (v : Vector α n) {i j : Fin n} (f : α → α) (h : j ≠ i) : (updV v i f)[j] = v[j] := by
  have h' : i.val ≠ j.val := fun e => h (Fin.ext e.symm)
  simp [updV, h']

@[simp] theorem State.setPort_get_same (p : Port) (f : PortSt → PortSt) : (s.setPort p f).ports[p.val] = f s.ports[p.val] := by
  simp [State.setPort]

theorem State.setPort_get_ne {p q : Port} (f : PortSt → PortSt) (h : q ≠ p) : (s.setPort p f).ports[q] = s.ports[q] := by
  simp only [State.setPort]; exact updV_get_ne _ _ h

@[simp] theorem State.mapPorts_get (f : Port → PortSt → PortSt) (p : Port) : (s.mapPorts f).ports[p.val] = f p s.ports[p.val] := by
  simp [State.mapPorts]

@[simp] theorem State.setPair_get_same (g : PairId) (f : PairSt → PairSt) : (s.setPair g f).pairs[g.val] = f s.pairs[g.val] := by
  simp [State.setPair]

theorem State.setPair_get_ne {g h : PairId} (f : PairSt → PairSt) (hn : h ≠ g) : (s.setPair g f).pairs[h] = s.pairs[h] := by
  simp only [State.setPair]; exact updV_get_ne _ _ hn

@[simp] theorem State.setPat_get_same (e : Eng) (i : PatId) (f : PatSt → PatSt) :
    ((s.setPat e i f).eng e).data.pats[i.val] = f (s.eng e).data.pats[i.val] := by
  cases e <;> simp [State.setPat, State.setData, State.setEng, State.eng]

theorem State.setPat_get_ne (e : Eng) {i j : PatId} (f : PatSt → PatSt) (hn : j ≠ i) :
    ((s.setPat e i f).eng e).data.pats[j] = (s.eng e).data.pats[j] := by
  cases e <;> exact updV_get_ne _ _ hn

@[simp] theorem State.setReq_get_same (e : Eng) (g : PairId) (f : PairReq → PairReq) :
    ((s.setReq e g f).eng e).data.reqs[g.val] = f (s.eng e).data.reqs[g.val] := by
  cases e <;> simp [State.setReq, State.setData, State.setEng, State.eng]

theorem State.setReq_get_ne (e : Eng) {g h : PairId} (f : PairReq → PairReq) (hn : h ≠ g) :
    ((s.setReq e g f).eng e).data.reqs[h] = (s.eng e).data.reqs[h] := by
  cases e <;> exact updV_get_ne _ _ hn

@[simp] theorem State.setTimer_get_same (i : TimerId) (f : Timer → Timer) : (s.setTimer i f).timers[i.val] = f s.timers[i.val] := by
  simp [State.setTimer]

theorem State.setTimer_get_ne {i j : TimerId} (f : Timer → Timer) (hn : j ≠ i) : (s.setTimer i f).timers[j] = s.timers[j] := by
  simp only [State.setTimer]; exact updV_get_ne _ _ hn

@[simp] theorem State.setDie_get_same (d : LineDie) (f : DieSt → DieSt) : (s.setDie d f).die d = f (s.die d) := by
  cases d <;> rfl

@[simp] theorem State.setEng_get_same (e : Eng) (f : EngSt → EngSt) : (s.setEng e f).eng e = f (s.eng e) := by
  cases e <;> rfl

@[simp] theorem State.setEng_get_other (e : Eng) (f : EngSt → EngSt) : (s.setEng e f).eng e.other = s.eng e.other := by
  cases e <;> rfl

/-! ### The alarm conditions -/

@[simp] theorem setBit_get {w : Nat} (m : BitVec w) (i : Nat) (b : Bool) (h : i < w) : (setBit m i b).getLsbD i = b := by
  cases b <;> simp [setBit, h]

theorem setBit_get_ne {w : Nat} (m : BitVec w) (i j : Nat) (b : Bool) (h : j ≠ i) : (setBit m i b).getLsbD j = m.getLsbD j := by
  rcases Nat.lt_or_ge j w with hj | hj
  · cases b <;> simp [setBit, hj] <;> intros <;> omega
  · simp [BitVec.getLsbD_of_ge _ _ hj]

@[simp] theorem Alarm.raise_on (a : Alarm) (now : Nat) (b : AlarmBit) : (a.raise now b).on b = true := by
  simp only [Alarm.on, Alarm.raise]; exact setBit_get _ _ _ (by cases b <;> decide)

@[simp] theorem Alarm.clear_on (a : Alarm) (b : AlarmBit) : (a.clear b).on b = false := by
  simp only [Alarm.on, Alarm.clear]; exact setBit_get _ _ _ (by cases b <;> decide)

end Sys2Proof.Machine
end

