-- ==== Sys2Proof/Laws/Clock.lean ====
section
/-! SUPPORT. Which operations leave position, counting, the power state, the odometer and the numbering alone. -/

namespace Sys2Proof.Machine

/-- Position and what goes with it: position, whether it is counted, EST, the keeper's power state and odometer, DOZE, the
corrected turn still due, the copy of the image in use, and the number of the last tally record. -/
def clock (s : State) : Pos × Bool × Bool × Power × BitVec 64 × Bool × Bool × Option Copy × BitVec 32 :=
  (s.pos, s.time.counting, s.time.est, s.keeper.power, s.keeper.odometer, s.keeper.dozing, s.keeper.coldDue, s.image.inUse,
    s.tally.seq)

/-- A record update that leaves those parts alone keeps them. -/
@[simp] theorem clock_update (b : State) (im : Image) (tm : Timebase) (kp : Keeper) (tl : Tally)
    (pending_ : List Instr) (frameDue_ : Bool) (keys_ : Keys) (pins_ : Pins) (modes_ : ModeSt) (ports_ : Vector PortSt 32) (lda_ : DieSt) (ldb_ : DieSt) (engX_ : EngSt) (engY_ : EngSt) (duplex_ : Duplex) (pairs_ : Vector PairSt 16) (capture_ : CapturePath) (partner_ : Partner) (ptime_ : PartnerTime) (timers_ : Vector Timer 16) (alarm_ : Alarm) (matrix_ : Matrix) (status_ : Status) (words_ : LastWords) (tap_ : Tap) (freeIdx_ : Nat)
    (h1 : im.inUse = b.image.inUse) (h2 : tm.counting = b.time.counting) (h3 : tm.est = b.time.est) (h4 : kp.power = b.keeper.power)
    (h5 : kp.odometer = b.keeper.odometer) (h6 : kp.dozing = b.keeper.dozing) (h7 : kp.coldDue = b.keeper.coldDue)
    (h8 : tl.seq = b.tally.seq) :
    clock (State.mk pending_ b.pos frameDue_ tm keys_ pins_ im modes_ ports_ lda_ ldb_ engX_ engY_ duplex_ pairs_ capture_ partner_ ptime_ timers_ alarm_ matrix_ tl status_ kp words_ tap_ freeIdx_) = clock b := by
  simp only [clock, h1, h2, h3, h4, h5, h6, h7, h8]

@[simp] theorem clock_ite (c : Prop) [Decidable c] (a b : State) : clock (if c then a else b) = if c then clock a else clock b := by
  split <;> rfl

@[simp] theorem clock_ite_snd {α : Type} (c : Prop) [Decidable c] (a b : α × State) :
    clock (if c then a else b).2 = if c then clock a.2 else clock b.2 := by
  split <;> rfl

@[simp] theorem clock_ite_fst {α : Type} (c : Prop) [Decidable c] (a b : State × α) :
    clock (if c then a else b).1 = if c then clock a.1 else clock b.1 := by
  split <;> rfl

@[simp] theorem clock_forEach {α : Type} (l : List α) (f : α → State → State) (h : ∀ a t, clock (f a t) = clock t) (s : State) :
    clock (forEach l f s) = clock s := by
  unfold forEach
  induction l generalizing s with
  | nil => rfl
  | cons a l ih => simp only [List.foldl_cons]; rw [ih, h]

@[simp] theorem clock_setPort (s : State) (p : Port) (f : PortSt → PortSt) : clock (State.setPort s p f) = clock s := by
  simp [clock]

@[simp] theorem clock_mapPorts (s : State) (f : Port → PortSt → PortSt) : clock (State.mapPorts s f) = clock s := by
  simp [clock]

@[simp] theorem clock_setHinge (s : State) (p : Port) (f : Hinge → Hinge) : clock (State.setHinge s p f) = clock s := by
  simp [clock]

@[simp] theorem clock_setLine (s : State) (p : Port) (f : Line → Line) : clock (State.setLine s p f) = clock s := by
  simp [clock]

@[simp] theorem clock_setFramer (s : State) (p : Port) (f : Framer → Framer) : clock (State.setFramer s p f) = clock s := by
  simp [clock]

@[simp] theorem clock_setSlip (s : State) (p : Port) (f : Slip → Slip) : clock (State.setSlip s p f) = clock s := by
  simp [clock]

@[simp] theorem clock_setRaw (s : State) (p : Port) (f : Raw → Raw) : clock (State.setRaw s p f) = clock s := by
  simp [clock]

@[simp] theorem clock_setLatch (s : State) (p : Port) (f : Latch → Latch) : clock (State.setLatch s p f) = clock s := by
  simp [clock]

@[simp] theorem clock_setDie (s : State) (d : LineDie) (f : DieSt → DieSt) : clock (State.setDie s d f) = clock s := by
  simp [clock]

@[simp] theorem clock_setEng (s : State) (e : Eng) (f : EngSt → EngSt) : clock (State.setEng s e f) = clock s := by
  simp [clock]

@[simp] theorem clock_setCtl (s : State) (e : Eng) (f : EngCtl → EngCtl) : clock (State.setCtl s e f) = clock s := by
  simp [clock]

@[simp] theorem clock_setEngTally (s : State) (e : Eng) (f : EngTally → EngTally) : clock (State.setEngTally s e f) = clock s := by
  simp [clock]

@[simp] theorem clock_setData (s : State) (e : Eng) (f : EngData → EngData) : clock (State.setData s e f) = clock s := by
  simp [clock]

@[simp] theorem clock_setPair (s : State) (g : PairId) (f : PairSt → PairSt) : clock (State.setPair s g f) = clock s := by
  simp [clock]

@[simp] theorem clock_setPat (s : State) (e : Eng) (i : PatId) (f : PatSt → PatSt) : clock (State.setPat s e i f) = clock s := by
  simp [clock]

@[simp] theorem clock_setReq (s : State) (e : Eng) (g : PairId) (f : PairReq → PairReq) : clock (State.setReq s e g f) = clock s := by
  simp [clock]

@[simp] theorem clock_setTimer (s : State) (i : TimerId) (f : Timer → Timer) : clock (State.setTimer s i f) = clock s := by
  simp [clock]

@[simp] theorem clock_raise (s : State) (b : AlarmBit) : clock (State.raise s b) = clock s := by
  simp [clock]

@[simp] theorem clock_lower (s : State) (b : AlarmBit) : clock (State.lower s b) = clock s := by
  simp [clock]

@[simp] theorem clock_setAlarm (s : State) (b : AlarmBit) (on : Bool) : clock (State.setAlarm s b on) = clock s := by
  simp [clock]

@[simp] theorem flagImage_inUse (s : State) (b : ImageBit) : (s.flagImage b).image.inUse = s.image.inUse := rfl

@[simp] theorem clock_flagImage (s : State) (b : ImageBit) : clock (s.flagImage b) = clock s := by
  simp [State.flagImage]

@[simp] theorem clock_flagPartner (s : State) (b : PartnerBit) : clock (State.flagPartner s b) = clock s := by
  simp [State.flagPartner]

@[simp] theorem clock_flagUnassigned (s : State) (i : Nat) : clock (State.flagUnassigned s i) = clock s := by
  simp [State.flagUnassigned]

@[simp] theorem clock_flagPower (s : State) (i : Nat) : clock (State.flagPower s i) = clock s := by
  simp [State.flagPower]

@[simp] theorem clock_countRide (s : State) : clock (State.countRide s) = clock s := by
  simp [State.countRide]

@[simp] theorem clock_unit (s : State) (i : TimerId) (n : Nat) : clock (State.unit s i n) = clock s := by
  simp [State.unit]

@[simp] theorem clock_tickTimer (s0 : State) (i : TimerId) (s : State) : clock (tickTimer s0 i s) = clock s := by
  simp [tickTimer]

@[simp] theorem clock_tickTimers (s : State) : clock (tickTimers s) = clock s := by
  simp [tickTimers]

@[simp] theorem clock_frameUnits (s : State) : clock (frameUnits s) = clock s := by
  simp [frameUnits]

@[simp] theorem clock_turnUnits (s : State) : clock (turnUnits s) = clock s := by
  simp [turnUnits]

@[simp] theorem clock_passEvent (i : TimerId) (n : Nat) (s : State) : clock (passEvent i n s) = clock s := by
  simp [passEvent]

@[simp] theorem clock_timerEvents (i : TimerId) (isMatch : Bool) (n : Nat) (s : State) : clock (timerEvents i isMatch n s) = clock s := by
  simp [timerEvents]

@[simp] theorem clock_doMatch (i : TimerId) (s : State) : clock (doMatch i s) = clock s := by
  simp [doMatch]

@[simp] theorem clock_doOverflow (i : TimerId) (s : State) : clock (doOverflow i s) = clock s := by
  simp [doOverflow]

@[simp] theorem clock_settleMatches (n : Nat) (i : TimerId) (s : State) : clock (settleMatches n i s) = clock s := by
  induction n generalizing s with
  | zero => rfl
  | succ n ih => simp only [settleMatches]; split <;> simp [ih]

@[simp] theorem clock_settleTimer (i : TimerId) (s : State) : clock (settleTimer i s) = clock s := by
  simp [settleTimer]

@[simp] theorem clock_settleTimers (s : State) : clock (settleTimers s) = clock s := by
  simp [settleTimers]

@[simp] theorem clock_readCapture (p : Port) (s : State) : clock (readCapture p s) = clock s := by
  simp only [readCapture]; (repeat' split) <;> simp [*]

@[simp] theorem clock_lateRead (p : Port) (s : State) : clock (lateRead p s) = clock s := by
  simp [lateRead]

@[simp] theorem clock_captureEvent (p : Port) (code : Nat) (s : State) : clock (captureEvent p code s) = clock s := by
  simp [captureEvent]

@[simp] theorem clock_readCaptures (s : State) : clock (readCaptures s) = clock s := by
  simp [readCaptures]

@[simp] theorem clock_countCell (copy : Bool) (e : Eng) (ev : SelEvent) (n : Nat) (c : Cell) (s : State) : clock (countCell copy e ev n c s) = clock s := by
  simp [countCell]

@[simp] theorem clock_countSelect (e : Eng) (ev : SelEvent) (n : Nat) (c : Cell) (s : State) : clock (countSelect e ev n c s) = clock s := by
  simp [countSelect]

@[simp] theorem clock_countCopy (e : Eng) (ev : SelEvent) (n : Nat) (c : Cell) (s : State) : clock (countCopy e ev n c s) = clock s := by
  simp [countCopy]

@[simp] theorem clock_pushUp (d : LineDie) (e : Eng) (l : LinkId) (c : Cell) (s : State) : clock (pushUp d e l c s) = clock s := by
  simp [pushUp]

@[simp] theorem clock_pushDown (d : LineDie) (e : Eng) (l : LinkId) (c : Cell) (s : State) : clock (pushDown d e l c s) = clock s := by
  simp [pushDown]

@[simp] theorem clock_sprayUp (d : LineDie) (e : Eng) (c : Cell) (s : State) : clock (sprayUp d e c s) = clock s := by
  unfold sprayUp; (repeat' split) <;> simp

@[simp] theorem clock_sprayDown (d : LineDie) (e : Eng) (c : Cell) (s : State) : clock (sprayDown d e c s) = clock s := by
  unfold sprayDown; (repeat' split) <;> simp

@[simp] theorem clock_linksTick (s : State) : clock (linksTick s) = clock s := by
  simp [linksTick]

@[simp] theorem clock_sendBeats (b : Nat) (s : State) : clock (sendBeats b s) = clock s := by
  simp [sendBeats]

@[simp] theorem clock_beatsDue (s : State) : clock (beatsDue s) = clock s := by
  simp [beatsDue]

@[simp] theorem clock_sendMoved (e : Eng) (q : QCell) (s : State) : clock (sendMoved e q s) = clock s := by
  unfold sendMoved; (repeat' split) <;> simp

@[simp] theorem clock_xbarTick (e : Eng) (s : State) : clock (xbarTick e s) = clock s := by
  simp [xbarTick]

@[simp] theorem clock_stopDrives (s : State) : clock (stopDrives s) = clock s := by
  simp [stopDrives]

@[simp] theorem clock_fabricTick (s : State) : clock (fabricTick s) = clock s := by
  simp [fabricTick]

@[simp] theorem clock_tickWork (s : State) : clock (tickWork s) = clock s := by
  simp [tickWork]

@[simp] theorem clock_linkTicks (n : Nat) (s : State) : clock (linkTicks n s) = clock s := by
  induction n generalizing s with
  | zero => rfl
  | succ n ih => simp only [linkTicks]; rw [ih, clock_linksTick]

@[simp] theorem clock_noteFall (e : Eng) (c : Cause) (s : State) : clock (noteFall e c s) = clock s := by
  simp [noteFall]

@[simp] theorem clock_lowerHealth (e : Eng) (n : Nat) (c : Cause) (s : State) : clock (lowerHealth e n c s) = clock s := by
  simp [lowerHealth]

@[simp] theorem clock_dropIncumbency (e : Eng) (s : State) : clock (dropIncumbency e s) = clock s := by
  simp [dropIncumbency]

@[simp] theorem clock_giveIncumbency (e : Eng) (s : State) : clock (giveIncumbency e s) = clock s := by
  simp [giveIncumbency]

@[simp] theorem clock_unpower (e : Eng) (s : State) : clock (unpower e s) = clock s := by
  simp [unpower]

@[simp] theorem clock_cutChannel (p : Port) (s : State) : clock (cutChannel p s) = clock s := by
  simp [cutChannel]

@[simp] theorem clock_followChannel (s0 s : State) : clock (followChannel s0 s) = clock s := by
  unfold followChannel; (repeat' split) <;> simp

@[simp] theorem clock_reconcile (p : Port) (s : State) : clock (reconcile p s) = clock s := by
  simp only [reconcile]; (repeat' split) <;> simp [*]

@[simp] theorem clock_reconcileAll (s : State) : clock (reconcileAll s) = clock s := by
  simp [reconcileAll]

@[simp] theorem clock_releaseAtOnce (f : Port → Bool) (s : State) : clock (releaseAtOnce f s) = clock s := by
  simp [releaseAtOnce]

@[simp] theorem clock_abandonInsertion (p : Port) (s : State) : clock (abandonInsertion p s) = clock s := by
  simp [abandonInsertion]

@[simp] theorem clock_doFollowDriveStart (p : Port) (s : State) : clock (doFollowDriveStart p s) = clock s := by
  simp [doFollowDriveStart]

@[simp] theorem clock_doHingeEnergise (p : Port) (s : State) : clock (doHingeEnergise p s) = clock s := by
  simp [doHingeEnergise]

@[simp] theorem clock_doTerminationOn (p : Port) (s : State) : clock (doTerminationOn p s) = clock s := by
  simp [doTerminationOn]

@[simp] theorem clock_doReleaseBegin (p : Port) (s : State) : clock (doReleaseBegin p s) = clock s := by
  simp [doReleaseBegin]

@[simp] theorem clock_doTerminationOff (p : Port) (s : State) : clock (doTerminationOff p s) = clock s := by
  simp [doTerminationOff]

@[simp] theorem clock_doReleaseComplete (p : Port) (s : State) : clock (doReleaseComplete p s) = clock s := by
  simp [doReleaseComplete]

@[simp] theorem clock_followLoop (p : Port) (s : State) : clock (followLoop p s) = clock s := by
  simp [followLoop]

@[simp] theorem clock_clearAis (p : Port) (s : State) : clock (clearAis p s) = clock s := by
  simp [clearAis]

@[simp] theorem clock_declareLos (p : Port) (s : State) : clock (declareLos p s) = clock s := by
  simp [declareLos]

@[simp] theorem clock_clearLos (p : Port) (s : State) : clock (clearLos p s) = clock s := by
  simp [clearLos]

@[simp] theorem clock_declareAis (p : Port) (s : State) : clock (declareAis p s) = clock s := by
  simp [declareAis]

@[simp] theorem clock_losDeclared (p : Port) (w : LineObs) (s : State) : clock (losDeclared p w s) = clock s := by
  simp [losDeclared]

@[simp] theorem clock_losCleared (p : Port) (w : LineObs) (s : State) : clock (losCleared p w s) = clock s := by
  simp [losCleared]

@[simp] theorem clock_aisDeclared (p : Port) (bits : List Bool) (s : State) : clock (aisDeclared p bits s) = clock s := by
  simp [aisDeclared]

@[simp] theorem clock_aisCleared (p : Port) (bits : List Bool) (s : State) : clock (aisCleared p bits s) = clock s := by
  simp [aisCleared]

@[simp] theorem clock_codingEvent (p : Port) (i : Fin 19) (s : State) : clock (codingEvent p i s) = clock s := by
  simp [codingEvent]

@[simp] theorem clock_violates (p : Port) (w : List Pulse) (i : Nat) (s : State) : clock (violates p w i s) = clock s := by
  simp [violates]

@[simp] theorem clock_exceedsZeros (p : Port) (w : List Pulse) (s : State) : clock (exceedsZeros p w s) = clock s := by
  simp [exceedsZeros]

@[simp] theorem clock_limitTransmit (p : Port) (s : State) : clock (limitTransmit p s) = clock s := by
  simp [limitTransmit]

@[simp] theorem clock_gainAlignment (p : Port) (n : Nat) (s : State) : clock (gainAlignment p n s) = clock s := by
  simp [gainAlignment]

@[simp] theorem clock_hunts (p : Port) (n : Nat) (bits : List Bool) (s : State) : clock (hunts p n bits s) = clock s := by
  simp [hunts]

@[simp] theorem clock_loseAlignment (p : Port) (s : State) : clock (loseAlignment p s) = clock s := by
  simp [loseAlignment]

@[simp] theorem clock_endAlignment (p : Port) (octets : List Byte) (s : State) : clock (endAlignment p octets s) = clock s := by
  simp [endAlignment]

@[simp] theorem clock_gainCrcMf (p : Port) (bit1 : Bool) (s : State) : clock (gainCrcMf p bit1 s) = clock s := by
  simp [gainCrcMf]

@[simp] theorem clock_fallBack (p : Port) (s : State) : clock (fallBack p s) = clock s := by
  simp [fallBack]

@[simp] theorem clock_closeWindow (p : Port) (s : State) : clock (closeWindow p s) = clock s := by
  simp [closeWindow]

@[simp] theorem clock_countBlock (p : Port) (errored second : Bool) (s : State) : clock (countBlock p errored second s) = clock s := by
  simp [countBlock]

@[simp] theorem clock_checkBlock (p : Port) (check : Bool) (s : State) : clock (checkBlock p check s) = clock s := by
  simp only [checkBlock]; (repeat' split) <;> simp [*]

@[simp] theorem clock_gainCas (p : Port) (ts16 : Byte) (s : State) : clock (gainCas p ts16 s) = clock s := by
  simp [gainCas]

@[simp] theorem clock_loseCas (p : Port) (ts16 : Byte) (s : State) : clock (loseCas p ts16 s) = clock s := by
  simp [loseCas]

@[simp] theorem clock_declareRai (p : Port) (octets : List Byte) (s : State) : clock (declareRai p octets s) = clock s := by
  simp [declareRai]

@[simp] theorem clock_clearRai (p : Port) (octets : List Byte) (s : State) : clock (clearRai p octets s) = clock s := by
  simp [clearRai]

@[simp] theorem clock_frameShows (p : Port) (octets : List Byte) (s : State) : clock (frameShows p octets s) = clock s := by
  simp [frameShows]

@[simp] theorem clock_rebase (t : Port) (s : State) : clock (rebase t s) = clock s := by
  simp [rebase]

@[simp] theorem clock_storeFrame (p : Port) (octets : List Byte) (s0 : State) : clock (storeFrame p octets s0) = clock s0 := by
  simp [storeFrame]

@[simp] theorem clock_writeFrame (p : Port) (octets : List Byte) (s : State) : clock (writeFrame p octets s) = clock s := by
  simp [writeFrame]

@[simp] theorem clock_e1Hunts (p : Port) (bits : List Bool) (s : State) : clock (e1Hunts p bits s) = clock s := by
  simp [e1Hunts]

@[simp] theorem clock_t1Hunts (p : Port) (bits : List Bool) (s : State) : clock (t1Hunts p bits s) = clock s := by
  simp [t1Hunts]

@[simp] theorem clock_crcSearchEnds (p : Port) (bit1 : Bool) (s : State) : clock (crcSearchEnds p bit1 s) = clock s := by
  simp [crcSearchEnds]

@[simp] theorem clock_fallbackEnds (p : Port) (bit1 : Bool) (s : State) : clock (fallbackEnds p bit1 s) = clock s := by
  simp [fallbackEnds]

/-- A fold that keeps them at each element keeps them. -/
theorem clock_foldl_snd {α β : Type} (f : β × State → α → β × State) (h : ∀ acc a, clock (f acc a).2 = clock acc.2) (l : List α)
    (acc : β × State) : clock (l.foldl f acc).2 = clock acc.2 := by
  induction l generalizing acc with
  | nil => rfl
  | cons a l ih => simp only [List.foldl_cons]; rw [ih, h]

@[simp] theorem clock_runGenerators (e : Eng) (p : Port) (cas0 : Bool) (s : State) : clock (runGenerators e p cas0 s).2 = clock s := by
  refine clock_foldl_snd _ (fun acc i => ?_) _ ([], s)
  dsimp only
  split
  · simp
  · rfl

@[simp] theorem clock_mapPat (i : PatId) (f : PatSt → PatSt) (s : State) : clock (mapPat i f s) = clock s := by
  simp [mapPat]

@[simp] theorem clock_doAnalyserSync (i : PatId) (s : State) : clock (doAnalyserSync i s) = clock s := by
  simp [doAnalyserSync]

@[simp] theorem clock_doAnalyserSyncLoss (i : PatId) (s : State) : clock (doAnalyserSyncLoss i s) = clock s := by
  simp [doAnalyserSyncLoss]

@[simp] theorem clock_settlePatterns (s : State) : clock (settlePatterns s) = clock s := by
  simp [settlePatterns]

@[simp] theorem clock_startGenerator (i : PatId) (s : State) : clock (startGenerator i s) = clock s := by
  simp [startGenerator]

@[simp] theorem clock_refreshPatterns (sourceChanged : Bool) (s : State) : clock (refreshPatterns sourceChanged s) = clock s := by
  simp [refreshPatterns]

@[simp] theorem clock_discardPatterns (s : State) : clock (discardPatterns s) = clock s := by
  simp [discardPatterns]

@[simp] theorem clock_restartPatterns (e : Eng) (s : State) : clock (restartPatterns e s) = clock s := by
  simp [restartPatterns]

@[simp] theorem clock_takePatterns (e : Eng) (s : State) : clock (takePatterns e s) = clock s := by
  simp [takePatterns]

@[simp] theorem clock_buildInput (frame : Nat) (p : Port) (s : State) : clock (buildInput frame p s) = clock s := by
  simp [buildInput]

@[simp] theorem clock_endOutputs (e : Eng) (builds : Port → Bool) (s : State) : clock (endOutputs e builds s) = clock s := by
  simp [endOutputs]

@[simp] theorem clock_outputStage (e : Eng) (q : Nat) (bits : Port → List (Nat × Nat × Bool)) (s : State) : clock (outputStage e q bits s) = clock s := by
  simp [outputStage]

@[simp] theorem clock_launchProof (n : Nat) (s : State) : clock (launchProof n s) = clock s := by
  simp [launchProof]

@[simp] theorem clock_compareProof (e : Eng) (c : Cell) (s : State) : clock (compareProof e c s) = clock s := by
  simp [compareProof]

@[simp] theorem clock_generateAll (e : Eng) (q : Nat) (s : State) : clock (generateAll e q s).2 = clock s := by
  unfold generateAll
  split
  · refine clock_foldl_snd _ (fun acc p => ?_) _ ([], s)
    dsimp only
    split
    · simp
    · rfl
  · rfl

@[simp] theorem clock_runAnalysers (e : Eng) (q : Nat) (s : State) : clock (runAnalysers e q s) = clock s := by
  simp [runAnalysers]

@[simp] theorem clock_engineFrame (e : Eng) (q : Nat) (s : State) : clock (engineFrame e q s) = clock s := by
  simp only [engineFrame, clock_runAnalysers, clock_outputStage, clock_generateAll]

@[simp] theorem clock_outputStages (q : Nat) (s : State) : clock (outputStages q s) = clock s := by
  simp [outputStages]

@[simp] theorem clock_noteMissing (p : Port) (q : BitVec 16) (s : State) : clock (noteMissing p q s) = clock s := by
  simp [noteMissing]

@[simp] theorem clock_latchFrame (q : BitVec 16) (keep : List (BitVec 16)) (p : Port) (s0 : State) : clock (latchFrame q keep p s0) = clock s0 := by
  simp only [latchFrame]; (repeat' split) <;> simp [*]

@[simp] theorem clock_endLatchAis (p : Port) (s : State) : clock (endLatchAis p s) = clock s := by
  simp [endLatchAis]

@[simp] theorem clock_latchAlarm (s : State) : clock (latchAlarm s) = clock s := by
  simp [latchAlarm]

@[simp] theorem clock_latchFrames (n : Nat) (s : State) : clock (latchFrames n s) = clock s := by
  simp [latchFrames]

@[simp] theorem clock_carriageBits (p : Port) (n : Nat) (u : CarriageUse) (s : State) : clock (carriageBits p n u s).2 = clock s := by
  unfold carriageBits; split <;> simp

@[simp] theorem clock_extractCarriage (p : Port) (s : State) : clock (extractCarriage p s) = clock s := by
  simp only [extractCarriage]; (repeat' split) <;> simp [*]

@[simp] theorem clock_freeFrame (s : State) : clock (freeFrame s).2 = clock s := by
  simp [freeFrame]

@[simp] theorem clock_gridE1 (p : Port) (m : Nat) (oct : List Byte) (s : State) : clock (gridE1 p m oct s) = clock s := by
  have h (sa : Nat × State) (h : clock sa.2 = clock s) (f : State → PortSt → PortSt) : clock (sa.2.setPort p (f sa.2)) = clock s := by
    rw [clock_setPort, h]
  unfold gridE1
  rw [clock_setPort]
  split <;> simp

@[simp] theorem clock_raiCuts (p : Port) (s : State) : clock (raiCuts p s) = clock s := by
  simp [raiCuts]

@[simp] theorem clock_gridT1 (p : Port) (m : Nat) (oct : List Byte) (s : State) : clock (gridT1 p m oct s) = clock s := by
  simp only [gridT1, clock_setPort]; (repeat' split) <;> simp

@[simp] theorem clock_gridFrame (n : Nat) (p : Port) (s : State) : clock (gridFrame n p s) = clock s := by
  simp only [gridFrame]; split
  · cases s.ports[p].latch.last <;> (repeat' split) <;> simp
  · rfl

@[simp] theorem clock_proofFrame (p : Port) (s : State) : clock (proofFrame p s) = clock s := by
  simp [proofFrame]

@[simp] theorem clock_gridFrames (n : Nat) (s : State) : clock (gridFrames n s) = clock s := by
  simp [gridFrames]

@[simp] theorem clock_passCarriage (p : Port) (m : Nat) (oct : List Byte) (s : State) : clock (passCarriage p m oct s).2 = clock s := by
  unfold passCarriage; simp

@[simp] theorem clock_sendAis (p : Port) (s : State) : clock (sendAis p s) = clock s := by
  simp [sendAis]

@[simp] theorem clock_passFrame (p : Port) (r : RxFrame) (s : State) : clock (passFrame p r s) = clock s := by
  simp only [passFrame, clock_setPort, clock_passCarriage]

@[simp] theorem clock_transmitSlip (p : Port) (q : Nat) (s : State) : clock (transmitSlip p q s) = clock s := by
  simp only [transmitSlip]; (repeat' split) <;> simp [*]

@[simp] theorem clock_takeSelection (p : Port) (s : State) : clock (takeSelection p s).2 = clock s := by
  simp only [takeSelection]
  cases (s.die (dieOf p)).word (pairOf p) with
  | none => rfl
  | some w => dsimp only; split <;> simp

@[simp] theorem clock_windowSlip (p t : Port) (s : State) : clock (windowSlip p t s) = clock s := by
  simp only [windowSlip]; (repeat' split) <;> simp [*]

@[simp] theorem clock_sendPassed (p t : Port) (s : State) : clock (sendPassed p t s) = clock s := by
  simp only [sendPassed]; (repeat' split) <;> simp [*]

@[simp] theorem clock_lineTimedFrame (p : Port) (s : State) : clock (lineTimedFrame p s) = clock s := by
  simp only [lineTimedFrame]; (repeat' split) <;> simp

@[simp] theorem clock_loopBack (p : Port) (s : State) : clock (loopBack p s) = clock s := by
  simp only [loopBack]; (repeat' split) <;> simp [*]

@[simp] theorem clock_doTakeover (p : Port) (s : State) : clock (doTakeover p s) = clock s := by
  simp only [doTakeover]; (repeat' split) <;> simp [*]

@[simp] theorem clock_overlay (p : Port) (c : OutCell) (s : State) : clock (overlay p c s) = clock s := by
  simp only [overlay]; (repeat' split) <;> simp [*]

@[simp] theorem clock_failOver (p : Port) (s : State) : clock (failOver p s) = clock s := by
  simp only [failOver]; (repeat' split) <;> simp [*]

@[simp] theorem clock_latchAis (p : Port) (s : State) : clock (latchAis p s) = clock s := by
  simp [latchAis]

@[simp] theorem clock_followDrive (p : Port) (l : List Pulse) (s : State) : clock (followDrive p l s) = clock s := by
  simp [followDrive]

@[simp] theorem clock_frameWritten (p : Port) (w : RxPulses) (s : State) : clock (frameWritten p w s) = clock s := by
  simp [frameWritten]

@[simp] theorem clock_setFlows (s : State) (r : Receiver) (l : List FlowSt) : clock (s.setFlows r l) = clock s := by
  unfold State.setFlows; split <;> simp

@[simp] theorem clock_inputStage (e : Eng) (c : Cell) (s : State) : clock (inputStage e c s) = clock s := by
  simp [inputStage]

@[simp] theorem clock_cutFrame (e : Eng) (w : Flow) (s : State) : clock (cutFrame e w s) = clock s := by
  unfold cutFrame; (repeat' split) <;> simp

@[simp] theorem clock_takePacket (e : Eng) (c : Cell) (s : State) : clock (takePacket e c s) = clock s := by
  simp only [takePacket]; (repeat' split) <;> simp [*]

@[simp] theorem clock_packetStage (e : Eng) (c : Cell) (s : State) : clock (packetStage e c s) = clock s := by
  unfold packetStage; (repeat' split) <;> simp

@[simp] theorem clock_packetGap (e : Eng) (w : Flow) (c : Cell) (s : State) : clock (packetGap e w c s) = clock s := by
  unfold packetGap; (repeat' split) <;> simp

theorem clock_packetRelease (gap take : Cell → State → State) (hg : ∀ c s, clock (gap c s) = clock s) (ht : ∀ c s, clock (take c s) = clock s)
    (l : List Cell) (n : BitVec 16) (s : State) : clock (packetRelease gap take l n s) = clock s := by
  induction l generalizing n s with
  | nil => rfl
  | cons c l ih => simp only [packetRelease]; rw [ih, ht]; split <;> simp [hg]

@[simp] theorem clock_accessPoint (d : LineDie) (e : Eng) (c : Cell) (s : State) : clock (accessPoint d e c s) = clock s := by
  simp [accessPoint]

@[simp] theorem clock_accessGap (d : LineDie) (e : Eng) (c : Cell) (s : State) : clock (accessGap d e c s) = clock s := by
  simp [accessGap]

@[simp] theorem clock_dropInbound (s : State) : clock (dropInbound s) = clock s := by
  simp [dropInbound]

@[simp] theorem clock_keeperCell (e : Eng) (c : Cell) (s : State) : clock (keeperCell e c s) = clock s := by
  simp [keeperCell]

@[simp] theorem clock_keeperGap (e : Eng) (c : Cell) (s : State) : clock (keeperGap e c s) = clock s := by
  simp [keeperGap]

@[simp] theorem clock_latchCell (d : LineDie) (e : Eng) (c : Cell) (s : State) : clock (latchCell d e c s) = clock s := by
  simp only [latchCell]; (repeat' split) <;> simp [*]

@[simp] theorem clock_deliver (r : Receiver) (w : Flow) (q : BitVec 16) (l : List Cell) (s : State) :
    clock (deliver r w q l s) = clock s := by
  unfold deliver
  split <;> first
    | exact clock_packetRelease _ _ (fun _ _ => by simp) (fun _ _ => by simp) _ _ _
    | simp

@[simp] theorem clock_resequence (r : Receiver) (c : Cell) (s : State) : clock (resequence r c s) = clock s := by
  simp [resequence]

@[simp] theorem clock_resequencerExpires (r : Receiver) (w : Flow) (s : State) : clock (resequencerExpires r w s) = clock s := by
  unfold resequencerExpires; (repeat' split) <;> simp

@[simp] theorem clock_rallyFailsAtEngine (e : Eng) (s : State) : clock (rallyFailsAtEngine e s) = clock s := by
  simp [rallyFailsAtEngine]

@[simp] theorem clock_rallyFailsAtDie (d : LineDie) (e : Eng) (s : State) : clock (rallyFailsAtDie d e s) = clock s := by
  simp [rallyFailsAtDie]

@[simp] theorem clock_launchRally (d : LineDie) (r : Fin 2) (s : State) : clock (launchRally d r s) = clock s := by
  simp [launchRally]

@[simp] theorem clock_rallyAtEngine (e : Eng) (d : LineDie) (l : LinkId) (hdr : BitVec 64) (c : Cell) (s : State) : clock (rallyAtEngine e d l hdr c s) = clock s := by
  unfold rallyAtEngine; (repeat' split) <;> simp

@[simp] theorem clock_rallyAtDie (d : LineDie) (e : Eng) (l : LinkId) (hdr : BitVec 64) (c : Cell) (s : State) : clock (rallyAtDie d e l hdr c s) = clock s := by
  unfold rallyAtDie; (repeat' split) <;> simp

@[simp] theorem clock_rallyExpires (d : LineDie) (r : Fin 2) (e : Eng) (st : RallyStage) (s : State) : clock (rallyExpires d r e st s) = clock s := by
  unfold rallyExpires; (repeat' split) <;> simp

@[simp] theorem clock_rallyReported (d : LineDie) (e : Eng) (s : State) : clock (rallyReported d e s) = clock s := by
  simp [rallyReported]

@[simp] theorem clock_takeBeat (d : LineDie) (e : Eng) (payload : List Byte) (s : State) : clock (takeBeat d e payload s) = clock s := by
  simp [takeBeat]

@[simp] theorem clock_countHec (r : Receiver) (l : LinkId) (s : State) : clock (countHec r l s) = clock s := by
  unfold countHec; (repeat' split) <;> simp

@[simp] theorem clock_cellArrives (r : Receiver) (l : LinkId) (hdr : BitVec 64) (payload : List Byte) (s : State) : clock (cellArrives r l hdr payload s) = clock s := by
  simp only [cellArrives]; (repeat' split) <;> simp [*]

@[simp] theorem clock_beatArrives (d : LineDie) (e : Eng) (l : LinkId) (hdr : BitVec 64) (payload : List Byte) (s : State) : clock (beatArrives d e l hdr payload s) = clock s := by
  simp [beatArrives]

@[simp] theorem clock_beatExpires (d : LineDie) (e : Eng) (s : State) : clock (beatExpires d e s) = clock s := by
  simp [beatExpires]

@[simp] theorem clock_laneLost (d : LineDie) (e : Eng) (l : LinkId) (s : State) : clock (laneLost d e l s) = clock s := by
  simp [laneLost]

@[simp] theorem clock_laneRegained (d : LineDie) (e : Eng) (l : LinkId) (s : State) : clock (laneRegained d e l s) = clock s := by
  simp [laneRegained]

@[simp] theorem clock_reenterSpray (s : State) : clock (reenterSpray s) = clock s := by
  simp [reenterSpray]

@[simp] theorem clock_liftFrame (p : Port) (octets : List Byte) (aborted : Bool) (s : State) : clock (liftFrame p octets aborted s) = clock s := by
  simp only [liftFrame]; (repeat' split) <;> simp [*]

@[simp] theorem clock_frameLifted (p : Port) (bits : List Bool) (s : State) : clock (frameLifted p bits s) = clock s := by
  unfold frameLifted; (repeat' split) <;> simp

@[simp] theorem clock_pairFrame (e : Eng) (g : PairId) (s : State) : clock (pairFrame e g s) = clock s := by
  simp [pairFrame]

@[simp] theorem clock_endPairFrame (s : State) : clock (endPairFrame s) = clock s := by
  simp [endPairFrame]

@[simp] theorem clock_pairFrames (s : State) : clock (pairFrames s) = clock s := by
  simp [pairFrames]

@[simp] theorem clock_holdOffExpires (g : PairId) (l : PairLine) (c : FailCond) (s : State) : clock (holdOffExpires g l c s) = clock s := by
  simp [holdOffExpires]

@[simp] theorem clock_wtrExpires (g : PairId) (s : State) : clock (wtrExpires g s) = clock s := by
  simp [wtrExpires]

@[simp] theorem clock_selectionWords (d : LineDie) (s : State) : clock (selectionWords d s) = clock s := by
  simp [selectionWords]

@[simp] theorem clock_offsetConfirmed (g : PairId) (d : Int) (s : State) : clock (offsetConfirmed g d s) = clock s := by
  simp [offsetConfirmed]

@[simp] theorem clock_confirmationLost (g : PairId) (d : Int) (s : State) : clock (confirmationLost g d s) = clock s := by
  simp [confirmationLost]

@[simp] theorem clock_trackPair (p : Port) (s : State) : clock (trackPair p s) = clock s := by
  simp only [trackPair]; (repeat' split) <;> simp [*]

@[simp] theorem clock_freshPair (g : PairId) (s : State) : clock (freshPair g s) = clock s := by
  simp [freshPair]

@[simp] theorem clock_refreshPairs (s : State) : clock (refreshPairs s) = clock s := by
  simp [refreshPairs]

@[simp] theorem clock_evalSignalDegrade (s : State) : clock (evalSignalDegrade s) = clock s := by
  simp [evalSignalDegrade]

@[simp] theorem clock_exercise (g : PairId) (s : State) : clock (exercise g s) = clock s := by
  simp [exercise]

@[simp] theorem clock_timerExercise (g : PairId) (s : State) : clock (timerExercise g s) = clock s := by
  simp [timerExercise]

@[simp] theorem clock_applyCommand (took : Bool) (old : BitVec 4) (s : State) : clock (applyCommand took old s) = clock s := by
  simp [applyCommand]

@[simp] theorem clock_captureFrame (q : Nat) (s : State) : clock (captureFrame q s) = clock s := by
  unfold captureFrame; (repeat' split) <;> simp

@[simp] theorem clock_queueRecord (e : Eng) (r : List Byte) (s : State) : clock (queueRecord e r s) = clock s := by
  simp [queueRecord]

@[simp] theorem clock_takeRecord (e : Eng) (s : State) : clock (takeRecord e s) = clock s := by
  unfold takeRecord; (repeat' split) <;> simp

@[simp] theorem clock_takeStreams (s : State) : clock (takeStreams s) = clock s := by
  simp [takeStreams]

@[simp] theorem clock_formChunk (t : Nat) (s : State) : clock (formChunk t s) = clock s := by
  unfold formChunk; (repeat' split) <;> simp

@[simp] theorem clock_endChanged (s : State) : clock (endChanged s) = clock s := by
  simp [endChanged]

@[simp] theorem clock_endStreams (s : State) : clock (endStreams s) = clock s := by
  simp [endStreams]

@[simp] theorem clock_captureTurn (s : State) : clock (captureTurn s) = clock s := by
  simp [captureTurn]

@[simp] theorem clock_captureStart (s : State) : clock (captureStart s) = clock s := by
  simp [captureStart]

@[simp] theorem clock_captureStop (s : State) : clock (captureStop s) = clock s := by
  simp [captureStop]

@[simp] theorem clock_seam (e : Eng) (prev : Option Eng) (cause : Nat) (cont : Bool) (q : BitVec 64) (s : State) : clock (seam e prev cause cont q s) = clock s := by
  simp [seam]

@[simp] theorem clock_takeWriter (e : Eng) (prev : Option Eng) (cause : Nat) (cont : Bool) (q : BitVec 64) (s : State) : clock (takeWriter e prev cause cont q s) = clock s := by
  simp [takeWriter]

@[simp] theorem clock_discardFrame (m : Msg) (w : PartnerFrame) (s : State) : clock (discardFrame m w s) = clock s := by
  simp [discardFrame]

@[simp] theorem clock_countValid (s : State) : clock (countValid s) = clock s := by
  simp [countValid]

@[simp] theorem clock_mirrorArrives (w : PartnerFrame) (s : State) : clock (mirrorArrives w s) = clock s := by
  simp [mirrorArrives]

@[simp] theorem clock_ackArrives (w : PartnerFrame) (s : State) : clock (ackArrives w s) = clock s := by
  simp [ackArrives]

@[simp] theorem clock_peerFound (s : State) : clock (peerFound s) = clock s := by
  simp [peerFound]

@[simp] theorem clock_timeArrives (w : PartnerFrame) (s : State) : clock (timeArrives w s) = clock s := by
  simp [timeArrives]

@[simp] theorem clock_launch (m : Msg) (octets : List Byte) (s : State) : clock (launch m octets s) = clock s := by
  unfold launch; (repeat' split) <;> simp

@[simp] theorem clock_launchPending (keeper : Nat) (s : State) : clock (launchPending keeper s) = clock s := by
  unfold launchPending; (repeat' split) <;> simp

@[simp] theorem clock_queueMirror (s : State) : clock (queueMirror s) = clock s := by
  simp [queueMirror]

@[simp] theorem clock_mirrorTurn (s : State) : clock (mirrorTurn s) = clock s := by
  simp only [mirrorTurn]; split
  · split
    · simp
    · split
      · split <;> simp
      · simp
  · rfl

@[simp] theorem clock_queueTime (s : State) : clock (queueTime s) = clock s := by
  simp [queueTime]

@[simp] theorem clock_queueAck (s : State) : clock (queueAck s) = clock s := by
  unfold queueAck; (repeat' split) <;> simp

@[simp] theorem clock_partnerTurn (keeper : Nat) (s : State) : clock (partnerTurn keeper s) = clock s := by
  simp [partnerTurn]

@[simp] theorem clock_frameSent (s : State) : clock (frameSent s) = clock s := by
  unfold frameSent; (repeat' split) <;> simp

@[simp] theorem clock_partnerLost (s : State) : clock (partnerLost s) = clock s := by
  simp only [partnerLost]; (repeat' split) <;> simp [*]

@[simp] theorem clock_realign (a : Nat) (s : State) : clock (realign a s) = clock s := by
  simp [realign]

@[simp] theorem clock_endListening (s : State) : clock (endListening s) = clock s := by
  simp [endListening]

@[simp] theorem clock_meetFound (a : Nat) (s : State) : clock (meetFound a s) = clock s := by
  simp [meetFound]

@[simp] theorem clock_meetArrives (w : PartnerFrame) (a : Nat) (s : State) : clock (meetArrives w a s) = clock s := by
  simp [meetArrives]

@[simp] theorem clock_meetFrame (s : State) : clock (meetFrame s).2 = clock s := by
  simp [meetFrame]

@[simp] theorem clock_sendMeet (a : Nat) (s : State) : clock (sendMeet a s) = clock s := by
  simp only [sendMeet]; (repeat' split) <;> simp

@[simp] theorem clock_meetingInstant (a : Nat) (s : State) : clock (meetingInstant a s) = clock s := by
  simp [meetingInstant]

@[simp] theorem clock_windowOpens (a : Nat) (s : State) : clock (windowOpens a s) = clock s := by
  simp [windowOpens]

@[simp] theorem clock_windowEnds (a : Nat) (s : State) : clock (windowEnds a s) = clock s := by
  simp [windowEnds]

@[simp] theorem clock_syncWords (faultX faultY : BitVec 32) (s : State) : clock (syncWords faultX faultY s) = clock s := by
  simp [syncWords]

@[simp] theorem clock_actOn (v : Verdict) (s : State) : clock (actOn v s) = clock s := by
  unfold actOn; (repeat' split) <;> simp

@[simp] theorem clock_assignCulprits (s : State) : clock (assignCulprits s) = clock s := by
  unfold assignCulprits
  simp only [clock_update]
  refine (clock_forEach _ _ (fun v t => clock_actOn v t) _).trans ?_
  refine (clock_forEach _ _ (fun e t => clock_setEngTally t e _) _).trans ?_
  refine clock_forEach _ _ (fun v t => ?_) _
  split <;> simp

@[simp] theorem clock_endEngFrames (s : State) : clock (endEngFrames s) = clock s := by
  simp [endEngFrames]

@[simp] theorem clock_beginEngFrames (s : State) : clock (beginEngFrames s) = clock s := by
  simp [beginEngFrames]

@[simp] theorem clock_makeTracking (e : Eng) (s : State) : clock (makeTracking e s) = clock s := by
  simp [makeTracking]

@[simp] theorem clock_abortDeliveries (s : State) : clock (abortDeliveries s) = clock s := by
  simp [abortDeliveries]

@[simp] theorem clock_startComputing (e : Eng) (s : State) : clock (startComputing e s) = clock s := by
  simp [startComputing]

@[simp] theorem clock_together (s : State) : clock (together s) = clock s := by
  simp [together]

@[simp] theorem clock_grantTo (e : Eng) (prev : Option Eng) (cause : Nat) (cont : Bool) (q : BitVec 64) (s : State) : clock (grantTo e prev cause cont q s) = clock s := by
  simp [grantTo]

@[simp] theorem clock_withdraw (s : State) : clock (withdraw s) = clock s := by
  unfold withdraw; (repeat' split) <;> simp

@[simp] theorem clock_heartbeat (e : Eng) (claim : BitVec 4) (s : State) : clock (heartbeat e claim s) = clock s := by
  unfold heartbeat; (repeat' split) <;> simp

@[simp] theorem clock_incumbencyGrant (s : State) : clock (incumbencyGrant s) = clock s := by
  unfold incumbencyGrant; (repeat' split) <;> simp

@[simp] theorem clock_firstGrant (s : State) : clock (firstGrant s) = clock s := by
  unfold firstGrant; (repeat' split) <;> simp

@[simp] theorem clock_raiseHealth (hx hy : Nat) (s : State) : clock (raiseHealth hx hy s) = clock s := by
  simp [raiseHealth]

@[simp] theorem clock_scrub (e : Eng) (dist : List (Nat × Byte)) (s : State) : clock (scrub e dist s) = clock s := by
  simp [scrub]

@[simp] theorem clock_copyPages (e : Eng) (s : State) : clock (copyPages e s) = clock s := by
  simp [copyPages]

@[simp] theorem clock_copyState (e : Eng) (s : State) : clock (copyState e s) = clock s := by
  simp [copyState]

@[simp] theorem clock_dropPages (e : Eng) (s : State) : clock (dropPages e s) = clock s := by
  simp [dropPages]

@[simp] theorem clock_pagesArrive (e : Eng) (s : State) : clock (pagesArrive e s) = clock s := by
  unfold pagesArrive; (repeat' split) <;> simp

@[simp] theorem clock_stateFollows (e : Eng) (s : State) : clock (stateFollows e s) = clock s := by
  unfold stateFollows; (repeat' split) <;> simp

@[simp] theorem clock_join (e : Eng) (s : State) : clock (join e s) = clock s := by
  simp [join]

@[simp] theorem clock_reloadActive (page : Nat) (s : State) : clock (reloadActive page s) = clock s := by
  simp [reloadActive]

@[simp] theorem clock_resetState (e : Eng) (s : State) : clock (resetState e s) = clock s := by
  simp [resetState]

@[simp] theorem clock_beginCold (e : Eng) (t : Nat) (copied : Bool) (s : State) : clock (beginCold e t copied s) = clock s := by
  simp [beginCold]

@[simp] theorem clock_rejoinGoesOn (loading : Bool) (t : Nat) (e : Eng) (s : State) : clock (rejoinGoesOn loading t e s) = clock s := by
  unfold rejoinGoesOn; (repeat' split) <;> simp

@[simp] theorem clock_rejoinBegins (t : Nat) (e : Eng) (s : State) : clock (rejoinBegins t e s) = clock s := by
  simp [rejoinBegins]

@[simp] theorem clock_rejoinSteps (t : Nat) (s : State) : clock (rejoinSteps t s) = clock s := by
  simp [rejoinSteps]

@[simp] theorem clock_leaveOff (e : Eng) (s : State) : clock (leaveOff e s) = clock s := by
  simp [leaveOff]

@[simp] theorem clock_engineCare (t : Nat) (e : Eng) (s : State) : clock (engineCare t e s) = clock s := by
  simp [engineCare]

@[simp] theorem clock_stepTwo (o : TurnObs) (hx hy : Nat) (s : State) : clock (stepTwo o hx hy s) = clock s := by
  simp [stepTwo]

@[simp] theorem clock_leaveRetention (s : State) : clock (leaveRetention s) = clock s := by
  simp [leaveRetention]

@[simp] theorem clock_enterRetention (s : State) : clock (enterRetention s) = clock s := by
  simp [enterRetention]

@[simp] theorem clock_loseLineDie (d : LineDie) (s : State) : clock (loseLineDie d s) = clock s := by
  simp [loseLineDie]

@[simp] theorem clock_loseEngine (e : Eng) (s : State) : clock (loseEngine e s) = clock s := by
  simp [loseEngine]

@[simp] theorem clock_dieLost (d : DieId) (s : State) : clock (dieLost d s) = clock s := by
  unfold dieLost; (repeat' split) <;> simp

@[simp] theorem clock_forgetPackets (d : LineDie) (s : State) : clock (forgetPackets d s) = clock s := by
  simp [forgetPackets]

@[simp] theorem clock_findDie (d : LineDie) (heard : Bool) (s : State) : clock (findDie d heard s) = clock s := by
  simp [findDie]

@[simp] theorem clock_restoreDies (s : State) : clock (restoreDies s) = clock s := by
  simp [restoreDies]

@[simp] theorem clock_imageAlarm (s : State) : clock (imageAlarm s) = clock s := by
  simp [imageAlarm]

@[simp] theorem clock_setShadows (sh : Shadow) (s : State) : clock (setShadows sh s) = clock s := by
  simp [setShadows]

@[simp] theorem clock_setForce (n : Nat) (c : Copy) (s : State) : clock (setForce n c s) = clock s := by
  simp [setForce]

@[simp] theorem clock_startLoad (n : Nat) (toActive : Bool) (s : State) : clock (startLoad n toActive s) = clock s := by
  simp [startLoad]

@[simp] theorem clock_makeRequest (n : Nat) (s : State) : clock (makeRequest n s) = clock s := by
  simp [makeRequest]

@[simp] theorem clock_requestPage (rest : Bool) (n : Nat) (s : State) : clock (requestPage rest n s) = clock s := by
  simp [requestPage]

@[simp] theorem clock_retryRefused (s : State) : clock (retryRefused s) = clock s := by
  unfold retryRefused; (repeat' split) <;> simp

@[simp] theorem clock_activate (l : Load) (s : State) : clock (activate l s) = clock s := by
  simp [activate]

@[simp] theorem clock_shadowed (l : Load) (x y : Option LoadReport) (s : State) : clock (shadowed l x y s) = clock s := by
  simp [shadowed]

@[simp] theorem clock_refuse (l : Load) (s : State) : clock (refuse l s) = clock s := by
  simp [refuse]

@[simp] theorem clock_writeV (l : Load) (s : State) : clock (writeV l s) = clock s := by
  simp [writeV]

@[simp] theorem clock_finishReload (l : Load) (s : State) : clock (finishReload l s) = clock s := by
  simp [finishReload]

@[simp] theorem clock_loadEnds (x y : Option LoadReport) (s : State) : clock (loadEnds x y s) = clock s := by
  simp only [loadEnds]; (repeat' split) <;> simp_all

@[simp] theorem clock_flushPort (p : Port) (e : Eng) (s : State) : clock (flushPort p e s) = clock s := by
  simp [flushPort]

@[simp] theorem clock_portDown (p : Port) (s : State) : clock (portDown p s) = clock s := by
  simp [portDown]

@[simp] theorem clock_stepThree (s : State) : clock (stepThree s) = clock s := by
  unfold stepThree; (repeat' split) <;> simp

@[simp] theorem clock_sampleKeys (mode page cmd tally : KeyRaw) (s : State) : clock (sampleKeys mode page cmd tally s) = clock s := by
  simp [sampleKeys]

@[simp] theorem clock_krefTurn (krefOut : Bool) (f : LiveKey → LiveKey) (s : State) : clock (krefTurn krefOut f s) = clock s := by
  simp [krefTurn]

@[simp] theorem clock_keysTurn (krefOut : Bool) (s : State) : clock (keysTurn krefOut s) = clock s := by
  simp [keysTurn]

@[simp] theorem clock_mirrorTakesEffect (s : State) : clock (mirrorTakesEffect s) = clock s := by
  simp only [mirrorTakesEffect]; (repeat' split) <;> simp [*]

@[simp] theorem clock_flagLive (s : State) : clock (flagLive s) = clock s := by
  simp [flagLive]

@[simp] theorem clock_keepPage (s : State) : clock (keepPage s) = clock s := by
  simp [keepPage]

@[simp] theorem clock_makeHeld (s : State) : clock (makeHeld s) = clock s := by
  unfold makeHeld; (repeat' split) <;> simp

@[simp] theorem clock_makeDeferred (s : State) : clock (makeDeferred s) = clock s := by
  unfold makeDeferred; (repeat' split) <;> simp

@[simp] theorem clock_pageKey (old : Option (BitVec 4)) (s : State) : clock (pageKey old s) = clock s := by
  simp [pageKey]

@[simp] theorem clock_filterKey (s : State) : clock (filterKey s) = clock s := by
  simp [filterKey]

@[simp] theorem clock_modeKey (s : State) : clock (modeKey s) = clock s := by
  simp [modeKey]

@[simp] theorem clock_restEngines (s : State) : clock (restEngines s) = clock s := by
  simp [restEngines]

@[simp] theorem clock_leaveProof (was : Mode) (s : State) : clock (leaveProof was s) = clock s := by
  unfold leaveProof; (repeat' split) <;> simp

@[simp] theorem clock_enterProof (was : Mode) (s : State) : clock (enterProof was s) = clock s := by
  unfold enterProof; (repeat' split) <;> simp

@[simp] theorem clock_patternCommand (old : Option (BitVec 4)) (s : State) : clock (patternCommand old s) = clock s := by
  unfold patternCommand; (repeat' split) <;> simp

@[simp] theorem clock_stepFour (krefOut : Bool) (s : State) : clock (stepFour krefOut s) = clock s := by
  simp [stepFour]

@[simp] theorem clock_clearTimers (s : State) : clock (clearTimers s) = clock s := by
  simp [clearTimers]

@[simp] theorem clock_startTimers (s : State) : clock (startTimers s) = clock s := by
  simp [startTimers]

@[simp] theorem clock_loadCompares (n : Nat) (c : Copy) (s : State) : clock (loadCompares n c s) = clock s := by
  refine clock_forEach _ _ (fun i t => ?_) _
  split <;> simp

@[simp] theorem clock_takeAction (i : TimerId) (s : State) : clock (takeAction i s) = clock s := by
  simp only [takeAction]; (repeat' split) <;> simp [*]

@[simp] theorem clock_takeActions (s : State) : clock (takeActions s) = clock s := by
  simp [takeActions]

@[simp] theorem clock_stepFive (start : Bool) (swapped : Option (Nat × Copy)) (s : State) : clock (stepFive start swapped s) = clock s := by
  unfold stepFive; (repeat' split) <;> simp

@[simp] theorem clock_passLate (i : TimerId) (n : Nat) (s : State) : clock (passLate i n s) = clock s := by
  simp [passLate]

@[simp] theorem clock_catchTimer (p tr : Nat) (i : TimerId) (x : State × List Nat) : clock (catchTimer p tr i x).1 = clock x.1 := by
  obtain ⟨s, ev⟩ := x
  simp only [catchTimer]; (repeat' split) <;> simp

@[simp] theorem clock_catchUp (p tr : Nat) (s : State) : clock (catchUp p tr s) = clock s := by
  unfold catchUp
  generalize all16 = l
  generalize ([] : List Nat) = acc
  induction l generalizing s acc with
  | nil => rfl
  | cons i l ih => simp only [List.foldl_cons]; rw [ih, clock_catchTimer]

@[simp] theorem clock_resumeTimer (s0 : State) (i : TimerId) (s : State) : clock (resumeTimer s0 i s) = clock s := by
  simp [resumeTimer]

@[simp] theorem clock_resumeTimers (p tr : Nat) (s : State) : clock (resumeTimers p tr s) = clock s := by
  simp [resumeTimers]

@[simp] theorem clock_timerMatches (i : TimerId) (s : State) : clock (timerMatches i s) = clock s := by
  simp [timerMatches]

@[simp] theorem clock_timerOverflows (i : TimerId) (s : State) : clock (timerOverflows i s) = clock s := by
  simp [timerOverflows]

@[simp] theorem clock_pulseEnds (s : State) : clock (pulseEnds s) = clock s := by
  unfold pulseEnds; (repeat' split) <;> simp

@[simp] theorem clock_minimumEnds (s : State) : clock (minimumEnds s) = clock s := by
  unfold minimumEnds; (repeat' split) <;> simp


@[simp] theorem clock_grantAll (s : State) : clock (grantAll s) = clock s := by
  refine clock_forEach _ _ (fun t s => ?_) _
  split <;> simp

@[simp] theorem clock_grantNew (tg : Target) (w : BurstReq × Nat) (s : State) : clock (grantNew tg w s) = clock s := by
  simp [grantNew]

@[simp] theorem clock_countMade (q : BurstReq) (s : State) : clock (countMade q s) = clock s := by
  unfold countMade; (repeat' split) <;> simp

@[simp] theorem clock_matrixRequest (q : BurstReq) (s : State) : clock (matrixRequest q s) = clock s := by
  simp only [matrixRequest]; (repeat' split) <;> first | rfl | simp

@[simp] theorem clock_captureCommitted (word : BitVec 32) (a : Nat) (s : State) : clock (captureCommitted word a s) = clock s := by
  unfold captureCommitted; (repeat' split) <;> simp

@[simp] theorem clock_tallyCommitted (word : BitVec 32) (a : Nat) (s : State) : clock (tallyCommitted word a s) = clock s := by
  simp [tallyCommitted]

@[simp] theorem clock_wordWritten (q : BurstReq) (a : Nat) (s : State) : clock (wordWritten q a s) = clock s := by
  unfold wordWritten; (repeat' split) <;> simp

@[simp] theorem clock_dropBursts (s : State) : clock (dropBursts s) = clock s := by
  simp [dropBursts, targets]

@[simp] theorem clock_lendRequested (l : LendTarget) (s : State) : clock (lendRequested l s) = clock s := by
  simp only [lendRequested]; (repeat' split) <;> simp

@[simp] theorem clock_lendGranted (l : LendTarget) (s : State) : clock (lendGranted l s) = clock s := by
  simp only [lendGranted]; (repeat' split) <;> simp

@[simp] theorem clock_lendChecked (l : LendTarget) (s : State) : clock (lendChecked l s) = clock s := by
  simp only [lendChecked]; (repeat' split) <;> simp

@[simp] theorem clock_lendAtTake (s : State) : clock (lendAtTake s) = clock s := by
  simp [lendAtTake]

@[simp] theorem clock_endLendFrames (s : State) : clock (endLendFrames s) = clock s := by
  simp [endLendFrames]

@[simp] theorem clock_writeNext (s : State) : clock (writeNext s) = clock s := by
  unfold writeNext; (repeat' split) <;> simp

@[simp] theorem clock_recordDue (r : Record) (s0 : State) : clock (recordDue r s0) = clock s0 := by
  simp only [recordDue]; (repeat' split) <;> simp [*]

@[simp] theorem clock_restartCounts (s : State) : clock (restartCounts s) = clock s := by
  simp [restartCounts]

@[simp] theorem clock_inHand (q : BurstReq) (s : State) : clock (inHand q s) = clock s := by
  unfold inHand; (repeat' split) <;> simp

@[simp] theorem clock_requestArrives (q : BurstReq) (s : State) : clock (requestArrives q s) = clock s := by
  simp only [requestArrives]; (repeat' split) <;> simp [*]

@[simp] theorem clock_memoryFrame (s : State) : clock (memoryFrame s) = clock s := by
  simp [memoryFrame]

@[simp] theorem clock_startStream (s : State) : clock (startStream s) = clock s := by
  simp [startStream]

@[simp] theorem clock_stopStream (s : State) : clock (stopStream s) = clock s := by
  simp [stopStream]

@[simp] theorem clock_turnFlags (s : State) : clock (turnFlags s) = clock s := by
  simp [turnFlags]

@[simp] theorem clock_candidateQualifies (p : Port) (s : State) : clock (candidateQualifies p s) = clock s := by
  simp [candidateQualifies]

@[simp] theorem clock_refinQualifies (s : State) : clock (refinQualifies s) = clock s := by
  simp [refinQualifies]

theorem lose_counting (t : Timebase) : t.lose.counting = t.counting := by
  unfold Timebase.lose; (repeat' split) <;> rfl

theorem lose_est (t : Timebase) : t.lose.est = t.est := by
  unfold Timebase.lose; (repeat' split) <;> rfl

theorem drop_counting (t : Timebase) (c : RefCand) : (t.drop c).counting = t.counting := by cases c <;> rfl

theorem drop_est (t : Timebase) (c : RefCand) : (t.drop c).est = t.est := by cases c <;> rfl

@[simp] theorem clock_referenceLost (s : State) : clock (referenceLost s) = clock s := by
  unfold referenceLost; split <;> simp [lose_counting, lose_est]

@[simp] theorem clock_candidateFails (c : RefCand) (o : Bool) (s : State) : clock (candidateFails c o s) = clock s := by
  simp only [candidateFails]; (repeat' split) <;> simp [lose_counting, lose_est, drop_counting, drop_est]

@[simp] theorem clock_countGoodFrames (refinOk : Bool) (s : State) : clock (countGoodFrames refinOk s) = clock s := by
  simp [countGoodFrames]

@[simp] theorem clock_updateReceivers (s : State) : clock (updateReceivers s) = clock s := by
  simp [updateReceivers]

@[simp] theorem clock_stopReceivers (s : State) : clock (stopReceivers s) = clock s := by
  simp [stopReceivers]

@[simp] theorem clock_powerDies (s : State) : clock (powerDies s) = clock s := by
  simp [powerDies]

@[simp] theorem clock_unpowerDies (s : State) : clock (unpowerDies s) = clock s := by
  simp [unpowerDies]

@[simp] theorem clock_resumeDies (s : State) : clock (resumeDies s) = clock s := by
  simp [resumeDies]

@[simp] theorem clock_unpowerEngines (s : State) : clock (unpowerEngines s) = clock s := by
  simp [unpowerEngines]

@[simp] theorem clock_powerEngines (s : State) : clock (powerEngines s) = clock s := by
  simp [powerEngines]

@[simp] theorem clock_dropChunks (s : State) : clock (dropChunks s) = clock s := by
  simp [dropChunks]

@[simp] theorem clock_freshPairs (s0 : State) : clock (freshPairs s0) = clock s0 := by
  simp [freshPairs]

@[simp] theorem clock_dropLoads (s : State) : clock (dropLoads s) = clock s := by
  simp [dropLoads]

@[simp] theorem clock_enterRest (s : State) : clock (enterRest s) = clock s := by
  simp [enterRest]

@[simp] theorem clock_forgetSamples (s : State) : clock (forgetSamples s) = clock s := by
  simp [forgetSamples]

@[simp] theorem clock_releaseReady (s : State) : clock (releaseReady s) = clock s := by
  simp [releaseReady]

@[simp] theorem clock_reloadWakePage (s : State) : clock (reloadWakePage s) = clock s := by
  unfold reloadWakePage; (repeat' split) <;> simp

@[simp] theorem clock_restartEngines (s : State) : clock (restartEngines s) = clock s := by
  simp [restartEngines]

@[simp] theorem clock_transferNotices (s : State) : clock (transferNotices s) = clock s := by
  simp [transferNotices]

@[simp] theorem clock_freshCounts (s : State) : clock (freshCounts s) = clock s := by
  simp [freshCounts]

@[simp] theorem clock_dropPortReferences (s : State) : clock (dropPortReferences s) = clock s := by
  simp only [dropPortReferences]; (repeat' split) <;> simp [lose_counting, lose_est]

@[simp] theorem clock_resetDies (s : State) : clock (resetDies s) = clock s := by
  simp [resetDies]

@[simp] theorem clock_dozeRequested (s : State) : clock (dozeRequested s) = clock s := by
  simp [dozeRequested]

@[simp] theorem clock_sampleBoot (o : StartObs) (s : State) : clock (sampleBoot o s) = clock s := by
  simp [sampleBoot]

@[simp] theorem clock_startPartner (again : Bool) (s : State) : clock (startPartner again s) = clock s := by
  simp [startPartner]

@[simp] theorem clock_applyProfiles (s : State) : clock (applyProfiles s) = clock s := by
  simp [applyProfiles]

@[simp] theorem clock_openPartner (s : State) : clock (openPartner s) = clock s := by
  simp [openPartner]

@[simp] theorem clock_loadPageZero (s : State) : clock (loadPageZero s) = clock s := by
  unfold loadPageZero; (repeat' split) <;> simp

@[simp] theorem clock_enginesDown (s : State) : clock (enginesDown s) = clock s := by
  simp [enginesDown]

@[simp] theorem clock_railsIn (core vline : Bool) (s : State) : clock (railsIn core vline s) = clock s := by
  simp [railsIn]

@[simp] theorem clock_coreRailOut (s : State) : clock (coreRailOut s) = clock s := by
  simp [coreRailOut]

@[simp] theorem clock_latchPages (s : State) : clock (latchPages s) = clock s := by
  simp [latchPages]

@[simp] theorem clock_readPorts (b : Nat) (s : State) : clock (readPorts b s) = clock s := by
  simp [readPorts]

@[simp] theorem clock_readHinges (low : BitVec 32) (s : State) : clock (readHinges low s) = clock s := by
  simp [readHinges]

@[simp] theorem clock_startEngines (s : State) : clock (startEngines s) = clock s := by
  simp [startEngines]

@[simp] theorem clock_buildInputs (s : State) : clock (buildInputs s) = clock s := by
  simp [buildInputs]

@[simp] theorem clock_copiesArrive (s : State) : clock (copiesArrive s) = clock s := by
  simp [copiesArrive]

@[simp] theorem clock_startFound (s0 s : State) : clock (startFound s0 s) = clock s := by
  simp [startFound]

@[simp] theorem clock_frameStart (o : FrameObs) (s : State) : clock (frameStart o s) = clock s := by
  simp [frameStart]

@[simp] theorem clock_noteLimits (s : State) : clock (noteLimits s) = clock s := by
  simp [noteLimits]

@[simp] theorem clock_noteWrap (s : State) : clock (noteWrap s) = clock s := by
  simp [noteWrap]

@[simp] theorem clock_proofResult (whole : Bool) (e : Eng) (s : State) : clock (proofResult whole e s) = clock s := by
  simp [proofResult]

@[simp] theorem clock_endCycle (s : State) : clock (endCycle s) = clock s := by
  simp [endCycle]

@[simp] theorem clock_followProof (s : State) : clock (followProof s) = clock s := by
  simp [followProof]

@[simp] theorem clock_readyTurn (s : State) : clock (readyTurn s) = clock s := by
  simp [readyTurn]

@[simp] theorem clock_openSecond (closed : Bool) (s : State) : clock (openSecond closed s) = clock s := by
  simp [openSecond]

@[simp] theorem clock_unclosed (s : State) : clock (unclosed s) = clock s := by
  simp [unclosed]

@[simp] theorem clock_ridingTurn (s : State) : clock (ridingTurn s) = clock s := by
  simp [ridingTurn]

@[simp] theorem clock_holdPageKey (old : Option (BitVec 4)) (s : State) : clock (holdPageKey old s) = clock s := by
  simp [holdPageKey]

/-! ### Moving on -/

/-- What agrees on those parts agrees on them after position has moved alike. -/
theorem clock_pos {s u : State} (h : clock s = clock u) (f : Pos → Pos) :
    clock { s with pos := f s.pos } = clock { u with pos := f u.pos } := by
  simp only [clock, Prod.mk.injEq] at h ⊢
  obtain ⟨a, b⟩ := h
  exact ⟨by rw [a], b⟩

theorem clock_move (s : State) (p : Pos) : clock (moveTo p s) = clock { s with pos := p } := by
  simp only [moveTo, clock_tickWork]

theorem clock_tickOnce (s : State) : clock (tickOnce s) = clock { s with pos := { s.pos with k := s.pos.k + 1 } } := by
  simp only [tickOnce, clock_tickWork]
  exact clock_pos (clock_settleTimers s) (fun x => { x with k := x.k + 1 })

theorem clock_ticks (n : Nat) (s : State) : ∃ k, clock (ticks n s) = clock { s with pos := { s.pos with k := k } } := by
  induction n generalizing s with
  | zero => exact ⟨s.pos.k, rfl⟩
  | succ n ih =>
    obtain ⟨k, hk⟩ := ih (tickOnce s)
    refine ⟨k, ?_⟩
    have h := clock_tickOnce s
    simp only [clock, Prod.mk.injEq] at h hk ⊢
    simp only [ticks, h, hk, and_self]

theorem clock_skipTo (k : Tick) (s : State) : clock (skipTo k s) = clock { s with pos := { s.pos with k := k } } := by
  simp only [skipTo]
  split
  · rw [clock_linkTicks, clock_sendBeats]
  · rfl

/-- Within the frame nothing moves but the tick. -/
theorem clock_atTick (k : Tick) (s : State) : ∃ j, clock (atTick k s) = clock { s with pos := { s.pos with k := j } } := by
  unfold atTick
  split
  · split
    · exact ⟨k, clock_skipTo k s⟩
    · exact clock_ticks _ s
  · exact ⟨s.pos.k, rfl⟩

/-- The end of a frame moves nothing but the tick. -/
theorem clock_frameEnd (s : State) : ∃ j, clock (frameEnd s) = clock { s with pos := { s.pos with k := j } } := by
  obtain ⟨j, hj⟩ := clock_atTick 2047 s
  exact ⟨j, by rw [← hj]; simp [frameEnd]⟩

end Sys2Proof.Machine
end

