-- ==== Sys2Proof/Laws/Events.lean ====
section
/-! SUPPORT. What a capture event does and leaves: the frame of every event of a line. -/

namespace Sys2Proof.Machine

theorem partnerPort_ne (p : Port) : partnerPort p ≠ p := by revert p; decide

theorem LoopKept.of_eq {p q : Port} {s u : State} (h : u.ports[q] = s.ports[q]) : LoopKept p q s u := by
  unfold LoopKept
  split
  · rw [h]
  · exact h

/-- Hinge and line of another port are as they were. -/
theorem LoopKept.parts {p q : Port} {s u : State} (h : LoopKept p q s u) :
    u.ports[q].hinge = s.ports[q].hinge ∧ u.ports[q].line = s.ports[q].line := by
  unfold LoopKept at h
  split at h <;> (rw [h]; exact ⟨rfl, rfl⟩)

/-- A port keeps returning what its partner receives. -/
theorem LoopKept.loops {p : Port} {s u : State} (h : LoopKept p (partnerPort p) s u) : loopsBack u p = loopsBack s p := by
  obtain ⟨a, b⟩ := h.parts
  unfold loopsBack
  simp only [a, b]

theorem LoopKept.trans {p q : Port} {s t u : State} (hs : loopsBack t p = loopsBack s p) (a : LoopKept p q s t)
    (b : LoopKept p q t u) : LoopKept p q s u := by
  unfold LoopKept at *
  rw [hs] at b
  split at a
  · rename_i c
    rw [if_pos c] at b ⊢
    rw [b, a]
  · rename_i c
    rw [if_neg c] at b ⊢
    rw [b, a]

theorem OnlyEvent.refl (p : Port) (s : State) : OnlyEvent p s s :=
  ⟨rfl, fun _ _ => .of_eq rfl, fun _ => rfl, rfl⟩

/-- Frames of the same port compose. -/
theorem OnlyEvent.trans {p : Port} {s t u : State} (a : OnlyEvent p s t) (b : OnlyEvent p t u) : OnlyEvent p s u := by
  obtain ⟨a1, a2, a3, a4⟩ := a
  obtain ⟨b1, b2, b3, b4⟩ := b
  refine ⟨?_, fun q hq => .trans (a2 _ (partnerPort_ne p)).loops (a2 q hq) (b2 q hq), fun i => ?_, ?_⟩
  · rw [b1, a1]
  · rw [b3 i, a3 i]
  · rw [b4, a4]

/-- A change of one port is in the frame of its events. -/
theorem OnlyEvent.setPort (p : Port) (s : State) (f : PortSt → PortSt) : OnlyEvent p s (s.setPort p f) :=
  ⟨rfl, fun _ hq => .of_eq (State.setPort_get_ne s f hq), fun _ => rfl, rfl⟩

theorem OnlyPort.setPort (p : Port) (s : State) (f : PortSt → PortSt) : OnlyPort p s (s.setPort p f) :=
  ⟨rfl, fun _ hq => State.setPort_get_ne s f hq⟩

/-- A port as it stands after a change of that port. -/
theorem State.setPort_port (s : State) (p : Port) (f : PortSt → PortSt) : (s.setPort p f).ports[p] = f s.ports[p] :=
  State.setPort_get_same s p f

/-- A unit changes no more than a counter and its wrap. -/
theorem State.unit_only (p : Port) (s : State) (i : TimerId) (n : Nat) : OnlyEvent p s (s.unit i n) := by
  unfold State.unit
  simp only
  split
  · refine ⟨rfl, fun _ _ => .of_eq rfl, fun j => ?_, rfl⟩
    by_cases h : j = i
    · subst h
      simp only [State.setTimer, Fin.getElem_fin, updV_get_same, Timer.add, Timer.hold]
      split <;> rfl
    · rw [State.setTimer_get_ne s _ h]
  · exact OnlyEvent.refl p s

/-- A unit leaves the ports alone. -/
@[simp] theorem State.unit_ports (s : State) (i : TimerId) (n : Nat) : (s.unit i n).ports = s.ports := by
  unfold State.unit; simp only; split <;> rfl

/-- Operations that keep a frame keep it when they are done for every element of a list. -/
theorem OnlyEvent.forEach {α : Type} (p : Port) (l : List α) (f : α → State → State) (h : ∀ a s, OnlyEvent p s (f a s)) (s : State) :
    OnlyEvent p s (Machine.forEach l f s) := by
  unfold Machine.forEach
  induction l generalizing s with
  | nil => exact OnlyEvent.refl p s
  | cons a l ih => exact (h a s).trans (ih _)

/-- Operations that leave the ports alone leave them alone when they are done for every element of a list. -/
theorem forEach_ports {α : Type} (l : List α) (f : α → State → State) (h : ∀ a s, (f a s).ports = s.ports) (s : State) :
    (forEach l f s).ports = s.ports := by
  unfold forEach
  induction l generalizing s with
  | nil => rfl
  | cons a l ih => exact (ih _).trans (h a s)

/-- A read of a capture unit changes that unit and the event entries. -/
theorem readCapture_only (p : Port) (s : State) : OnlyEvent p s (readCapture p s) := by
  unfold readCapture
  simp only
  split
  · split <;> exact ⟨rfl, fun _ hq => .of_eq (State.setPort_get_ne s _ hq), fun _ => rfl, rfl⟩
  · exact OnlyEvent.refl p s

theorem readCapture_port (p : Port) (s : State) :
    (readCapture p s).ports[p] = { s.ports[p] with capture := (readCapture p s).ports[p].capture } := by
  unfold readCapture
  simp only
  split
  · split <;> (simp only [State.setPort_port])
  · rfl

theorem lateRead_only (p : Port) (s : State) : OnlyEvent p s (lateRead p s) := by
  unfold lateRead
  simp only
  split
  · split
    · exact ⟨rfl, fun _ hq => .of_eq (State.setPort_get_ne s _ hq), fun _ => rfl, rfl⟩
    · split
      · exact OnlyEvent.setPort p s _
      · exact readCapture_only p s
  · exact OnlyEvent.refl p s

theorem lateRead_port (p : Port) (s : State) :
    (lateRead p s).ports[p] = { s.ports[p] with capture := (lateRead p s).ports[p].capture } := by
  unfold lateRead
  simp only
  split
  · split
    · simp only [State.setPort_port]
    · split
      · simp only [State.setPort_port]
      · exact readCapture_port p s
  · rfl

/-- The ports after a capture event: those after its record and the read that it may win over. -/
theorem captureEvent_ports (p : Port) (c : Nat) (s : State) (h : s.ports[p].line.running = true)
    (hl : s.ptime.listening = false) :
    (captureEvent p c s).ports =
      (lateRead p (s.setPort p (fun x => { x with capture := x.capture.record s.stamp s.qual c }))).ports := by
  unfold captureEvent
  rw [if_pos (by simp only [h, hl, Bool.not_false, Bool.and_self])]
  refine forEach_ports _ _ (fun i t => ?_) _
  split
  · exact State.unit_ports t i 1
  · rfl

/-- A capture event changes its port's capture unit, the timers that count it, and the event entries. -/
theorem captureEvent_only (p : Port) (c : Nat) (s : State) : OnlyEvent p s (captureEvent p c s) := by
  unfold captureEvent
  split
  · refine ((OnlyEvent.setPort p s _).trans (lateRead_only p _)).trans (OnlyEvent.forEach p _ _ (fun i t => ?_) _)
    split
    · exact State.unit_only p t i 1
    · exact OnlyEvent.refl p t
  · exact OnlyEvent.refl p s

/-- Of its port a capture event changes the capture unit alone. -/
theorem captureEvent_port (p : Port) (c : Nat) (s : State) :
    (captureEvent p c s).ports[p] = { s.ports[p] with capture := (captureEvent p c s).ports[p].capture } := by
  by_cases h : s.ports[p].line.running = true ∧ s.ptime.listening = false
  · rw [captureEvent_ports p c s h.1 h.2, lateRead_port, State.setPort_port]
  · unfold captureEvent
    rw [if_neg (fun e => h (by simpa only [Bool.and_eq_true, Bool.not_eq_true'] using e))]

/-- Away from a frame boundary the capture unit takes the event (R403). -/
theorem captureEvent_capture (p : Port) (c : Nat) (s : State) (h : s.ports[p].line.running = true)
    (hl : s.ptime.listening = false) (hk : s.pos.k ≠ 0) :
    (captureEvent p c s).ports[p].capture = s.ports[p].capture.record s.stamp s.qual c := by
  rw [captureEvent_ports p c s h hl]
  unfold lateRead
  rw [if_neg (fun e => hk e.1), State.setPort_port]

/-! ### A line loop -/

/-- A line loop that follows its source changes the all ones it sends and nothing else. -/
theorem followLoop_only (p : Port) (s : State) : OnlyEvent p s (followLoop p s) := by
  unfold followLoop
  split
  · rename_i h
    refine ⟨rfl, fun q _ => ?_, fun _ => rfl, rfl⟩
    unfold LoopKept
    by_cases hq : q = partnerPort p
    · subst hq
      rw [if_pos ⟨rfl, h⟩, State.setPort_port]
    · rw [if_neg (fun c => hq c.1), State.setPort_get_ne s _ hq]
  · exact OnlyEvent.refl p s

@[simp] theorem followLoop_port (p : Port) (s : State) : (followLoop p s).ports[p] = s.ports[p] := by
  unfold followLoop
  split
  · exact State.setPort_get_ne s _ (partnerPort_ne p).symm
  · rfl

/-! ### AIS clears -/

theorem clearAis_port (p : Port) (s : State) :
    (clearAis p s).ports[p] =
      { s.ports[p] with line := { s.ports[p].line with ais := false }, capture := (clearAis p s).ports[p].capture } := by
  unfold clearAis
  split
  · rw [followLoop_port, captureEvent_port]; simp only [State.setLine, State.setPort_port]
  · rename_i h
    have : s.ports[p].line.ais = false := by simpa using h
    have h2 : { s.ports[p].line with ais := false } = s.ports[p].line := by rw [← this]
    rw [h2]

theorem clearAis_only (p : Port) (s : State) : OnlyEvent p s (clearAis p s) := by
  unfold clearAis
  split
  · exact ((OnlyEvent.setPort p s _).trans (captureEvent_only p 6 _)).trans (followLoop_only p _)
  · exact OnlyEvent.refl p s

end Sys2Proof.Machine
end

