-- ==== Sys2Proof/Laws/Hinges.lean ====
section
/-! SUPPORT. What the operations of hinges and releases do and leave. -/

namespace Sys2Proof.Machine

theorem ChannelCut.refl (s : State) : ChannelCut s s := ⟨fun _ => .inl rfl, rfl⟩

/-- Cutting off the frame in transmission changes a line die and the frame in hand alone. -/
theorem cutChannel_only (p : Port) (s : State) :
    ChannelCut s (cutChannel p s) ∧
      cutChannel p s = { s with
        lda := (cutChannel p s).lda, ldb := (cutChannel p s).ldb, partner := (cutChannel p s).partner } := by
  unfold cutChannel
  cases dieOf p
  · exact ⟨⟨fun d => by cases d <;> first | exact .inr rfl | exact .inl rfl, rfl⟩, rfl⟩
  · exact ⟨⟨fun d => by cases d <;> first | exact .inr rfl | exact .inl rfl, rfl⟩, rfl⟩

/-- The channel that follows its ports may cut off the frame in transmission, and does nothing else. -/
theorem followChannel_only (s0 s : State) :
    ChannelCut s (followChannel s0 s) ∧
      followChannel s0 s = { s with
        lda := (followChannel s0 s).lda, ldb := (followChannel s0 s).ldb, partner := (followChannel s0 s).partner } := by
  unfold followChannel
  split
  · split
    · exact ⟨ChannelCut.refl s, rfl⟩
    · exact cutChannel_only _ s
  · exact ⟨ChannelCut.refl s, rfl⟩

@[simp] theorem followChannel_ports (s0 s : State) : (followChannel s0 s).ports = s.ports := by
  rw [(followChannel_only s0 s).2]

/-- A port released at once is bypassed, high-impedance, unterminated and silent (R357). -/
theorem dropPort_released (x : PortSt) : (dropPort x).released ∧ (dropPort x).line.terminated = false :=
  ⟨⟨rfl, rfl, rfl, rfl, rfl⟩, rfl⟩

theorem releaseAtOnce_port (f : Port → Bool) (s : State) (p : Port) :
    (releaseAtOnce f s).ports[p] = if f p then dropPort s.ports[p] else s.ports[p] := by
  unfold releaseAtOnce
  have h : ∀ u : State, u.ports = (s.mapPorts (fun p x => if f p then dropPort x else x)).ports →
      u.ports[p] = if f p then dropPort s.ports[p] else s.ports[p] := fun u e => by
    rw [e]; exact State.mapPorts_get s _ p
  exact h _ (followChannel_ports _ _)

/-- A release at once changes the ports it releases, and may cut off the frame in transmission on the partner channel. -/
theorem releaseAtOnce_only (f : Port → Bool) (s : State) :
    ChannelCut s (releaseAtOnce f s) ∧
      releaseAtOnce f s = { s with
        ports := (releaseAtOnce f s).ports, lda := (releaseAtOnce f s).lda, ldb := (releaseAtOnce f s).ldb
        partner := (releaseAtOnce f s).partner } := by
  have hm : ∀ m : State, m = { s with ports := m.ports } →
      ChannelCut s (followChannel s m) ∧ followChannel s m = { s with
        ports := (followChannel s m).ports, lda := (followChannel s m).lda, ldb := (followChannel s m).ldb
        partner := (followChannel s m).partner } := by
    intro m e
    have h := followChannel_only s m
    generalize followChannel s m = v at h ⊢
    have h1 : m.lda = s.lda := by rw [e]
    have h2 : m.ldb = s.ldb := by rw [e]
    have h3 : m.partner = s.partner := by rw [e]
    refine ⟨⟨fun d => ?_, by rw [← h3]; exact h.1.2⟩, ?_⟩
    · have := h.1.1 d
      cases d
      · simpa only [State.die, h1] using this
      · simpa only [State.die, h2] using this
    · rw [h.2, e]
  exact hm _ rfl

/-- A return to MAIN changes the keeper alone. -/
theorem returnToMain_only (s : State) : returnToMain s = { s with keeper := (returnToMain s).keeper } := by
  unfold returnToMain
  split <;> rfl

end Sys2Proof.Machine
end

