-- ==== Sys2Proof/Laws/Kept.lean ====
section
/-! SUPPORT. What the operations of the machine leave alone. -/

namespace Sys2Proof.Machine

/-- What a command leaves alone unless it is one of the few that write a memory, the test access port or the last-words
store: the queue, the map flash, the FRAM, the PSRAM and the keeper SRAM, the test access port, the last-words slots. -/
def kept (s : State) : List Instr × Mem × Mem × Mem × Mem × Tap × List Byte × List Byte :=
  (s.pending, s.image.flash, s.matrix.framMem, s.matrix.psramMem, s.matrix.sramMem, s.tap, s.words.slot0, s.words.slot1)

/-- A record update that leaves those parts alone keeps them. -/
@[simp] theorem kept_update (b : State) (im : Image) (mx : Matrix) (wd : LastWords)
    (pos_ : Pos) (frameDue_ : Bool) (tm_ : Timebase) (keys_ : Keys) (pins_ : Pins) (modes_ : ModeSt) (ports_ : Vector PortSt 32) (lda_ : DieSt) (ldb_ : DieSt) (engX_ : EngSt) (engY_ : EngSt) (duplex_ : Duplex) (pairs_ : Vector PairSt 16) (capture_ : CapturePath) (partner_ : Partner) (ptime_ : PartnerTime) (timers_ : Vector Timer 16) (alarm_ : Alarm) (tally_ : Tally) (status_ : Status) (keeper_ : Keeper) (freeIdx_ : Nat)
    (h1 : im.flash = b.image.flash) (h2 : mx.framMem = b.matrix.framMem) (h3 : mx.psramMem = b.matrix.psramMem)
    (h4 : mx.sramMem = b.matrix.sramMem) (h5 : wd.slot0 = b.words.slot0) (h6 : wd.slot1 = b.words.slot1) :
    kept (State.mk b.pending pos_ frameDue_ tm_ keys_ pins_ im modes_ ports_ lda_ ldb_ engX_ engY_ duplex_ pairs_ capture_ partner_ ptime_ timers_ alarm_ mx tally_ status_ keeper_ wd b.tap freeIdx_) = kept b := by
  simp only [kept, h1, h2, h3, h4, h5, h6]

/-- What two states with the same kept parts share. -/
theorem kept_parts {s t : State} (h : kept t = kept s) :
    t.pending = s.pending ∧ t.image.flash = s.image.flash ∧ t.matrix.framMem = s.matrix.framMem ∧
      t.matrix.psramMem = s.matrix.psramMem ∧ t.matrix.sramMem = s.matrix.sramMem ∧ t.tap = s.tap ∧
      t.words.slot0 = s.words.slot0 ∧ t.words.slot1 = s.words.slot1 := by
  simpa only [kept, Prod.mk.injEq] using h

@[simp] theorem kept_ite (c : Prop) [Decidable c] (a b : State) : kept (if c then a else b) = if c then kept a else kept b := by
  split <;> rfl

@[simp] theorem kept_ite_snd {α : Type} (c : Prop) [Decidable c] (a b : α × State) :
    kept (if c then a else b).2 = if c then kept a.2 else kept b.2 := by
  split <;> rfl

@[simp] theorem kept_ite_fst {α : Type} (c : Prop) [Decidable c] (a b : State × α) :
    kept (if c then a else b).1 = if c then kept a.1 else kept b.1 := by
  split <;> rfl

@[simp] theorem kept_forEach {α : Type} (l : List α) (f : α → State → State) (h : ∀ a t, kept (f a t) = kept t) (s : State) :
    kept (forEach l f s) = kept s := by
  unfold forEach
  induction l generalizing s with
  | nil => rfl
  | cons a l ih => simp only [List.foldl_cons]; rw [ih, h]

@[simp] theorem kept_setPort (s : State) (p : Port) (f : PortSt → PortSt) : kept (State.setPort s p f) = kept s := by
  simp [kept]

@[simp] theorem kept_mapPorts (s : State) (f : Port → PortSt → PortSt) : kept (State.mapPorts s f) = kept s := by
  simp [kept]

@[simp] theorem kept_setHinge (s : State) (p : Port) (f : Hinge → Hinge) : kept (State.setHinge s p f) = kept s := by
  simp [kept]

@[simp] theorem kept_setLine (s : State) (p : Port) (f : Line → Line) : kept (State.setLine s p f) = kept s := by
  simp [kept]

@[simp] theorem kept_setFramer (s : State) (p : Port) (f : Framer → Framer) : kept (State.setFramer s p f) = kept s := by
  simp [kept]

@[simp] theorem kept_setSlip (s : State) (p : Port) (f : Slip → Slip) : kept (State.setSlip s p f) = kept s := by
  simp [kept]

@[simp] theorem kept_setRaw (s : State) (p : Port) (f : Raw → Raw) : kept (State.setRaw s p f) = kept s := by
  simp [kept]

@[simp] theorem kept_setLatch (s : State) (p : Port) (f : Latch → Latch) : kept (State.setLatch s p f) = kept s := by
  simp [kept]

@[simp] theorem kept_setDie (s : State) (d : LineDie) (f : DieSt → DieSt) : kept (State.setDie s d f) = kept s := by
  simp [kept]

@[simp] theorem kept_setEng (s : State) (e : Eng) (f : EngSt → EngSt) : kept (State.setEng s e f) = kept s := by
  simp [kept]

@[simp] theorem kept_setCtl (s : State) (e : Eng) (f : EngCtl → EngCtl) : kept (State.setCtl s e f) = kept s := by
  simp [kept]

@[simp] theorem kept_setEngTally (s : State) (e : Eng) (f : EngTally → EngTally) : kept (State.setEngTally s e f) = kept s := by
  simp [kept]

@[simp] theorem kept_setData (s : State) (e : Eng) (f : EngData → EngData) : kept (State.setData s e f) = kept s := by
  simp [kept]

@[simp] theorem kept_setPair (s : State) (g : PairId) (f : PairSt → PairSt) : kept (State.setPair s g f) = kept s := by
  simp [kept]

@[simp] theorem kept_setPat (s : State) (e : Eng) (i : PatId) (f : PatSt → PatSt) : kept (State.setPat s e i f) = kept s := by
  simp [kept]

@[simp] theorem kept_setReq (s : State) (e : Eng) (g : PairId) (f : PairReq → PairReq) : kept (State.setReq s e g f) = kept s := by
  simp [kept]

@[simp] theorem kept_setTimer (s : State) (i : TimerId) (f : Timer → Timer) : kept (State.setTimer s i f) = kept s := by
  simp [kept]

@[simp] theorem kept_raise (s : State) (b : AlarmBit) : kept (State.raise s b) = kept s := by
  simp [kept]

@[simp] theorem kept_lower (s : State) (b : AlarmBit) : kept (State.lower s b) = kept s := by
  simp [kept]

@[simp] theorem kept_setAlarm (s : State) (b : AlarmBit) (on : Bool) : kept (State.setAlarm s b on) = kept s := by
  simp [kept]

@[simp] theorem flagImage_flash (s : State) (b : ImageBit) : (s.flagImage b).image.flash = s.image.flash := rfl

@[simp] theorem kept_flagImage (s : State) (b : ImageBit) : kept (s.flagImage b) = kept s := by
  simp [State.flagImage]

@[simp] theorem kept_flagPartner (s : State) (b : PartnerBit) : kept (State.flagPartner s b) = kept s := by
  simp [State.flagPartner]

@[simp] theorem kept_flagUnassigned (s : State) (i : Nat) : kept (State.flagUnassigned s i) = kept s := by
  simp [State.flagUnassigned]

@[simp] theorem kept_flagPower (s : State) (i : Nat) : kept (State.flagPower s i) = kept s := by
  simp [State.flagPower]

@[simp] theorem kept_countRide (s : State) : kept (State.countRide s) = kept s := by
  simp [State.countRide]

@[simp] theorem kept_unit (s : State) (i : TimerId) (n : Nat) : kept (State.unit s i n) = kept s := by
  simp [State.unit]

@[simp] theorem kept_tickTimer (s0 : State) (i : TimerId) (s : State) : kept (tickTimer s0 i s) = kept s := by
  simp [tickTimer]

@[simp] theorem kept_tickTimers (s : State) : kept (tickTimers s) = kept s := by
  simp [tickTimers]

@[simp] theorem kept_frameUnits (s : State) : kept (frameUnits s) = kept s := by
  simp [frameUnits]

@[simp] theorem kept_turnUnits (s : State) : kept (turnUnits s) = kept s := by
  simp [turnUnits]

@[simp] theorem kept_passEvent (i : TimerId) (n : Nat) (s : State) : kept (passEvent i n s) = kept s := by
  simp [passEvent]

@[simp] theorem kept_timerEvents (i : TimerId) (isMatch : Bool) (n : Nat) (s : State) : kept (timerEvents i isMatch n s) = kept s := by
  simp [timerEvents]

@[simp] theorem kept_doMatch (i : TimerId) (s : State) : kept (doMatch i s) = kept s := by
  simp [doMatch]

@[simp] theorem kept_doOverflow (i : TimerId) (s : State) : kept (doOverflow i s) = kept s := by
  simp [doOverflow]

@[simp] theorem kept_settleMatches (n : Nat) (i : TimerId) (s : State) : kept (settleMatches n i s) = kept s := by
  induction n generalizing s with
  | zero => rfl
  | succ n ih => simp only [settleMatches]; split <;> simp [ih]

@[simp] theorem kept_settleTimer (i : TimerId) (s : State) : kept (settleTimer i s) = kept s := by
  simp [settleTimer]

@[simp] theorem kept_settleTimers (s : State) : kept (settleTimers s) = kept s := by
  simp [settleTimers]

@[simp] theorem kept_readCapture (p : Port) (s : State) : kept (readCapture p s) = kept s := by
  simp only [readCapture]; (repeat' split) <;> simp [*]

@[simp] theorem kept_lateRead (p : Port) (s : State) : kept (lateRead p s) = kept s := by
  simp [lateRead]

@[simp] theorem kept_captureEvent (p : Port) (code : Nat) (s : State) : kept (captureEvent p code s) = kept s := by
  simp [captureEvent]

@[simp] theorem kept_readCaptures (s : State) : kept (readCaptures s) = kept s := by
  simp [readCaptures]

@[simp] theorem kept_countCell (copy : Bool) (e : Eng) (ev : SelEvent) (n : Nat) (c : Cell) (s : State) : kept (countCell copy e ev n c s) = kept s := by
  simp [countCell]

@[simp] theorem kept_countSelect (e : Eng) (ev : SelEvent) (n : Nat) (c : Cell) (s : State) : kept (countSelect e ev n c s) = kept s := by
  simp [countSelect]

@[simp] theorem kept_countCopy (e : Eng) (ev : SelEvent) (n : Nat) (c : Cell) (s : State) : kept (countCopy e ev n c s) = kept s := by
  simp [countCopy]

@[simp] theorem kept_pushUp (d : LineDie) (e : Eng) (l : LinkId) (c : Cell) (s : State) : kept (pushUp d e l c s) = kept s := by
  simp [pushUp]

@[simp] theorem kept_pushDown (d : LineDie) (e : Eng) (l : LinkId) (c : Cell) (s : State) : kept (pushDown d e l c s) = kept s := by
  simp [pushDown]

@[simp] theorem kept_sprayUp (d : LineDie) (e : Eng) (c : Cell) (s : State) : kept (sprayUp d e c s) = kept s := by
  unfold sprayUp; (repeat' split) <;> simp

@[simp] theorem kept_sprayDown (d : LineDie) (e : Eng) (c : Cell) (s : State) : kept (sprayDown d e c s) = kept s := by
  unfold sprayDown; (repeat' split) <;> simp

@[simp] theorem kept_linksTick (s : State) : kept (linksTick s) = kept s := by
  simp [linksTick]

@[simp] theorem kept_sendBeats (b : Nat) (s : State) : kept (sendBeats b s) = kept s := by
  simp [sendBeats]

@[simp] theorem kept_beatsDue (s : State) : kept (beatsDue s) = kept s := by
  simp [beatsDue]

@[simp] theorem kept_sendMoved (e : Eng) (q : QCell) (s : State) : kept (sendMoved e q s) = kept s := by
  unfold sendMoved; (repeat' split) <;> simp

@[simp] theorem kept_xbarTick (e : Eng) (s : State) : kept (xbarTick e s) = kept s := by
  simp [xbarTick]

@[simp] theorem kept_stopDrives (s : State) : kept (stopDrives s) = kept s := by
  simp [stopDrives]

@[simp] theorem kept_fabricTick (s : State) : kept (fabricTick s) = kept s := by
  simp [fabricTick]

@[simp] theorem kept_tickWork (s : State) : kept (tickWork s) = kept s := by
  simp [tickWork]

@[simp] theorem kept_tickOnce (s : State) : kept (tickOnce s) = kept s := by
  simp [tickOnce]

@[simp] theorem kept_ticks (n : Nat) (s : State) : kept (ticks n s) = kept s := by
  induction n generalizing s with
  | zero => rfl
  | succ n ih => simp only [ticks]; rw [ih, kept_tickOnce]

@[simp] theorem kept_linkTicks (n : Nat) (s : State) : kept (linkTicks n s) = kept s := by
  induction n generalizing s with
  | zero => rfl
  | succ n ih => simp only [linkTicks]; rw [ih, kept_linksTick]

@[simp] theorem kept_skipTo (k : Tick) (s : State) : kept (skipTo k s) = kept s := by
  simp [skipTo]

@[simp] theorem kept_atTick (k : Tick) (s : State) : kept (atTick k s) = kept s := by
  unfold atTick; (repeat' split) <;> simp

@[simp] theorem kept_noteFall (e : Eng) (c : Cause) (s : State) : kept (noteFall e c s) = kept s := by
  simp [noteFall]

@[simp] theorem kept_lowerHealth (e : Eng) (n : Nat) (c : Cause) (s : State) : kept (lowerHealth e n c s) = kept s := by
  simp [lowerHealth]

@[simp] theorem kept_dropIncumbency (e : Eng) (s : State) : kept (dropIncumbency e s) = kept s := by
  simp [dropIncumbency]

@[simp] theorem kept_giveIncumbency (e : Eng) (s : State) : kept (giveIncumbency e s) = kept s := by
  simp [giveIncumbency]

@[simp] theorem kept_unpower (e : Eng) (s : State) : kept (unpower e s) = kept s := by
  simp [unpower]

@[simp] theorem kept_cutChannel (p : Port) (s : State) : kept (cutChannel p s) = kept s := by
  simp [cutChannel]

@[simp] theorem kept_followChannel (s0 s : State) : kept (followChannel s0 s) = kept s := by
  unfold followChannel; (repeat' split) <;> simp

@[simp] theorem kept_reconcile (p : Port) (s : State) : kept (reconcile p s) = kept s := by
  simp only [reconcile]; (repeat' split) <;> simp [*]

@[simp] theorem kept_reconcileAll (s : State) : kept (reconcileAll s) = kept s := by
  simp [reconcileAll]

@[simp] theorem kept_releaseAtOnce (f : Port → Bool) (s : State) : kept (releaseAtOnce f s) = kept s := by
  simp [releaseAtOnce]

@[simp] theorem kept_abandonInsertion (p : Port) (s : State) : kept (abandonInsertion p s) = kept s := by
  simp [abandonInsertion]

@[simp] theorem kept_doFollowDriveStart (p : Port) (s : State) : kept (doFollowDriveStart p s) = kept s := by
  simp [doFollowDriveStart]

@[simp] theorem kept_doHingeEnergise (p : Port) (s : State) : kept (doHingeEnergise p s) = kept s := by
  simp [doHingeEnergise]

@[simp] theorem kept_doTerminationOn (p : Port) (s : State) : kept (doTerminationOn p s) = kept s := by
  simp [doTerminationOn]

@[simp] theorem kept_doReleaseBegin (p : Port) (s : State) : kept (doReleaseBegin p s) = kept s := by
  simp [doReleaseBegin]

@[simp] theorem kept_doTerminationOff (p : Port) (s : State) : kept (doTerminationOff p s) = kept s := by
  simp [doTerminationOff]

@[simp] theorem kept_doReleaseComplete (p : Port) (s : State) : kept (doReleaseComplete p s) = kept s := by
  simp [doReleaseComplete]

@[simp] theorem kept_returnToMain (s : State) : kept (returnToMain s) = kept s := by
  simp [returnToMain]

@[simp] theorem kept_followLoop (p : Port) (s : State) : kept (followLoop p s) = kept s := by
  simp [followLoop]

@[simp] theorem kept_clearAis (p : Port) (s : State) : kept (clearAis p s) = kept s := by
  simp [clearAis]

@[simp] theorem kept_declareLos (p : Port) (s : State) : kept (declareLos p s) = kept s := by
  simp [declareLos]

@[simp] theorem kept_clearLos (p : Port) (s : State) : kept (clearLos p s) = kept s := by
  simp [clearLos]

@[simp] theorem kept_declareAis (p : Port) (s : State) : kept (declareAis p s) = kept s := by
  simp [declareAis]

@[simp] theorem kept_losDeclared (p : Port) (w : LineObs) (s : State) : kept (losDeclared p w s) = kept s := by
  simp [losDeclared]

@[simp] theorem kept_losCleared (p : Port) (w : LineObs) (s : State) : kept (losCleared p w s) = kept s := by
  simp [losCleared]

@[simp] theorem kept_aisDeclared (p : Port) (bits : List Bool) (s : State) : kept (aisDeclared p bits s) = kept s := by
  simp [aisDeclared]

@[simp] theorem kept_aisCleared (p : Port) (bits : List Bool) (s : State) : kept (aisCleared p bits s) = kept s := by
  simp [aisCleared]

@[simp] theorem kept_codingEvent (p : Port) (i : Fin 19) (s : State) : kept (codingEvent p i s) = kept s := by
  simp [codingEvent]

@[simp] theorem kept_violates (p : Port) (w : List Pulse) (i : Nat) (s : State) : kept (violates p w i s) = kept s := by
  simp [violates]

@[simp] theorem kept_exceedsZeros (p : Port) (w : List Pulse) (s : State) : kept (exceedsZeros p w s) = kept s := by
  simp [exceedsZeros]

@[simp] theorem kept_limitTransmit (p : Port) (s : State) : kept (limitTransmit p s) = kept s := by
  simp [limitTransmit]

@[simp] theorem kept_vlineOut (s : State) : kept (vlineOut s) = kept s := by
  simp [vlineOut]

@[simp] theorem kept_gainAlignment (p : Port) (n : Nat) (s : State) : kept (gainAlignment p n s) = kept s := by
  simp [gainAlignment]

@[simp] theorem kept_hunts (p : Port) (n : Nat) (bits : List Bool) (s : State) : kept (hunts p n bits s) = kept s := by
  simp [hunts]

@[simp] theorem kept_loseAlignment (p : Port) (s : State) : kept (loseAlignment p s) = kept s := by
  simp [loseAlignment]

@[simp] theorem kept_endAlignment (p : Port) (octets : List Byte) (s : State) : kept (endAlignment p octets s) = kept s := by
  simp [endAlignment]

@[simp] theorem kept_gainCrcMf (p : Port) (bit1 : Bool) (s : State) : kept (gainCrcMf p bit1 s) = kept s := by
  simp [gainCrcMf]

@[simp] theorem kept_fallBack (p : Port) (s : State) : kept (fallBack p s) = kept s := by
  simp [fallBack]

@[simp] theorem kept_closeWindow (p : Port) (s : State) : kept (closeWindow p s) = kept s := by
  simp [closeWindow]

@[simp] theorem kept_countBlock (p : Port) (errored second : Bool) (s : State) : kept (countBlock p errored second s) = kept s := by
  simp [countBlock]

@[simp] theorem kept_checkBlock (p : Port) (check : Bool) (s : State) : kept (checkBlock p check s) = kept s := by
  simp only [checkBlock]; (repeat' split) <;> simp [*]

@[simp] theorem kept_gainCas (p : Port) (ts16 : Byte) (s : State) : kept (gainCas p ts16 s) = kept s := by
  simp [gainCas]

@[simp] theorem kept_loseCas (p : Port) (ts16 : Byte) (s : State) : kept (loseCas p ts16 s) = kept s := by
  simp [loseCas]

@[simp] theorem kept_declareRai (p : Port) (octets : List Byte) (s : State) : kept (declareRai p octets s) = kept s := by
  simp [declareRai]

@[simp] theorem kept_clearRai (p : Port) (octets : List Byte) (s : State) : kept (clearRai p octets s) = kept s := by
  simp [clearRai]

@[simp] theorem kept_frameShows (p : Port) (octets : List Byte) (s : State) : kept (frameShows p octets s) = kept s := by
  simp [frameShows]

@[simp] theorem kept_rebase (t : Port) (s : State) : kept (rebase t s) = kept s := by
  simp [rebase]

@[simp] theorem kept_storeFrame (p : Port) (octets : List Byte) (s0 : State) : kept (storeFrame p octets s0) = kept s0 := by
  simp [storeFrame]

@[simp] theorem kept_writeFrame (p : Port) (octets : List Byte) (s : State) : kept (writeFrame p octets s) = kept s := by
  simp [writeFrame]

@[simp] theorem kept_e1Hunts (p : Port) (bits : List Bool) (s : State) : kept (e1Hunts p bits s) = kept s := by
  simp [e1Hunts]

@[simp] theorem kept_t1Hunts (p : Port) (bits : List Bool) (s : State) : kept (t1Hunts p bits s) = kept s := by
  simp [t1Hunts]

@[simp] theorem kept_crcSearchEnds (p : Port) (bit1 : Bool) (s : State) : kept (crcSearchEnds p bit1 s) = kept s := by
  simp [crcSearchEnds]

@[simp] theorem kept_fallbackEnds (p : Port) (bit1 : Bool) (s : State) : kept (fallbackEnds p bit1 s) = kept s := by
  simp [fallbackEnds]

/-- A fold that keeps them at each element keeps them. -/
theorem kept_foldl_snd {α β : Type} (f : β × State → α → β × State) (h : ∀ acc a, kept (f acc a).2 = kept acc.2) (l : List α)
    (acc : β × State) : kept (l.foldl f acc).2 = kept acc.2 := by
  induction l generalizing acc with
  | nil => rfl
  | cons a l ih => simp only [List.foldl_cons]; rw [ih, h]

@[simp] theorem kept_runGenerators (e : Eng) (p : Port) (cas0 : Bool) (s : State) : kept (runGenerators e p cas0 s).2 = kept s := by
  refine kept_foldl_snd _ (fun acc i => ?_) _ ([], s)
  dsimp only
  split
  · simp
  · rfl

@[simp] theorem kept_mapPat (i : PatId) (f : PatSt → PatSt) (s : State) : kept (mapPat i f s) = kept s := by
  simp [mapPat]

@[simp] theorem kept_doAnalyserSync (i : PatId) (s : State) : kept (doAnalyserSync i s) = kept s := by
  simp [doAnalyserSync]

@[simp] theorem kept_doAnalyserSyncLoss (i : PatId) (s : State) : kept (doAnalyserSyncLoss i s) = kept s := by
  simp [doAnalyserSyncLoss]

@[simp] theorem kept_settlePatterns (s : State) : kept (settlePatterns s) = kept s := by
  simp [settlePatterns]

@[simp] theorem kept_startGenerator (i : PatId) (s : State) : kept (startGenerator i s) = kept s := by
  simp [startGenerator]

@[simp] theorem kept_refreshPatterns (sourceChanged : Bool) (s : State) : kept (refreshPatterns sourceChanged s) = kept s := by
  simp [refreshPatterns]

@[simp] theorem kept_discardPatterns (s : State) : kept (discardPatterns s) = kept s := by
  simp [discardPatterns]

@[simp] theorem kept_restartPatterns (e : Eng) (s : State) : kept (restartPatterns e s) = kept s := by
  simp [restartPatterns]

@[simp] theorem kept_takePatterns (e : Eng) (s : State) : kept (takePatterns e s) = kept s := by
  simp [takePatterns]

@[simp] theorem kept_buildInput (frame : Nat) (p : Port) (s : State) : kept (buildInput frame p s) = kept s := by
  simp [buildInput]

@[simp] theorem kept_endOutputs (e : Eng) (builds : Port → Bool) (s : State) : kept (endOutputs e builds s) = kept s := by
  simp [endOutputs]

@[simp] theorem kept_outputStage (e : Eng) (q : Nat) (bits : Port → List (Nat × Nat × Bool)) (s : State) : kept (outputStage e q bits s) = kept s := by
  simp [outputStage]

@[simp] theorem kept_launchProof (n : Nat) (s : State) : kept (launchProof n s) = kept s := by
  simp [launchProof]

@[simp] theorem kept_compareProof (e : Eng) (c : Cell) (s : State) : kept (compareProof e c s) = kept s := by
  simp [compareProof]

@[simp] theorem kept_generateAll (e : Eng) (q : Nat) (s : State) : kept (generateAll e q s).2 = kept s := by
  unfold generateAll
  split
  · refine kept_foldl_snd _ (fun acc p => ?_) _ ([], s)
    dsimp only
    split
    · simp
    · rfl
  · rfl

@[simp] theorem kept_runAnalysers (e : Eng) (q : Nat) (s : State) : kept (runAnalysers e q s) = kept s := by
  simp [runAnalysers]

@[simp] theorem kept_engineFrame (e : Eng) (q : Nat) (s : State) : kept (engineFrame e q s) = kept s := by
  simp only [engineFrame, kept_runAnalysers, kept_outputStage, kept_generateAll]

@[simp] theorem kept_outputStages (q : Nat) (s : State) : kept (outputStages q s) = kept s := by
  simp [outputStages]

@[simp] theorem kept_noteMissing (p : Port) (q : BitVec 16) (s : State) : kept (noteMissing p q s) = kept s := by
  simp [noteMissing]

@[simp] theorem kept_latchFrame (q : BitVec 16) (keep : List (BitVec 16)) (p : Port) (s0 : State) : kept (latchFrame q keep p s0) = kept s0 := by
  simp only [latchFrame]; (repeat' split) <;> simp [*]

@[simp] theorem kept_endLatchAis (p : Port) (s : State) : kept (endLatchAis p s) = kept s := by
  simp [endLatchAis]

@[simp] theorem kept_latchAlarm (s : State) : kept (latchAlarm s) = kept s := by
  simp [latchAlarm]

@[simp] theorem kept_latchFrames (n : Nat) (s : State) : kept (latchFrames n s) = kept s := by
  simp [latchFrames]

@[simp] theorem kept_carriageBits (p : Port) (n : Nat) (u : CarriageUse) (s : State) : kept (carriageBits p n u s).2 = kept s := by
  unfold carriageBits; split <;> simp

@[simp] theorem kept_extractCarriage (p : Port) (s : State) : kept (extractCarriage p s) = kept s := by
  simp only [extractCarriage]; (repeat' split) <;> simp [*]

@[simp] theorem kept_freeFrame (s : State) : kept (freeFrame s).2 = kept s := by
  simp [freeFrame]

@[simp] theorem kept_gridE1 (p : Port) (m : Nat) (oct : List Byte) (s : State) : kept (gridE1 p m oct s) = kept s := by
  have h (sa : Nat × State) (h : kept sa.2 = kept s) (f : State → PortSt → PortSt) : kept (sa.2.setPort p (f sa.2)) = kept s := by
    rw [kept_setPort, h]
  unfold gridE1
  rw [kept_setPort]
  split <;> simp

@[simp] theorem kept_raiCuts (p : Port) (s : State) : kept (raiCuts p s) = kept s := by
  simp [raiCuts]

@[simp] theorem kept_gridT1 (p : Port) (m : Nat) (oct : List Byte) (s : State) : kept (gridT1 p m oct s) = kept s := by
  simp only [gridT1, kept_setPort]; (repeat' split) <;> simp

@[simp] theorem kept_gridFrame (n : Nat) (p : Port) (s : State) : kept (gridFrame n p s) = kept s := by
  simp only [gridFrame]; split
  · cases s.ports[p].latch.last <;> (repeat' split) <;> simp
  · rfl

@[simp] theorem kept_proofFrame (p : Port) (s : State) : kept (proofFrame p s) = kept s := by
  simp [proofFrame]

@[simp] theorem kept_gridFrames (n : Nat) (s : State) : kept (gridFrames n s) = kept s := by
  simp [gridFrames]

@[simp] theorem kept_passCarriage (p : Port) (m : Nat) (oct : List Byte) (s : State) : kept (passCarriage p m oct s).2 = kept s := by
  unfold passCarriage; simp

@[simp] theorem kept_sendAis (p : Port) (s : State) : kept (sendAis p s) = kept s := by
  simp [sendAis]

@[simp] theorem kept_passFrame (p : Port) (r : RxFrame) (s : State) : kept (passFrame p r s) = kept s := by
  simp only [passFrame, kept_setPort, kept_passCarriage]

@[simp] theorem kept_transmitSlip (p : Port) (q : Nat) (s : State) : kept (transmitSlip p q s) = kept s := by
  simp only [transmitSlip]; (repeat' split) <;> simp [*]

@[simp] theorem kept_takeSelection (p : Port) (s : State) : kept (takeSelection p s).2 = kept s := by
  simp only [takeSelection]
  cases (s.die (dieOf p)).word (pairOf p) with
  | none => rfl
  | some w => dsimp only; split <;> simp

@[simp] theorem kept_windowSlip (p t : Port) (s : State) : kept (windowSlip p t s) = kept s := by
  simp only [windowSlip]; (repeat' split) <;> simp [*]

@[simp] theorem kept_sendPassed (p t : Port) (s : State) : kept (sendPassed p t s) = kept s := by
  simp only [sendPassed]; (repeat' split) <;> simp [*]

@[simp] theorem kept_lineTimedFrame (p : Port) (s : State) : kept (lineTimedFrame p s) = kept s := by
  simp only [lineTimedFrame]; (repeat' split) <;> simp

@[simp] theorem kept_loopBack (p : Port) (s : State) : kept (loopBack p s) = kept s := by
  simp only [loopBack]; (repeat' split) <;> simp [*]

@[simp] theorem kept_doTakeover (p : Port) (s : State) : kept (doTakeover p s) = kept s := by
  simp only [doTakeover]; (repeat' split) <;> simp [*]

@[simp] theorem kept_overlay (p : Port) (c : OutCell) (s : State) : kept (overlay p c s) = kept s := by
  simp only [overlay]; (repeat' split) <;> simp [*]

@[simp] theorem kept_failOver (p : Port) (s : State) : kept (failOver p s) = kept s := by
  simp only [failOver]; (repeat' split) <;> simp [*]

@[simp] theorem kept_latchAis (p : Port) (s : State) : kept (latchAis p s) = kept s := by
  simp [latchAis]

@[simp] theorem kept_followDrive (p : Port) (l : List Pulse) (s : State) : kept (followDrive p l s) = kept s := by
  simp [followDrive]

@[simp] theorem kept_frameWritten (p : Port) (w : RxPulses) (s : State) : kept (frameWritten p w s) = kept s := by
  simp [frameWritten]

@[simp] theorem kept_setFlows (s : State) (r : Receiver) (l : List FlowSt) : kept (s.setFlows r l) = kept s := by
  unfold State.setFlows; split <;> simp

@[simp] theorem kept_inputStage (e : Eng) (c : Cell) (s : State) : kept (inputStage e c s) = kept s := by
  simp [inputStage]

@[simp] theorem kept_cutFrame (e : Eng) (w : Flow) (s : State) : kept (cutFrame e w s) = kept s := by
  unfold cutFrame; (repeat' split) <;> simp

@[simp] theorem kept_takePacket (e : Eng) (c : Cell) (s : State) : kept (takePacket e c s) = kept s := by
  simp only [takePacket]; (repeat' split) <;> simp [*]

@[simp] theorem kept_packetStage (e : Eng) (c : Cell) (s : State) : kept (packetStage e c s) = kept s := by
  unfold packetStage; (repeat' split) <;> simp

@[simp] theorem kept_packetGap (e : Eng) (w : Flow) (c : Cell) (s : State) : kept (packetGap e w c s) = kept s := by
  unfold packetGap; (repeat' split) <;> simp

theorem kept_packetRelease (gap take : Cell → State → State) (hg : ∀ c s, kept (gap c s) = kept s) (ht : ∀ c s, kept (take c s) = kept s)
    (l : List Cell) (n : BitVec 16) (s : State) : kept (packetRelease gap take l n s) = kept s := by
  induction l generalizing n s with
  | nil => rfl
  | cons c l ih => simp only [packetRelease]; rw [ih, ht]; split <;> simp [hg]

@[simp] theorem kept_accessPoint (d : LineDie) (e : Eng) (c : Cell) (s : State) : kept (accessPoint d e c s) = kept s := by
  simp [accessPoint]

@[simp] theorem kept_accessGap (d : LineDie) (e : Eng) (c : Cell) (s : State) : kept (accessGap d e c s) = kept s := by
  simp [accessGap]

@[simp] theorem kept_dropInbound (s : State) : kept (dropInbound s) = kept s := by
  simp [dropInbound]

@[simp] theorem kept_keeperCell (e : Eng) (c : Cell) (s : State) : kept (keeperCell e c s) = kept s := by
  simp [keeperCell]

@[simp] theorem kept_keeperGap (e : Eng) (c : Cell) (s : State) : kept (keeperGap e c s) = kept s := by
  simp [keeperGap]

@[simp] theorem kept_latchCell (d : LineDie) (e : Eng) (c : Cell) (s : State) : kept (latchCell d e c s) = kept s := by
  simp only [latchCell]; (repeat' split) <;> simp [*]

@[simp] theorem kept_deliver (r : Receiver) (w : Flow) (q : BitVec 16) (l : List Cell) (s : State) :
    kept (deliver r w q l s) = kept s := by
  unfold deliver
  split <;> first
    | exact kept_packetRelease _ _ (fun _ _ => by simp) (fun _ _ => by simp) _ _ _
    | simp

@[simp] theorem kept_resequence (r : Receiver) (c : Cell) (s : State) : kept (resequence r c s) = kept s := by
  simp [resequence]

@[simp] theorem kept_resequencerExpires (r : Receiver) (w : Flow) (s : State) : kept (resequencerExpires r w s) = kept s := by
  unfold resequencerExpires; (repeat' split) <;> simp

@[simp] theorem kept_rallyFailsAtEngine (e : Eng) (s : State) : kept (rallyFailsAtEngine e s) = kept s := by
  simp [rallyFailsAtEngine]

@[simp] theorem kept_rallyFailsAtDie (d : LineDie) (e : Eng) (s : State) : kept (rallyFailsAtDie d e s) = kept s := by
  simp [rallyFailsAtDie]

@[simp] theorem kept_launchRally (d : LineDie) (r : Fin 2) (s : State) : kept (launchRally d r s) = kept s := by
  simp [launchRally]

@[simp] theorem kept_rallyAtEngine (e : Eng) (d : LineDie) (l : LinkId) (hdr : BitVec 64) (c : Cell) (s : State) : kept (rallyAtEngine e d l hdr c s) = kept s := by
  unfold rallyAtEngine; (repeat' split) <;> simp

@[simp] theorem kept_rallyAtDie (d : LineDie) (e : Eng) (l : LinkId) (hdr : BitVec 64) (c : Cell) (s : State) : kept (rallyAtDie d e l hdr c s) = kept s := by
  unfold rallyAtDie; (repeat' split) <;> simp

@[simp] theorem kept_rallyExpires (d : LineDie) (r : Fin 2) (e : Eng) (st : RallyStage) (s : State) : kept (rallyExpires d r e st s) = kept s := by
  unfold rallyExpires; (repeat' split) <;> simp

@[simp] theorem kept_rallyReported (d : LineDie) (e : Eng) (s : State) : kept (rallyReported d e s) = kept s := by
  simp [rallyReported]

@[simp] theorem kept_takeBeat (d : LineDie) (e : Eng) (payload : List Byte) (s : State) : kept (takeBeat d e payload s) = kept s := by
  simp [takeBeat]

@[simp] theorem kept_countHec (r : Receiver) (l : LinkId) (s : State) : kept (countHec r l s) = kept s := by
  unfold countHec; (repeat' split) <;> simp

@[simp] theorem kept_cellArrives (r : Receiver) (l : LinkId) (hdr : BitVec 64) (payload : List Byte) (s : State) : kept (cellArrives r l hdr payload s) = kept s := by
  simp only [cellArrives]; (repeat' split) <;> simp [*]

@[simp] theorem kept_beatArrives (d : LineDie) (e : Eng) (l : LinkId) (hdr : BitVec 64) (payload : List Byte) (s : State) : kept (beatArrives d e l hdr payload s) = kept s := by
  simp [beatArrives]

@[simp] theorem kept_beatExpires (d : LineDie) (e : Eng) (s : State) : kept (beatExpires d e s) = kept s := by
  simp [beatExpires]

@[simp] theorem kept_laneLost (d : LineDie) (e : Eng) (l : LinkId) (s : State) : kept (laneLost d e l s) = kept s := by
  simp [laneLost]

@[simp] theorem kept_laneRegained (d : LineDie) (e : Eng) (l : LinkId) (s : State) : kept (laneRegained d e l s) = kept s := by
  simp [laneRegained]

@[simp] theorem kept_reenterSpray (s : State) : kept (reenterSpray s) = kept s := by
  simp [reenterSpray]

@[simp] theorem kept_liftFrame (p : Port) (octets : List Byte) (aborted : Bool) (s : State) : kept (liftFrame p octets aborted s) = kept s := by
  simp only [liftFrame]; (repeat' split) <;> simp [*]

@[simp] theorem kept_frameLifted (p : Port) (bits : List Bool) (s : State) : kept (frameLifted p bits s) = kept s := by
  unfold frameLifted; (repeat' split) <;> simp

@[simp] theorem kept_pairFrame (e : Eng) (g : PairId) (s : State) : kept (pairFrame e g s) = kept s := by
  simp [pairFrame]

@[simp] theorem kept_endPairFrame (s : State) : kept (endPairFrame s) = kept s := by
  simp [endPairFrame]

@[simp] theorem kept_pairFrames (s : State) : kept (pairFrames s) = kept s := by
  simp [pairFrames]

@[simp] theorem kept_holdOffExpires (g : PairId) (l : PairLine) (c : FailCond) (s : State) : kept (holdOffExpires g l c s) = kept s := by
  simp [holdOffExpires]

@[simp] theorem kept_wtrExpires (g : PairId) (s : State) : kept (wtrExpires g s) = kept s := by
  simp [wtrExpires]

@[simp] theorem kept_selectionWords (d : LineDie) (s : State) : kept (selectionWords d s) = kept s := by
  simp [selectionWords]

@[simp] theorem kept_offsetConfirmed (g : PairId) (d : Int) (s : State) : kept (offsetConfirmed g d s) = kept s := by
  simp [offsetConfirmed]

@[simp] theorem kept_confirmationLost (g : PairId) (d : Int) (s : State) : kept (confirmationLost g d s) = kept s := by
  simp [confirmationLost]

@[simp] theorem kept_trackPair (p : Port) (s : State) : kept (trackPair p s) = kept s := by
  simp only [trackPair]; (repeat' split) <;> simp [*]

@[simp] theorem kept_freshPair (g : PairId) (s : State) : kept (freshPair g s) = kept s := by
  simp [freshPair]

@[simp] theorem kept_refreshPairs (s : State) : kept (refreshPairs s) = kept s := by
  simp [refreshPairs]

@[simp] theorem kept_evalSignalDegrade (s : State) : kept (evalSignalDegrade s) = kept s := by
  simp [evalSignalDegrade]

@[simp] theorem kept_exercise (g : PairId) (s : State) : kept (exercise g s) = kept s := by
  simp [exercise]

@[simp] theorem kept_timerExercise (g : PairId) (s : State) : kept (timerExercise g s) = kept s := by
  simp [timerExercise]

@[simp] theorem kept_applyCommand (took : Bool) (old : BitVec 4) (s : State) : kept (applyCommand took old s) = kept s := by
  simp [applyCommand]

@[simp] theorem kept_captureFrame (q : Nat) (s : State) : kept (captureFrame q s) = kept s := by
  unfold captureFrame; (repeat' split) <;> simp

@[simp] theorem kept_queueRecord (e : Eng) (r : List Byte) (s : State) : kept (queueRecord e r s) = kept s := by
  simp [queueRecord]

@[simp] theorem kept_takeRecord (e : Eng) (s : State) : kept (takeRecord e s) = kept s := by
  unfold takeRecord; (repeat' split) <;> simp

@[simp] theorem kept_takeStreams (s : State) : kept (takeStreams s) = kept s := by
  simp [takeStreams]

@[simp] theorem kept_formChunk (t : Nat) (s : State) : kept (formChunk t s) = kept s := by
  unfold formChunk; (repeat' split) <;> simp

@[simp] theorem kept_endChanged (s : State) : kept (endChanged s) = kept s := by
  simp [endChanged]

@[simp] theorem kept_endStreams (s : State) : kept (endStreams s) = kept s := by
  simp [endStreams]

@[simp] theorem kept_captureTurn (s : State) : kept (captureTurn s) = kept s := by
  simp [captureTurn]

@[simp] theorem kept_captureStart (s : State) : kept (captureStart s) = kept s := by
  simp [captureStart]

@[simp] theorem kept_captureStop (s : State) : kept (captureStop s) = kept s := by
  simp [captureStop]

@[simp] theorem kept_seam (e : Eng) (prev : Option Eng) (cause : Nat) (cont : Bool) (q : BitVec 64) (s : State) : kept (seam e prev cause cont q s) = kept s := by
  simp [seam]

@[simp] theorem chargeWaits_framMem (n : Nat) (m : Matrix) : (m.chargeWaits n).framMem = m.framMem := rfl
@[simp] theorem chargeWaits_psramMem (n : Nat) (m : Matrix) : (m.chargeWaits n).psramMem = m.psramMem := rfl
@[simp] theorem chargeWaits_sramMem (n : Nat) (m : Matrix) : (m.chargeWaits n).sramMem = m.sramMem := rfl

@[simp] theorem kept_takeWriter (e : Eng) (prev : Option Eng) (cause : Nat) (cont : Bool) (q : BitVec 64) (s : State) : kept (takeWriter e prev cause cont q s) = kept s := by
  unfold takeWriter; (repeat' split) <;> simp

@[simp] theorem kept_discardFrame (m : Msg) (w : PartnerFrame) (s : State) : kept (discardFrame m w s) = kept s := by
  simp [discardFrame]

@[simp] theorem kept_countValid (s : State) : kept (countValid s) = kept s := by
  simp [countValid]

@[simp] theorem kept_mirrorArrives (w : PartnerFrame) (s : State) : kept (mirrorArrives w s) = kept s := by
  simp [mirrorArrives]

@[simp] theorem kept_ackArrives (w : PartnerFrame) (s : State) : kept (ackArrives w s) = kept s := by
  simp [ackArrives]

@[simp] theorem kept_peerFound (s : State) : kept (peerFound s) = kept s := by
  simp [peerFound]

@[simp] theorem kept_timeArrives (w : PartnerFrame) (s : State) : kept (timeArrives w s) = kept s := by
  simp [timeArrives]

@[simp] theorem kept_launch (m : Msg) (octets : List Byte) (s : State) : kept (launch m octets s) = kept s := by
  unfold launch; (repeat' split) <;> simp

@[simp] theorem kept_launchPending (keeper : Nat) (s : State) : kept (launchPending keeper s) = kept s := by
  unfold launchPending; (repeat' split) <;> simp

@[simp] theorem kept_queueMirror (s : State) : kept (queueMirror s) = kept s := by
  simp [queueMirror]

@[simp] theorem kept_mirrorTurn (s : State) : kept (mirrorTurn s) = kept s := by
  simp only [mirrorTurn]; split
  · split
    · simp
    · split
      · split <;> simp
      · simp
  · rfl

@[simp] theorem kept_queueTime (s : State) : kept (queueTime s) = kept s := by
  simp [queueTime]

@[simp] theorem kept_queueAck (s : State) : kept (queueAck s) = kept s := by
  unfold queueAck; (repeat' split) <;> simp

@[simp] theorem kept_partnerTurn (keeper : Nat) (s : State) : kept (partnerTurn keeper s) = kept s := by
  simp [partnerTurn]

@[simp] theorem kept_frameSent (s : State) : kept (frameSent s) = kept s := by
  unfold frameSent; (repeat' split) <;> simp

@[simp] theorem kept_partnerLost (s : State) : kept (partnerLost s) = kept s := by
  simp only [partnerLost]; (repeat' split) <;> simp [*]

@[simp] theorem kept_realign (a : Nat) (s : State) : kept (realign a s) = kept s := by
  simp [realign]

@[simp] theorem kept_endListening (s : State) : kept (endListening s) = kept s := by
  simp [endListening]

@[simp] theorem kept_meetFound (a : Nat) (s : State) : kept (meetFound a s) = kept s := by
  simp [meetFound]

@[simp] theorem kept_meetArrives (w : PartnerFrame) (a : Nat) (s : State) : kept (meetArrives w a s) = kept s := by
  simp [meetArrives]

@[simp] theorem kept_meetFrame (s : State) : kept (meetFrame s).2 = kept s := by
  simp [meetFrame]

@[simp] theorem kept_sendMeet (a : Nat) (s : State) : kept (sendMeet a s) = kept s := by
  simp only [sendMeet]; (repeat' split) <;> simp

@[simp] theorem kept_meetingInstant (a : Nat) (s : State) : kept (meetingInstant a s) = kept s := by
  simp [meetingInstant]

@[simp] theorem kept_windowOpens (a : Nat) (s : State) : kept (windowOpens a s) = kept s := by
  simp [windowOpens]

@[simp] theorem kept_windowEnds (a : Nat) (s : State) : kept (windowEnds a s) = kept s := by
  simp [windowEnds]

@[simp] theorem kept_syncWords (faultX faultY : BitVec 32) (s : State) : kept (syncWords faultX faultY s) = kept s := by
  simp [syncWords]

@[simp] theorem kept_actOn (v : Verdict) (s : State) : kept (actOn v s) = kept s := by
  unfold actOn; (repeat' split) <;> simp

@[simp] theorem kept_assignCulprits (s : State) : kept (assignCulprits s) = kept s := by
  unfold assignCulprits
  simp only [kept_update]
  refine (kept_forEach _ _ (fun v t => kept_actOn v t) _).trans ?_
  refine (kept_forEach _ _ (fun e t => kept_setEngTally t e _) _).trans ?_
  refine kept_forEach _ _ (fun v t => ?_) _
  split <;> simp

@[simp] theorem kept_endEngFrames (s : State) : kept (endEngFrames s) = kept s := by
  simp [endEngFrames]

@[simp] theorem kept_beginEngFrames (s : State) : kept (beginEngFrames s) = kept s := by
  simp [beginEngFrames]

@[simp] theorem kept_makeTracking (e : Eng) (s : State) : kept (makeTracking e s) = kept s := by
  simp [makeTracking]

@[simp] theorem kept_abortDeliveries (s : State) : kept (abortDeliveries s) = kept s := by
  simp [abortDeliveries]

@[simp] theorem kept_startComputing (e : Eng) (s : State) : kept (startComputing e s) = kept s := by
  simp [startComputing]

@[simp] theorem kept_together (s : State) : kept (together s) = kept s := by
  simp [together]

@[simp] theorem kept_grantTo (e : Eng) (prev : Option Eng) (cause : Nat) (cont : Bool) (q : BitVec 64) (s : State) : kept (grantTo e prev cause cont q s) = kept s := by
  simp [grantTo]

@[simp] theorem kept_withdraw (s : State) : kept (withdraw s) = kept s := by
  unfold withdraw; (repeat' split) <;> simp

@[simp] theorem kept_heartbeat (e : Eng) (claim : BitVec 4) (s : State) : kept (heartbeat e claim s) = kept s := by
  unfold heartbeat; (repeat' split) <;> simp

@[simp] theorem kept_incumbencyGrant (s : State) : kept (incumbencyGrant s) = kept s := by
  unfold incumbencyGrant; (repeat' split) <;> simp

@[simp] theorem kept_firstGrant (s : State) : kept (firstGrant s) = kept s := by
  unfold firstGrant; (repeat' split) <;> simp

@[simp] theorem kept_raiseHealth (hx hy : Nat) (s : State) : kept (raiseHealth hx hy s) = kept s := by
  simp [raiseHealth]

@[simp] theorem kept_scrub (e : Eng) (dist : List (Nat × Byte)) (s : State) : kept (scrub e dist s) = kept s := by
  simp [scrub]

@[simp] theorem kept_copyPages (e : Eng) (s : State) : kept (copyPages e s) = kept s := by
  simp [copyPages]

@[simp] theorem kept_copyState (e : Eng) (s : State) : kept (copyState e s) = kept s := by
  simp [copyState]

@[simp] theorem kept_dropPages (e : Eng) (s : State) : kept (dropPages e s) = kept s := by
  simp [dropPages]

@[simp] theorem kept_pagesArrive (e : Eng) (s : State) : kept (pagesArrive e s) = kept s := by
  unfold pagesArrive; (repeat' split) <;> simp

@[simp] theorem kept_stateFollows (e : Eng) (s : State) : kept (stateFollows e s) = kept s := by
  unfold stateFollows; (repeat' split) <;> simp

@[simp] theorem kept_join (e : Eng) (s : State) : kept (join e s) = kept s := by
  simp [join]

@[simp] theorem kept_reloadActive (page : Nat) (s : State) : kept (reloadActive page s) = kept s := by
  simp [reloadActive]

@[simp] theorem kept_resetState (e : Eng) (s : State) : kept (resetState e s) = kept s := by
  simp [resetState]

@[simp] theorem kept_beginCold (e : Eng) (t : Nat) (copied : Bool) (s : State) : kept (beginCold e t copied s) = kept s := by
  simp [beginCold]

@[simp] theorem kept_rejoinGoesOn (loading : Bool) (t : Nat) (e : Eng) (s : State) : kept (rejoinGoesOn loading t e s) = kept s := by
  unfold rejoinGoesOn; (repeat' split) <;> simp

@[simp] theorem kept_rejoinBegins (t : Nat) (e : Eng) (s : State) : kept (rejoinBegins t e s) = kept s := by
  simp [rejoinBegins]

@[simp] theorem kept_rejoinSteps (t : Nat) (s : State) : kept (rejoinSteps t s) = kept s := by
  simp [rejoinSteps]

@[simp] theorem kept_leaveOff (e : Eng) (s : State) : kept (leaveOff e s) = kept s := by
  simp [leaveOff]

@[simp] theorem kept_engineCare (t : Nat) (e : Eng) (s : State) : kept (engineCare t e s) = kept s := by
  simp [engineCare]

@[simp] theorem kept_stepTwo (o : TurnObs) (hx hy : Nat) (s : State) : kept (stepTwo o hx hy s) = kept s := by
  simp [stepTwo]

@[simp] theorem kept_leaveRetention (s : State) : kept (leaveRetention s) = kept s := by
  simp [leaveRetention]

@[simp] theorem kept_enterRetention (s : State) : kept (enterRetention s) = kept s := by
  simp [enterRetention]

@[simp] theorem kept_loseLineDie (d : LineDie) (s : State) : kept (loseLineDie d s) = kept s := by
  simp [loseLineDie]

@[simp] theorem kept_loseEngine (e : Eng) (s : State) : kept (loseEngine e s) = kept s := by
  simp [loseEngine]

@[simp] theorem kept_dieLost (d : DieId) (s : State) : kept (dieLost d s) = kept s := by
  unfold dieLost; (repeat' split) <;> simp

@[simp] theorem kept_forgetPackets (d : LineDie) (s : State) : kept (forgetPackets d s) = kept s := by
  simp [forgetPackets]

@[simp] theorem kept_findDie (d : LineDie) (heard : Bool) (s : State) : kept (findDie d heard s) = kept s := by
  simp [findDie]

@[simp] theorem kept_restoreDies (s : State) : kept (restoreDies s) = kept s := by
  simp [restoreDies]

@[simp] theorem kept_imageAlarm (s : State) : kept (imageAlarm s) = kept s := by
  simp [imageAlarm]

@[simp] theorem kept_setShadows (sh : Shadow) (s : State) : kept (setShadows sh s) = kept s := by
  simp [setShadows]

@[simp] theorem kept_setForce (n : Nat) (c : Copy) (s : State) : kept (setForce n c s) = kept s := by
  simp [setForce]

@[simp] theorem kept_startLoad (n : Nat) (toActive : Bool) (s : State) : kept (startLoad n toActive s) = kept s := by
  simp [startLoad]

@[simp] theorem kept_makeRequest (n : Nat) (s : State) : kept (makeRequest n s) = kept s := by
  simp [makeRequest]

@[simp] theorem kept_requestPage (rest : Bool) (n : Nat) (s : State) : kept (requestPage rest n s) = kept s := by
  simp [requestPage]

@[simp] theorem kept_retryRefused (s : State) : kept (retryRefused s) = kept s := by
  unfold retryRefused; (repeat' split) <;> simp

@[simp] theorem kept_activate (l : Load) (s : State) : kept (activate l s) = kept s := by
  simp [activate]

@[simp] theorem kept_shadowed (l : Load) (x y : Option LoadReport) (s : State) : kept (shadowed l x y s) = kept s := by
  simp [shadowed]

@[simp] theorem kept_refuse (l : Load) (s : State) : kept (refuse l s) = kept s := by
  simp [refuse]

@[simp] theorem kept_writeV (l : Load) (s : State) : kept (writeV l s) = kept s := by
  simp [writeV]

@[simp] theorem kept_finishReload (l : Load) (s : State) : kept (finishReload l s) = kept s := by
  simp [finishReload]

@[simp] theorem kept_loadEnds (x y : Option LoadReport) (s : State) : kept (loadEnds x y s) = kept s := by
  simp only [loadEnds]; (repeat' split) <;> simp

@[simp] theorem kept_flushPort (p : Port) (e : Eng) (s : State) : kept (flushPort p e s) = kept s := by
  simp [flushPort]

@[simp] theorem kept_portDown (p : Port) (s : State) : kept (portDown p s) = kept s := by
  simp [portDown]

@[simp] theorem kept_stepThree (s : State) : kept (stepThree s) = kept s := by
  unfold stepThree; (repeat' split) <;> simp

@[simp] theorem kept_sampleKeys (mode page cmd tally : KeyRaw) (s : State) : kept (sampleKeys mode page cmd tally s) = kept s := by
  simp [sampleKeys]

@[simp] theorem kept_krefTurn (krefOut : Bool) (f : LiveKey → LiveKey) (s : State) : kept (krefTurn krefOut f s) = kept s := by
  simp [krefTurn]

@[simp] theorem kept_keysTurn (krefOut : Bool) (s : State) : kept (keysTurn krefOut s) = kept s := by
  simp [keysTurn]

@[simp] theorem kept_mirrorTakesEffect (s : State) : kept (mirrorTakesEffect s) = kept s := by
  simp only [mirrorTakesEffect]; (repeat' split) <;> simp [*]

@[simp] theorem kept_flagLive (s : State) : kept (flagLive s) = kept s := by
  simp [flagLive]

@[simp] theorem kept_keepPage (s : State) : kept (keepPage s) = kept s := by
  simp [keepPage]

@[simp] theorem kept_makeHeld (s : State) : kept (makeHeld s) = kept s := by
  unfold makeHeld; (repeat' split) <;> simp

@[simp] theorem kept_makeDeferred (s : State) : kept (makeDeferred s) = kept s := by
  unfold makeDeferred; (repeat' split) <;> simp

@[simp] theorem kept_pageKey (old : Option (BitVec 4)) (s : State) : kept (pageKey old s) = kept s := by
  simp [pageKey]

@[simp] theorem kept_filterKey (s : State) : kept (filterKey s) = kept s := by
  simp [filterKey]

@[simp] theorem kept_modeKey (s : State) : kept (modeKey s) = kept s := by
  simp [modeKey]

@[simp] theorem kept_restEngines (s : State) : kept (restEngines s) = kept s := by
  simp [restEngines]

@[simp] theorem kept_leaveProof (was : Mode) (s : State) : kept (leaveProof was s) = kept s := by
  unfold leaveProof; (repeat' split) <;> simp

@[simp] theorem kept_enterProof (was : Mode) (s : State) : kept (enterProof was s) = kept s := by
  unfold enterProof; (repeat' split) <;> simp

@[simp] theorem kept_patternCommand (old : Option (BitVec 4)) (s : State) : kept (patternCommand old s) = kept s := by
  unfold patternCommand; (repeat' split) <;> simp

@[simp] theorem kept_stepFour (krefOut : Bool) (s : State) : kept (stepFour krefOut s) = kept s := by
  simp [stepFour]

@[simp] theorem kept_clearTimers (s : State) : kept (clearTimers s) = kept s := by
  simp [clearTimers]

@[simp] theorem kept_startTimers (s : State) : kept (startTimers s) = kept s := by
  simp [startTimers]

@[simp] theorem kept_loadCompares (n : Nat) (c : Copy) (s : State) : kept (loadCompares n c s) = kept s := by
  refine kept_forEach _ _ (fun i t => ?_) _
  split <;> simp

@[simp] theorem kept_takeAction (i : TimerId) (s : State) : kept (takeAction i s) = kept s := by
  simp only [takeAction]; (repeat' split) <;> simp [*]

@[simp] theorem kept_takeActions (s : State) : kept (takeActions s) = kept s := by
  simp [takeActions]

@[simp] theorem kept_stepFive (start : Bool) (swapped : Option (Nat × Copy)) (s : State) : kept (stepFive start swapped s) = kept s := by
  unfold stepFive; (repeat' split) <;> simp

@[simp] theorem kept_passLate (i : TimerId) (n : Nat) (s : State) : kept (passLate i n s) = kept s := by
  simp [passLate]

@[simp] theorem kept_catchTimer (p tr : Nat) (i : TimerId) (x : State × List Nat) : kept (catchTimer p tr i x).1 = kept x.1 := by
  obtain ⟨s, ev⟩ := x
  simp only [catchTimer]; (repeat' split) <;> simp

@[simp] theorem kept_catchUp (p tr : Nat) (s : State) : kept (catchUp p tr s) = kept s := by
  unfold catchUp
  generalize all16 = l
  generalize ([] : List Nat) = acc
  induction l generalizing s acc with
  | nil => rfl
  | cons i l ih => simp only [List.foldl_cons]; rw [ih, kept_catchTimer]

@[simp] theorem kept_resumeTimer (s0 : State) (i : TimerId) (s : State) : kept (resumeTimer s0 i s) = kept s := by
  simp [resumeTimer]

@[simp] theorem kept_resumeTimers (p tr : Nat) (s : State) : kept (resumeTimers p tr s) = kept s := by
  simp [resumeTimers]

@[simp] theorem kept_timerMatches (i : TimerId) (s : State) : kept (timerMatches i s) = kept s := by
  simp [timerMatches]

@[simp] theorem kept_timerOverflows (i : TimerId) (s : State) : kept (timerOverflows i s) = kept s := by
  simp [timerOverflows]

@[simp] theorem kept_pulseEnds (s : State) : kept (pulseEnds s) = kept s := by
  unfold pulseEnds; (repeat' split) <;> simp

@[simp] theorem kept_minimumEnds (s : State) : kept (minimumEnds s) = kept s := by
  unfold minimumEnds; (repeat' split) <;> simp

@[simp] theorem floats_framMem (n : Nat) (m : Matrix) : (m.floats n).framMem = m.framMem := rfl
@[simp] theorem floats_psramMem (n : Nat) (m : Matrix) : (m.floats n).psramMem = m.psramMem := rfl
@[simp] theorem floats_sramMem (n : Nat) (m : Matrix) : (m.floats n).sramMem = m.sramMem := rfl


/-! ### The matrix: what its updates leave of the memories -/

@[simp] theorem setTarget_framMem (m : Matrix) (t : Target) (f : TargetSt → TargetSt) : (m.setTarget t f).framMem = m.framMem := by
  cases t <;> rfl
@[simp] theorem setTarget_psramMem (m : Matrix) (t : Target) (f : TargetSt → TargetSt) : (m.setTarget t f).psramMem = m.psramMem := by
  cases t <;> rfl
@[simp] theorem setTarget_sramMem (m : Matrix) (t : Target) (f : TargetSt → TargetSt) : (m.setTarget t f).sramMem = m.sramMem := by
  cases t <;> rfl
@[simp] theorem setLend_framMem (m : Matrix) (l : LendTarget) (f : Lend → Lend) : (m.setLend l f).framMem = m.framMem := by
  cases l <;> rfl
@[simp] theorem setLend_psramMem (m : Matrix) (l : LendTarget) (f : Lend → Lend) : (m.setLend l f).psramMem = m.psramMem := by
  cases l <;> rfl
@[simp] theorem setLend_sramMem (m : Matrix) (l : LendTarget) (f : Lend → Lend) : (m.setLend l f).sramMem = m.sramMem := by
  cases l <;> rfl
@[simp] theorem count_framMem (m : Matrix) (x : Master) (f : MasterSt → MasterSt) : (m.count x f).framMem = m.framMem := rfl
@[simp] theorem count_psramMem (m : Matrix) (x : Master) (f : MasterSt → MasterSt) : (m.count x f).psramMem = m.psramMem := rfl
@[simp] theorem count_sramMem (m : Matrix) (x : Master) (f : MasterSt → MasterSt) : (m.count x f).sramMem = m.sramMem := rfl
@[simp] theorem doGrant_framMem (n c : Nat) (t : Target) (w : BurstReq × Nat) (m : Matrix) : (doGrant n c t w m).framMem = m.framMem := by
  simp [doGrant]
@[simp] theorem doGrant_psramMem (n c : Nat) (t : Target) (w : BurstReq × Nat) (m : Matrix) : (doGrant n c t w m).psramMem = m.psramMem := by
  simp [doGrant]
@[simp] theorem doGrant_sramMem (n c : Nat) (t : Target) (w : BurstReq × Nat) (m : Matrix) : (doGrant n c t w m).sramMem = m.sramMem := by
  simp [doGrant]

@[simp] theorem kept_grantAll (s : State) : kept (grantAll s) = kept s := by
  refine kept_forEach _ _ (fun t s => ?_) _
  split <;> simp

@[simp] theorem kept_grantNew (tg : Target) (w : BurstReq × Nat) (s : State) : kept (grantNew tg w s) = kept s := by
  simp [grantNew]

@[simp] theorem kept_countMade (q : BurstReq) (s : State) : kept (countMade q s) = kept s := by
  unfold countMade; (repeat' split) <;> simp

@[simp] theorem kept_matrixRequest (q : BurstReq) (s : State) : kept (matrixRequest q s) = kept s := by
  simp only [matrixRequest]; (repeat' split) <;> first | rfl | simp

@[simp] theorem kept_captureCommitted (word : BitVec 32) (a : Nat) (s : State) : kept (captureCommitted word a s) = kept s := by
  unfold captureCommitted; (repeat' split) <;> simp

@[simp] theorem kept_tallyCommitted (word : BitVec 32) (a : Nat) (s : State) : kept (tallyCommitted word a s) = kept s := by
  simp [tallyCommitted]

@[simp] theorem kept_wordWritten (q : BurstReq) (a : Nat) (s : State) : kept (wordWritten q a s) = kept s := by
  unfold wordWritten; (repeat' split) <;> simp

@[simp] theorem kept_dropBursts (s : State) : kept (dropBursts s) = kept s := by
  simp [dropBursts, targets]

@[simp] theorem kept_lendRequested (l : LendTarget) (s : State) : kept (lendRequested l s) = kept s := by
  simp only [lendRequested]; (repeat' split) <;> simp

@[simp] theorem kept_lendGranted (l : LendTarget) (s : State) : kept (lendGranted l s) = kept s := by
  simp only [lendGranted]; (repeat' split) <;> simp

@[simp] theorem kept_lendChecked (l : LendTarget) (s : State) : kept (lendChecked l s) = kept s := by
  simp only [lendChecked]; (repeat' split) <;> simp

@[simp] theorem kept_lendAtTake (s : State) : kept (lendAtTake s) = kept s := by
  simp [lendAtTake]

@[simp] theorem kept_endLendFrames (s : State) : kept (endLendFrames s) = kept s := by
  simp [endLendFrames]

@[simp] theorem kept_writeNext (s : State) : kept (writeNext s) = kept s := by
  unfold writeNext; (repeat' split) <;> simp

@[simp] theorem kept_recordDue (r : Record) (s0 : State) : kept (recordDue r s0) = kept s0 := by
  simp only [recordDue]; (repeat' split) <;> simp [*]

@[simp] theorem kept_restartCounts (s : State) : kept (restartCounts s) = kept s := by
  simp [restartCounts]

@[simp] theorem kept_secondClose (s : State) : kept (secondClose s) = kept s := by
  simp only [secondClose]
  split
  · rw [kept_recordDue]
    exact kept_restartCounts { s with matrix := s.matrix.chargeWaits s.now }
  · rfl

@[simp] theorem kept_inHand (q : BurstReq) (s : State) : kept (inHand q s) = kept s := by
  unfold inHand; (repeat' split) <;> simp

@[simp] theorem kept_requestArrives (q : BurstReq) (s : State) : kept (requestArrives q s) = kept s := by
  simp only [requestArrives]; (repeat' split) <;> simp [*]

@[simp] theorem kept_memoryFrame (s : State) : kept (memoryFrame s) = kept s := by
  simp [memoryFrame]

@[simp] theorem kept_startStream (s : State) : kept (startStream s) = kept s := by
  simp [startStream]

@[simp] theorem kept_stopStream (s : State) : kept (stopStream s) = kept s := by
  simp [stopStream]

@[simp] theorem kept_turnFlags (s : State) : kept (turnFlags s) = kept s := by
  simp [turnFlags]

@[simp] theorem kept_candidateQualifies (p : Port) (s : State) : kept (candidateQualifies p s) = kept s := by
  simp [candidateQualifies]

@[simp] theorem kept_refinQualifies (s : State) : kept (refinQualifies s) = kept s := by
  simp [refinQualifies]

@[simp] theorem kept_referenceLost (s : State) : kept (referenceLost s) = kept s := by
  simp [referenceLost]

@[simp] theorem kept_candidateFails (c : RefCand) (outOfRange : Bool) (s : State) : kept (candidateFails c outOfRange s) = kept s := by
  simp [candidateFails]

@[simp] theorem kept_referenceTurn (freq : Int) (inLock : Bool) (s : State) : kept (referenceTurn freq inLock s) = kept s := by
  simp [referenceTurn]

@[simp] theorem kept_countGoodFrames (refinOk : Bool) (s : State) : kept (countGoodFrames refinOk s) = kept s := by
  simp [countGoodFrames]

@[simp] theorem kept_stopCounting (at_ : Nat) (s : State) : kept (stopCounting at_ s) = kept s := by
  simp [stopCounting]

@[simp] theorem kept_resumeCounting (tr : Nat) (s : State) : kept (resumeCounting tr s) = kept s := by
  simp [resumeCounting]

@[simp] theorem kept_updateReceivers (s : State) : kept (updateReceivers s) = kept s := by
  simp [updateReceivers]

@[simp] theorem kept_stopReceivers (s : State) : kept (stopReceivers s) = kept s := by
  simp [stopReceivers]

@[simp] theorem kept_powerDies (s : State) : kept (powerDies s) = kept s := by
  simp [powerDies]

@[simp] theorem kept_unpowerDies (s : State) : kept (unpowerDies s) = kept s := by
  simp [unpowerDies]

@[simp] theorem kept_resumeDies (s : State) : kept (resumeDies s) = kept s := by
  simp [resumeDies]

@[simp] theorem kept_unpowerEngines (s : State) : kept (unpowerEngines s) = kept s := by
  simp [unpowerEngines]

@[simp] theorem kept_powerEngines (s : State) : kept (powerEngines s) = kept s := by
  simp [powerEngines]

@[simp] theorem kept_dropChunks (s : State) : kept (dropChunks s) = kept s := by
  simp [dropChunks]

@[simp] theorem kept_freshPairs (s0 : State) : kept (freshPairs s0) = kept s0 := by
  simp [freshPairs]

@[simp] theorem kept_dropLoads (s : State) : kept (dropLoads s) = kept s := by
  simp [dropLoads]

@[simp] theorem kept_enterRest (s : State) : kept (enterRest s) = kept s := by
  simp [enterRest]

@[simp] theorem kept_forgetSamples (s : State) : kept (forgetSamples s) = kept s := by
  simp [forgetSamples]

@[simp] theorem kept_releaseReady (s : State) : kept (releaseReady s) = kept s := by
  simp [releaseReady]

@[simp] theorem kept_xinStops (s : State) : kept (xinStops s) = kept s := by
  simp [xinStops]

@[simp] theorem kept_reloadWakePage (s : State) : kept (reloadWakePage s) = kept s := by
  unfold reloadWakePage; (repeat' split) <;> simp

@[simp] theorem kept_restartEngines (s : State) : kept (restartEngines s) = kept s := by
  simp [restartEngines]

@[simp] theorem kept_transferNotices (s : State) : kept (transferNotices s) = kept s := by
  simp [transferNotices]

@[simp] theorem kept_freshCounts (s : State) : kept (freshCounts s) = kept s := by
  simp [freshCounts]

@[simp] theorem kept_countingResumes (n : Nat) (s : State) : kept (countingResumes n s) = kept s := by
  simp [countingResumes]

@[simp] theorem kept_dropPortReferences (s : State) : kept (dropPortReferences s) = kept s := by
  simp [dropPortReferences]

@[simp] theorem kept_resetDies (s : State) : kept (resetDies s) = kept s := by
  simp [resetDies]

@[simp] theorem kept_endDoze (s : State) : kept (endDoze s) = kept s := by
  simp [endDoze]

@[simp] theorem kept_wake (s : State) : kept (wake s) = kept s := by
  simp [wake]

@[simp] theorem kept_resetAsserted (s : State) : kept (resetAsserted s) = kept s := by
  simp [resetAsserted]

@[simp] theorem kept_dozeRequested (s : State) : kept (dozeRequested s) = kept s := by
  simp [dozeRequested]

@[simp] theorem kept_dozeFalls (s : State) : kept (dozeFalls s) = kept s := by
  simp [dozeFalls]

@[simp] theorem kept_enterDoze (s : State) : kept (enterDoze s) = kept s := by
  simp [enterDoze]

@[simp] theorem kept_sampleBoot (o : StartObs) (s : State) : kept (sampleBoot o s) = kept s := by
  simp [sampleBoot]

@[simp] theorem kept_beginCounting (s : State) : kept (beginCounting s) = kept s := by
  simp [beginCounting]

@[simp] theorem kept_startPartner (again : Bool) (s : State) : kept (startPartner again s) = kept s := by
  simp [startPartner]

@[simp] theorem kept_startImage (o : StartObs) (s : State) : kept (startImage o s) = kept s := by
  simp [startImage]

@[simp] theorem kept_startRecognised (o : StartObs) (s : State) : kept (startRecognised o s) = kept s := by
  simp [startRecognised]

@[simp] theorem kept_validate (s : State) : kept (validate s) = kept s := by
  simp [validate]

@[simp] theorem kept_applyProfiles (s : State) : kept (applyProfiles s) = kept s := by
  simp [applyProfiles]

@[simp] theorem kept_openPartner (s : State) : kept (openPartner s) = kept s := by
  simp [openPartner]

@[simp] theorem kept_loadPageZero (s : State) : kept (loadPageZero s) = kept s := by
  unfold loadPageZero; (repeat' split) <;> simp

@[simp] theorem kept_validated (s : State) : kept (validated s) = kept s := by
  simp [validated]

@[simp] theorem kept_jumpTo (t : Nat) (s : State) : kept (jumpTo t s) = kept s := by
  simp [jumpTo]

@[simp] theorem kept_correctTurn (s : State) : kept (correctTurn s) = kept s := by
  simp only [correctTurn]; (repeat' split) <;> simp [*]

@[simp] theorem kept_enterLast (n cause : Nat) (s : State) : kept (enterLast n cause s) = kept s := by
  simp [enterLast]

@[simp] theorem kept_dozeFails (s : State) : kept (dozeFails s) = kept s := by
  simp [dozeFails]

@[simp] theorem kept_mainFails (vcell n : Nat) (s : State) : kept (mainFails vcell n s) = kept s := by
  simp [mainFails]

@[simp] theorem kept_enginesDown (s : State) : kept (enginesDown s) = kept s := by
  simp [enginesDown]

@[simp] theorem kept_finishFrame (o : TurnObs) (s : State) : kept (finishFrame o s) = kept s := by
  simp [finishFrame]

@[simp] theorem kept_lineDiesDown (o : TurnObs) (s : State) : kept (lineDiesDown o s) = kept s := by
  simp [lineDiesDown]

@[simp] theorem kept_lastEntered (n : Nat) (s : State) : kept (lastEntered n s) = kept s := by
  simp [lastEntered]

@[simp] theorem kept_coldStarted (s : State) : kept (coldStarted s) = kept s := by
  simp [coldStarted]

@[simp] theorem kept_mainStable (s : State) : kept (mainStable s) = kept s := by
  simp [mainStable]

@[simp] theorem kept_railsIn (core vline : Bool) (s : State) : kept (railsIn core vline s) = kept s := by
  simp [railsIn]

@[simp] theorem kept_coreRailOut (s : State) : kept (coreRailOut s) = kept s := by
  simp [coreRailOut]

@[simp] theorem kept_moveTo (p : Pos) (s : State) : kept (moveTo p s) = kept s := by
  simp [moveTo]

@[simp] theorem kept_latchPages (s : State) : kept (latchPages s) = kept s := by
  simp [latchPages]

@[simp] theorem kept_readPorts (b : Nat) (s : State) : kept (readPorts b s) = kept s := by
  simp [readPorts]

@[simp] theorem kept_frameEnd (s : State) : kept (frameEnd s) = kept s := by
  simp [frameEnd]

@[simp] theorem kept_readHinges (low : BitVec 32) (s : State) : kept (readHinges low s) = kept s := by
  simp [readHinges]

@[simp] theorem kept_startEngines (s : State) : kept (startEngines s) = kept s := by
  simp [startEngines]

@[simp] theorem kept_buildInputs (s : State) : kept (buildInputs s) = kept s := by
  simp [buildInputs]

@[simp] theorem kept_copiesArrive (s : State) : kept (copiesArrive s) = kept s := by
  simp [copiesArrive]

@[simp] theorem kept_startFound (s0 s : State) : kept (startFound s0 s) = kept s := by
  simp [startFound]

@[simp] theorem kept_frameStart (o : FrameObs) (s : State) : kept (frameStart o s) = kept s := by
  simp [frameStart]

@[simp] theorem kept_frameBoundary (o : FrameObs) (s : State) : kept (frameBoundary o s) = kept s := by
  simp [frameBoundary]

@[simp] theorem kept_noteLimits (s : State) : kept (noteLimits s) = kept s := by
  simp [noteLimits]

@[simp] theorem kept_noteWrap (s : State) : kept (noteWrap s) = kept s := by
  simp [noteWrap]

@[simp] theorem kept_countTurn (s : State) : kept (countTurn s) = kept s := by
  simp [countTurn]

@[simp] theorem kept_endTurn (s : State) : kept (endTurn s) = kept s := by
  simp [endTurn]

@[simp] theorem kept_proofResult (whole : Bool) (e : Eng) (s : State) : kept (proofResult whole e s) = kept s := by
  simp [proofResult]

@[simp] theorem kept_endCycle (s : State) : kept (endCycle s) = kept s := by
  simp [endCycle]

@[simp] theorem kept_followProof (s : State) : kept (followProof s) = kept s := by
  simp [followProof]

@[simp] theorem kept_stepOne (s : State) : kept (stepOne s) = kept s := by
  simp [stepOne]

@[simp] theorem kept_readyTurn (s : State) : kept (readyTurn s) = kept s := by
  simp [readyTurn]

@[simp] theorem kept_openSecond (closed : Bool) (s : State) : kept (openSecond closed s) = kept s := by
  simp [openSecond]

@[simp] theorem kept_fullTurn (o : TurnObs) (s : State) : kept (fullTurn o s) = kept s := by
  simp [fullTurn]

@[simp] theorem kept_unclosed (s : State) : kept (unclosed s) = kept s := by
  simp [unclosed]

@[simp] theorem kept_ridingTurn (s : State) : kept (ridingTurn s) = kept s := by
  simp [ridingTurn]

@[simp] theorem kept_turnActions (o : TurnObs) (s : State) : kept (turnActions o s) = kept s := by
  simp [turnActions]

@[simp] theorem kept_turnBoundary (o : TurnObs) (s : State) : kept (turnBoundary o s) = kept s := by
  simp [turnBoundary]

@[simp] theorem kept_lastTurn (o : TurnObs) (s : State) : kept (lastTurn o s) = kept s := by
  simp [lastTurn]

@[simp] theorem kept_holdPageKey (old : Option (BitVec 4)) (s : State) : kept (holdPageKey old s) = kept s := by
  simp [holdPageKey]

@[simp] theorem kept_dozeEntered (o : TurnObs) (s : State) : kept (dozeEntered o s) = kept s := by
  simp [dozeEntered]

end Sys2Proof.Machine
end

