-- ==== Sys2Proof/Laws/Memory.lean ====
section
/-! SUPPORT. Laws of the byte memories: what a write leaves to be read, and that every operation keeps the canonical
form. -/

namespace Sys2Proof.Machine

/-! ### Reading what was written -/

/-- A byte that lies below every entry reads as the fill. -/
theorem Mem.read_below (d : Byte) (m : Mem) (x y : Nat) (h : Mem.wfFrom d y m = true) (hx : x < y) : Mem.read d m x = d := by
  induction m generalizing y with
  | nil => rfl
  | cons e m ih =>
    obtain ⟨a, b⟩ := e
    simp only [Mem.wfFrom, Bool.and_eq_true, decide_eq_true_eq] at h
    have : x ≠ a := by omega
    simp only [Mem.read, if_neg this]
    exact ih (a + 1) h.2 (by omega)

/-- A write is read back at its address. -/
theorem Mem.read_write_same (d : Byte) (m : Mem) (x y : Nat) (v : Byte) (h : Mem.wfFrom d y m = true) :
    Mem.read d (Mem.write d m x v) x = v := by
  induction m generalizing y with
  | nil =>
    simp only [Mem.write]; split
    · rename_i hv; exact hv.symm
    · simp [Mem.read]
  | cons e m ih =>
    obtain ⟨a, b⟩ := e
    simp only [Mem.wfFrom, Bool.and_eq_true, decide_eq_true_eq] at h
    simp only [Mem.write]
    split
    · split
      · rename_i hx hv
        rw [hv]
        exact Mem.read_below d _ x a (by simp [Mem.wfFrom, h.1.2, h.2]) hx
      · simp [Mem.read]
    · split
      · split
        · rename_i hx hv
          rw [hv, hx]
          exact Mem.read_below d m a (a + 1) h.2 (by omega)
        · simp [Mem.read]
      · rename_i hx
        simp only [Mem.read, if_neg hx]
        exact ih (a + 1) h.2

/-- A write leaves every other address as it was. -/
theorem Mem.read_write_other (d : Byte) (m : Mem) (x z : Nat) (v : Byte) (h : z ≠ x) :
    Mem.read d (Mem.write d m x v) z = Mem.read d m z := by
  induction m with
  | nil => simp only [Mem.write]; split <;> simp [Mem.read, h]
  | cons e m ih =>
    obtain ⟨a, b⟩ := e
    simp only [Mem.write]
    split
    · split
      · rfl
      · simp only [Mem.read, if_neg h]
    · split
      · rename_i hx
        have : z ≠ a := by omega
        split <;> simp only [Mem.read, if_neg h, if_neg this]
      · simp only [Mem.read, ih]

/-- Writing bytes from an address on leaves every address outside them as it was. -/
theorem Mem.read_writeAll_other (d : Byte) (l : List Byte) (m : Mem) (x z : Nat) (h : z < x ∨ x + l.length ≤ z) :
    Mem.read d (Mem.writeAll d m x l) z = Mem.read d m z := by
  induction l generalizing m x with
  | nil => rfl
  | cons v l ih =>
    simp only [List.length_cons] at h
    simp only [Mem.writeAll]
    rw [ih _ _ (by omega), Mem.read_write_other _ _ _ _ _ (by omega)]

/-! ### The canonical form -/

/-- A lower bound may be weakened. -/
theorem Mem.wfFrom_mono {d : Byte} {m : Mem} {y z : Nat} (h : Mem.wfFrom d z m = true) (hy : y ≤ z) : Mem.wfFrom d y m = true := by
  cases m with
  | nil => rfl
  | cons e m =>
    obtain ⟨a, b⟩ := e
    simp only [Mem.wfFrom, Bool.and_eq_true, decide_eq_true_eq] at h ⊢
    exact ⟨⟨by omega, h.1.2⟩, h.2⟩

/-- A write keeps the canonical form. -/
theorem Mem.wfFrom_write (d : Byte) (m : Mem) (x y : Nat) (v : Byte) (h : Mem.wfFrom d y m = true) (hy : y ≤ x) :
    Mem.wfFrom d y (Mem.write d m x v) = true := by
  induction m generalizing y with
  | nil => simp only [Mem.write]; split <;> simp_all [Mem.wfFrom]
  | cons e m ih =>
    obtain ⟨a, b⟩ := e
    have h0 := h
    simp only [Mem.wfFrom, Bool.and_eq_true, decide_eq_true_eq] at h
    simp only [Mem.write]
    split
    · rename_i hx
      split
      · exact h0
      · rename_i hv
        simp only [Mem.wfFrom, Bool.and_eq_true, decide_eq_true_eq]
        exact ⟨⟨hy, hv⟩, ⟨by omega, h.1.2⟩, h.2⟩
    · split
      · rename_i hx
        split
        · exact Mem.wfFrom_mono h.2 (by omega)
        · rename_i hv
          simp only [Mem.wfFrom, Bool.and_eq_true, decide_eq_true_eq]
          exact ⟨⟨hy, hv⟩, by rw [hx]; exact h.2⟩
      · simp only [Mem.wfFrom, Bool.and_eq_true, decide_eq_true_eq]
        exact ⟨h.1, ih (a + 1) h.2 (by omega)⟩

theorem Mem.wf_write (d : Byte) (m : Mem) (x : Nat) (v : Byte) (h : Mem.wf d m = true) : Mem.wf d (Mem.write d m x v) = true :=
  Mem.wfFrom_write d m x 0 v h (Nat.zero_le x)

/-- Writing bytes keeps the canonical form. -/
theorem Mem.wf_writeAll (d : Byte) (l : List Byte) (m : Mem) (x : Nat) (h : Mem.wf d m = true) :
    Mem.wf d (Mem.writeAll d m x l) = true := by
  induction l generalizing m x with
  | nil => exact h
  | cons v l ih => exact ih _ _ (Mem.wf_write d m x v h)

/-- Equal reads make equal memories: the canonical form holds each content once. -/
theorem Mem.ext_of_wf (d : Byte) (m n : Mem) (y : Nat) (hm : Mem.wfFrom d y m = true) (hn : Mem.wfFrom d y n = true)
    (h : ∀ x, Mem.read d m x = Mem.read d n x) : m = n := by
  induction m generalizing n y with
  | nil =>
    cases n with
    | nil => rfl
    | cons e n =>
      obtain ⟨a, b⟩ := e
      simp only [Mem.wfFrom, Bool.and_eq_true, decide_eq_true_eq] at hn
      have := h a
      simp only [Mem.read, if_true] at this
      exact absurd this.symm hn.1.2
  | cons e m ih =>
    obtain ⟨a, b⟩ := e
    cases n with
    | nil =>
      simp only [Mem.wfFrom, Bool.and_eq_true, decide_eq_true_eq] at hm
      have := h a
      simp only [Mem.read, if_true] at this
      exact absurd this hm.1.2
    | cons e' n =>
      obtain ⟨a', b'⟩ := e'
      have hm' := hm
      have hn' := hn
      simp only [Mem.wfFrom, Bool.and_eq_true, decide_eq_true_eq] at hm hn
      have hab : a = a' := by
        rcases Nat.lt_trichotomy a a' with hlt | heq | hgt
        · have h1 := h a
          rw [Mem.read_below d ((a', b') :: n) a a' (by simp [Mem.wfFrom, hn.1.2, hn.2]) hlt] at h1
          simp only [Mem.read, if_true] at h1
          exact absurd h1 hm.1.2
        · exact heq
        · have h1 := h a'
          rw [Mem.read_below d ((a, b) :: m) a' a (by simp [Mem.wfFrom, hm.1.2, hm.2]) hgt] at h1
          simp only [Mem.read, if_true] at h1
          exact absurd h1.symm hn.1.2
      subst hab
      have hb : b = b' := by
        have h1 := h a
        simpa only [Mem.read, if_true] using h1
      subst hb
      congr 1
      refine ih n (a + 1) hm.2 hn.2 (fun x => ?_)
      rcases Nat.lt_or_ge x (a + 1) with hx | hx
      · rw [Mem.read_below d m x (a + 1) hm.2 hx, Mem.read_below d n x (a + 1) hn.2 hx]
      · have h1 := h x
        have hne : x ≠ a := by omega
        simpa only [Mem.read, if_neg hne] using h1

/-! ### The memories of the matrix -/

/-- The three memories that the matrix writes are in their canonical form. -/
def Matrix.wf (m : Matrix) : Bool :=
  Mem.wf ramFill m.framMem && Mem.wf ramFill m.psramMem && Mem.wf ramFill m.sramMem

/-- A write of a burst keeps the canonical form of every memory. -/
theorem Matrix.wf_writeMem (m : Matrix) (t : Target) (a : Nat) (l : List Byte) (h : m.wf = true) : (m.writeMem t a l).wf = true := by
  simp only [Matrix.wf, Bool.and_eq_true] at h ⊢
  cases t <;> simp only [Matrix.writeMem]
  · exact h
  · exact ⟨⟨h.1.1, Mem.wf_writeAll _ _ _ _ h.1.2⟩, h.2⟩
  · exact ⟨⟨Mem.wf_writeAll _ _ _ _ h.1.1, h.1.2⟩, h.2⟩
  · exact ⟨h.1, Mem.wf_writeAll _ _ _ _ h.2⟩

/-- What a host changed in a lent memory keeps the canonical form. -/
theorem Matrix.wf_hostWrites (t : Target) (w : List (Nat × Byte)) (m : Matrix) (h : m.wf = true) : (hostWrites t w m).wf = true := by
  unfold hostWrites
  generalize w.filter _ = l
  induction l generalizing m with
  | nil => exact h
  | cons e l ih => exact ih _ (Matrix.wf_writeMem m t e.1 [e.2] h)

end Sys2Proof.Machine
end

