-- ==== Sys2Proof/WellFormed.lean ====
section
/-! DEFINITION. Which commands the hardware can be sent: operands inside the bounds the manual gives them. -/

namespace Sys2Proof

/-- Instruction codes that the table of R490 lists by name. -/
def listedTapCodes : List (BitVec 4) := [0, 1, 2, 3, 4, 8, 9]

/-- A master's longest burst (R408). -/
def burstLimit : Master → Nat
  | .loader => 4096
  | .captureX | .captureY => 512
  | .dump | .proof => 256
  | .lendMonitor => 16

/-- Bytes that the largest device of a lent memory holds (R414). -/
def lentBytes : LendTarget → Nat
  | .tally => 0x80000
  | .capture => 0x4000000

/-- A request names 1 to the longest burst's bytes, and gives as many bytes as it writes (R408). -/
def BurstReq.wf (q : BurstReq) : Bool :=
  decide (1 ≤ q.len ∧ q.len ≤ burstLimit q.master) && (!q.write || q.bytes.length == q.len)

/-- A link of a receiver: a keeper link has no number of its own and counts as link 0. -/
def linkFits (r : Receiver) (l : LinkId) : Bool :=
  match r with
  | .engine _ _ | .line _ _ => true
  | .engineKeeper _ | .keeper _ => l == 0

/-- Bit periods of a line frame: 256 on E1, and 193 on T1 (R106). -/
def frameLengthFits (n : Nat) : Bool := n == 256 || n == 193

/-- A differential delay that the 14-bit field of the pair state word holds (R266). -/
def delayFits (d : Int) : Bool := decide (-8192 ≤ d ∧ d ≤ 8191)

/-- A command's operands are inside their bounds. -/
def Instr.wf : Instr → Bool
  | .bypass c _ => !listedTapCodes.contains c
  | .extest _ seen => seen.length == 65
  | .samplePreload _ seen => seen.length == 65
  | .cellArrival r l _ payload _ => linkFits r l && payload.length == 56
  | .beatReceived _ _ _ _ payload _ => payload.length == 56
  | .frameWrittenInLineTime _ w _ => frameLengthFits w.frame.length
  | .liftedFrame _ octets _ => !octets.isEmpty
  | .matrixRequest q _ => q.wf
  | .lendRelease m wrote _ => wrote.all (fun w => decide (w.1 < lentBytes m))
  | .offsetConfirmed _ d _ => delayFits d
  | .confirmationLost _ d _ => delayFits d
  | .frameBoundary _ => true
  | _ => true

end Sys2Proof
end

