-- ==== Sys2Proof/Tests/Slice0.lean ====
section
/-! SUPPORT. Tests: the operand checks refuse what is out of bounds, check values that the manual states, single steps on
small states, and for each statement with hypotheses a state and operands that meet them. -/

namespace Sys2Proof.Tests

open Sys2Proof.Machine

set_option Elab.async false

/-! ### Operand checks: each refuses an ill-formed command -/

/-- A code that names another instruction is not BYPASS. -/
theorem test_wf_bypass : Instr.wf (.bypass 8 []) = false ∧ Instr.wf (.bypass 15 []) = true := by decide

/-- A payload of 55 octets, and link 1 of a keeper link, are no cell arrival. -/
theorem test_wf_cell :
    Instr.wf (.cellArrival (.line .lda .ex) 0 0 (List.replicate 55 0) 0) = false ∧
      Instr.wf (.cellArrival (.keeper .ex) 1 0 (List.replicate 56 0) 0) = false ∧
      Instr.wf (.beatReceived .lda .ex 0 0 [] 0) = false := by decide

/-- A frame in line time has 256 bit periods, or 193 on T1; a lifted frame has at least one bit. -/
theorem test_wf_frame :
    Instr.wf (.frameWrittenInLineTime 0 ⟨[], List.replicate 192 .none, []⟩ 0) = false ∧
      Instr.wf (.frameWrittenInLineTime 0 ⟨[], List.replicate 193 .none, []⟩ 0) = true ∧ Instr.wf (.liftedFrame 0 [] 0) = false := by
  decide +kernel

/-- A burst longer than its master's longest, and a write without its bytes, are no requests. -/
theorem test_wf_burst :
    Instr.wf (.matrixRequest ⟨.captureX, .captureRing, 0, 513, false, [], false⟩ 0) = false ∧
      Instr.wf (.matrixRequest ⟨.dump, .tallyRing, 0, 4, true, [1], false⟩ 0) = false ∧
      Instr.wf (.matrixRequest ⟨.captureX, .captureRing, 0, 512, false, [], false⟩ 0) = true := by decide

/-- The host writes inside the memory; a delay fits 14 bits. -/
theorem test_wf_others :
    Instr.wf (.lendRelease .tally [(0x80000, 1)] 0) = false ∧ Instr.wf (.offsetConfirmed 0 8192 0) = false ∧
      Instr.wf (.confirmationLost 0 (-8193) 0) = false := by decide

/-! ### Check values of the manual -/

/-- R92: CRC-32 of the ASCII digits 1 to 9 is 0xCBF43926. -/
theorem test_crc32 : crc32 [0x31, 0x32, 0x33, 0x34, 0x35, 0x36, 0x37, 0x38, 0x39] = 0xCBF43926 := by decide +kernel

/-- R490: the codes of the instructions, and the identification code. -/
theorem test_tap_codes :
    TapInstr.all.map TapInstr.code = [0b0000, 0b0001, 0b0010, 0b0011, 0b0100, 0b1000, 0b1001] ∧
      idcodeValue = 0b0001_0011_1101_0010_0000_0000_1111_0111 := by decide

/-! ### States of the tests -/

/-- The reset state with position counted. -/
def run0 : State := { State.reset with time := { State.reset.time with counting := true } }

/-- Port 0 of it changed. -/
def port0 (f : PortSt → PortSt) : State := run0.setPort 0 f

/-- A port whose receiver runs, of the family of a KEY_Gn level. -/
def rx (fam : BitVec 4) (x : PortSt) : PortSt := { x with line := { x.line with running := true, family := fam } }

/-- An aligned framer. -/
def aligned (x : PortSt) : PortSt := { x with framer := { x.framer with aligned := true } }

/-- An engine that runs at health 7 as incumbent. -/
def fit (c : EngCtl) : EngCtl := { c with powered := true, health := 7, incumbent := true, rallyRun := 8, computed := 8, joined := 8 }

/-- Both dies powered and EX at health 7. -/
def both : State :=
  (({ run0 with lda := { run0.lda with powered := true }, ldb := { run0.ldb with powered := true } }).setCtl .ex fit)

/-- A hinge in a step of its sequence. -/
def inSeq (q : Seq) (x : PortSt) : PortSt := { x with hinge := { x.hinge with seq := q } }

/-- A pair that runs. -/
def pairOn (f : PairSt → PairSt) : State := run0.setPair 0 (fun x => f { x with running := true })

/-- The partner channel in a role and a state. -/
def partner (r : PartRole) (st : Nat) : State := { run0 with partner := ({ run0.partner with role := r }).setState st }

/-- An image in use with window 0 on the FRAM (64 KiB, dump engine and lend monitor) and window 1 on the PSRAM (8 MiB,
capture writer EX and lend monitor), both readable, writable and lendable; no other window is in use. -/
def windowed : Image :=
  { State.reset.image with
    inUse := some .a, density := 0x800000
    flash := [(0x100, 0), (0x101, 0), (0x102, 0), (0x103, 0), (0x104, 0), (0x105, 0), (0x106, 0), (0x107, 0), (0x108, 16),
      (0x109, 2), (0x10A, 0x28), (0x10B, 7), (0x110, 0), (0x111, 0), (0x112, 0), (0x113, 0), (0x114, 0), (0x115, 0),
      (0x116, 0), (0x117, 0), (0x118, 23), (0x119, 1), (0x11A, 0x22), (0x11B, 7)] }

/-- MAIN after a start with those windows: the matrix runs. -/
def fed : State := { run0 with image := windowed, keeper := { run0.keeper with phase := .done } }

/-- A record of 4 octets for the tests of the tally. -/
def shortRecord : Record := { seq := 1, body := [1, 2, 3, 4], sticky := default0 }
where
  default0 : Sticky :=
    { cNotice := 0, pNotice := 0, image := 0, partner := 0, exd := 0, exp := 0, matched := 0, ovfs := 0, disturbed := 0, qual := 0 }

/-- Timer 0 at its compare value. -/
def ripe (s : State) : State := s.setTimer 0 (fun x => { x with started := true, armed := true, counter := 5, compare := 5 })

/-- A circuit cell to port 3. -/
def circuit (q : BitVec 16) : Cell := ⟨.circuit, 3, 2, q, 0, false, false, true, false, 0, 0, 0, List.replicate 56 0⟩

/-- LDA waits for number 7 of the flow to port 3. -/
def waiting : State := { both with lda := { both.lda with flowsX := [⟨⟨.circuit, 0, 3⟩, 7, []⟩] } }

/-- At tick 0 the machine already stands at tick 0. -/
theorem atTick_zero (s : State) : s = atTick 0 s := by
  unfold atTick
  rw [if_neg (by simp)]

/-- A state meets what is asked of a state and of the machine brought to tick 0. -/
theorem at0 {P : State → State → Prop} (s : State) (h : P s s) : ∃ s t : State, t = atTick 0 s ∧ P s t := ⟨s, s, atTick_zero s, h⟩

/-- A received frame. -/
def rxFrame (n : Nat) (octets : List Byte) : RxFrame := ⟨octets, 0, 0, false, false, n, 0, false⟩

/-- An aligned port that has received these frames since alignment, the latest first; the frame in receipt is number `no`. -/
def heard (fam : BitVec 4) (no : Nat) (l : List (List Byte)) (x : PortSt) : PortSt :=
  { rx fam x with
    framer := { x.framer with aligned := true, frameNo := no, sinceBasic := l.length }
    slip := { x.slip with history := l.map (rxFrame 0) } }

/-! ### Field examples of the manual -/

/-- R211: the CRC-8 of the ASCII digits 1 to 9 is 0xF4. -/
theorem test_crc8 : crc8 [0x31, 0x32, 0x33, 0x34, 0x35, 0x36, 0x37, 0x38, 0x39] = 0xF4 := by decide +kernel

/-- The field example of R7: 1207:31:2047 is stamped 0x4B7FFFF, and the next tick is 1208:0:0. -/
theorem test_stamp : (Pos.mk 1207 31 2047).stamp = 0x4B7FFFF ∧ (Pos.mk 1207 31 2047).nextFrame = ⟨1208, 0, 0⟩ := by
  decide +kernel

/-- The field example of R55: 88412:30:1032 to 88413:0:90 is 3154 ticks. -/
theorem test_difference : (Pos.mk 88413 0 90).ticks - (Pos.mk 88412 30 1032).ticks = 3154 := by decide +kernel

/-- The field examples of R53 and of RIDE: where counting resumes after 10 minutes of DOZE and after 40 minutes of RIDE. -/
theorem test_resume :
    resumeTurn (412000 * 65536) 19662766 = 562015 ∧ resumeTurn 288401408 78643330 = 604402 := by decide +kernel

/-- The field example of R299 to R301. -/
theorem test_float :
    tallyFloat 256000 = 0x6F40 ∧ tallyFloatValue 0x6F40 = 256000 ∧ tallyFloat 250000 = 0x6E84 ∧
      tallyFloatValue 0x6E84 = 249984 ∧ tallyFloat 3154 = 0x0C52 := by decide +kernel

/-- The field example of the page: the entry of P20 TS9 on page 3 is at flash address 0x045220 and reads 0x8CA200FF. -/
theorem test_entry :
    let e := destEntry [(0x45220, 0xFF), (0x45221, 0x00), (0x45222, 0xA2), (0x45223, 0x8C)] .a 3 20 72
    e.v = true ∧ e.srcPort = 3 ∧ e.srcPos = 40 ∧ e.w = true ∧ e.idle = 0xFF ∧ e.t = false := by decide +kernel

/-- The field example of the rally cells: cell r = 1 of LDA is launched at tick 1152, and that of frame 2 240 005 goes to
port 16, on LDB. -/
theorem test_rally : rallyTick .lda 1 = 1152 ∧ rallyReturn 2240005 1 = .ldb := by decide +kernel

/-- R389, R391: no unit is counted at the tick at which a timer was started or reset. -/
theorem test_unitAtStart :
    (((run0.setTimer 0 (fun x => { x with started := true, gate := true, cleared := true })).unit 0 1).timers[(0 : TimerId)]).counter = 0 ∧
    (((run0.setTimer 0 (fun x => { x with started := true, gate := true })).unit 0 1).timers[(0 : TimerId)]).counter = 1 := by
  decide +kernel

/-- The field example of R406: LOS is declared on P9 in the tick in which AIS clears. The unit holds the onset with COUNT 2
and OVR. -/
theorem test_capture :
    let s := { (run0.setPort 9 (fun x => rx 1 { x with line := { x.line with ais := true } })) with pos := ⟨31000, 4, 1200⟩ }
    ∃ u, exec (.losDeclare 9 ⟨List.replicate 32 .none, 0⟩ 1200) s = .next u ∧ u.ports[(9 : Port)].capture.stamp = (Pos.mk 31000 4 1200).stamp ∧
      u.ports[(9 : Port)].capture.code = 1 ∧ u.ports[(9 : Port)].capture.count = 2 ∧ u.ports[(9 : Port)].capture.ovr = true :=
  ⟨_, rfl, by decide +kernel, by decide +kernel, by decide +kernel, by decide +kernel⟩

/-- R164, R165: after a positive pulse B8ZS sends eight zeros as 000+-0-+ and HDB3 four as 000+ or, after an equal violation, -00-; the
decoder takes zeros from each, and reports no violation. -/
theorem test_substitutions :
    (encodeBits .b8zs ⟨true, true, 0⟩ (List.replicate 8 false)).1 = [.none, .none, .none, .pos, .neg, .none, .neg, .pos] ∧
      (encodeBits .hdb3 ⟨true, false, 0⟩ (List.replicate 4 false)).1 = [.none, .none, .none, .pos] ∧
      (encodeBits .hdb3 ⟨true, true, 0⟩ (List.replicate 4 false)).1 = [.neg, .none, .none, .neg] ∧
      decodePulses .b8zs [.pos, .none, .none, .none, .pos, .neg, .none, .neg, .pos] = true :: List.replicate 8 false ∧
      violationAt .b8zs [.pos, .none, .none, .none, .pos, .neg, .none, .neg, .pos] 4 = false := by
  decide +kernel

/-! ### States and operands that meet the hypotheses of the statements -/

/-- A queue with a command in it, and an empty one. -/
theorem met_StepRunsFront :
    (({ State.reset with pending := [.idcode, .clamp] } : State).pending = .idcode :: [.clamp]) ∧
    (State.reset.pending = []) :=
  ⟨by decide +kernel,
    by decide +kernel⟩

/-- Memories in canonical form, with a command in front; the same state serves the statements on the flash, on the stores and on
HALT. -/
theorem met_StepKeepsCanonical :
    Canonical { fed with pending := [.railsInRange true true] } ∧
      (∃ u, step { fed with pending := [.railsInRange true true] } = .next u) ∧ storesTo (.railsInRange true true) = false :=
  ⟨by unfold Canonical; decide +kernel, ⟨_, rfl⟩, rfl⟩

/-- A machine that does not count, one that counts, and a transmitter that is to stop at a bit boundary. -/
theorem met_TickFrame :
    State.reset.time.counting = false ∧ run0.time.counting = true ∧ run0.pos.k < (1 : Tick) ∧ (0 : Tick) ≤ run0.pos.k ∧
      (port0 (fun x => { x with line := { x.line with stopAt := some 9 } })).ports[(0 : Port)].line.stopAt.isSome = true := by
  decide +kernel

/-- A port in LOS. -/
def lost (x : PortSt) : PortSt := { x with line := { x.line with los := true } }

/-- Thirty-two bit periods with four pulses, fifteen empty ones in a row. -/
def thin : List Pulse := List.replicate 15 .none ++ [.pos] ++ List.replicate 13 .none ++ [.neg, .pos, .neg]

/-- One bit before the end of an AIS window with `z` zeros so far; the one before it had `y`. -/
def ending (z y : Nat) (x : PortSt) : PortSt :=
  { x with line := { x.line with win := { bits := 511, zeros := z, last := some y, before := none } } }

/-- A running receiver without and with each condition. The 32nd empty bit period declares LOS, the 31st does not, nor on an NRZ port the
tick before the limit; four pulses in 32 bit periods clear it, and three do not, nor 16 empty ones in a row. The bit that closes the second of two
windows with two zeros each declares AIS, and with three clears it; a third zero in it, or a bit more, does not. -/
theorem met_LineConditions :
    (∃ s t : State, t = atTick 0 s ∧ t.ports[(0 : Port)].line.running = true ∧ t.ports[(0 : Port)].line.los = false ∧
      losMet t.ports[(0 : Port)].line.family ⟨List.replicate 32 .none, 0⟩ = true ∧ t.pos.k ≠ 0 ∧ t.ports[(0 : Port)].line.ais = false ∧
      losMet t.ports[(0 : Port)].line.family ⟨List.replicate 31 .none, 0⟩ = false) ∧
    (losMet 9 ⟨[.pos], 256⟩ = true ∧ losMet 9 ⟨[.pos], 255⟩ = false) ∧
    (∃ s t : State, t = atTick 0 s ∧ t.ports[(0 : Port)].line.running = true ∧ t.ports[(0 : Port)].line.los = true ∧
      losOver t.ports[(0 : Port)].line.family ⟨thin, 0⟩ = true ∧ t.keeper.vlineOk = true ∧ t.pos.k ≠ 0 ∧
      losOver t.ports[(0 : Port)].line.family ⟨.none :: thin.take 31, 0⟩ = false) ∧
    (∃ s t : State, t = atTick 0 s ∧ t.ports[(0 : Port)].line.running = true ∧ t.ports[(0 : Port)].line.los = false ∧
      t.ports[(0 : Port)].line.ais = false ∧ aisMet t.ports[(0 : Port)].line [true] = true ∧ t.pos.k ≠ 0 ∧
      t.ptime.listening = false ∧ aisMet t.ports[(0 : Port)].line [false] = false ∧
      aisMet t.ports[(0 : Port)].line [true, true] = false) ∧
    (∃ s t : State, t = atTick 0 s ∧ t.ports[(0 : Port)].line.running = true ∧ t.ports[(0 : Port)].line.ais = true ∧
      aisOver t.ports[(0 : Port)].line [false] = true ∧ t.pos.k ≠ 0 ∧ t.ptime.listening = false ∧
      aisOver t.ports[(0 : Port)].line [true] = false) :=
  ⟨at0 { port0 (rx 1) with pos := ⟨0, 0, 1⟩ } (by decide +kernel), by decide +kernel,
    at0 { port0 (fun x => lost (rx 1 x)) with keeper := { run0.keeper with vlineOk := true }, pos := ⟨0, 0, 1⟩ } (by decide +kernel),
    at0 { port0 (fun x => ending 2 2 (rx 1 x)) with pos := ⟨0, 4, 1⟩ } (by decide +kernel),
    at0 { port0 (fun x => ending 2 3 (rx 1 { x with line := { x.line with ais := true } })) with pos := ⟨0, 4, 1⟩ }
      (by decide +kernel)⟩

/-- A running HDB3 receiver without LOS: a pulse of the polarity before it, and one of the other; the fourth empty bit period, and the third
and fifth. One in LOS, and transmitters that drive and that do not. -/
theorem met_LineEventsCount :
    (∃ s t : State, t = atTick 0 s ∧ t.ports[(0 : Port)].line.running = true ∧ t.ports[(0 : Port)].line.los = false ∧
      violationAt (lineCodeOf t.ports[(0 : Port)].line.family) [.pos, .pos] 1 = true ∧
      violationAt (lineCodeOf t.ports[(0 : Port)].line.family) [.pos, .neg] 1 = false ∧
      violationAt (lineCodeOf t.ports[(0 : Port)].line.family) [.pos, .none, .none, .none, .pos] 4 = false ∧
      zerosExceeded (lineCodeOf t.ports[(0 : Port)].line.family) [.pos, .none, .none, .none, .none] = true ∧
      zerosExceeded (lineCodeOf t.ports[(0 : Port)].line.family) [.pos, .none, .none, .none] = false ∧
      zerosExceeded (lineCodeOf t.ports[(0 : Port)].line.family) [.pos, .none, .none, .none, .none, .none] = false) ∧
    (∃ s t : State, t = atTick 0 s ∧ t.ports[(0 : Port)].line.los = true) ∧
    (∃ s t : State, t = atTick 0 s ∧ t.ports[(0 : Port)].line.tx ≠ .hiZ) ∧
    (∃ s t : State, t = atTick 0 s ∧ t.ports[(0 : Port)].line.tx = .hiZ) :=
  ⟨at0 (port0 (rx 1)) (by decide +kernel), at0 (port0 lost) (by decide +kernel),
    at0 (port0 (fun x => { x with line := { x.line with tx := .follow } })) (by decide +kernel), at0 run0 (by decide +kernel)⟩

/-- MAIN with a powered die, a running receiver of a line code, and RIDE with main stable and with no write in progress. -/
theorem met_RailsOutOfRange :
    (∃ s t : State, t = atTick 0 s ∧ t.keeper.power = .main ∧ (t.die .lda).powered = true ∧ (t.die (dieOf 0)).lost = false ∧
      t.ports[(0 : Port)].line.running = true ∧ lineCodeOf t.ports[(0 : Port)].line.family ≠ .nrz) ∧
    (∃ s t : State, t = atTick 0 s ∧ t.keeper.power ≠ .main ∧ t.riding = true ∧ t.keeper.stable = true ∧ t.words.writing = none) :=
  ⟨at0 { both with ports := (port0 (rx 1)).ports } (by decide +kernel),
    at0 { run0 with keeper := { run0.keeper with power := .ride, stable := true } } (by decide +kernel)⟩

/-- The bits from a FAS to the FAS two frames on, bit 2 of the TS0 between them 1 (R181). -/
def e1Found : List Bool := fasBits ++ List.replicate 249 false ++ [true] ++ List.replicate 255 false ++ fasBits

/-- A bit of two SF superframes that end in their last framing bit (R189). -/
def sfBit (i : Nat) : Bool := (4439 - i) % 193 == 0 && expectedF .t1Sf (12 - (4439 - i) / 193 % 12) == some true

/-- All of them. -/
def sfFound : List Bool := (List.range 4440).map sfBit

/-- The search finds its superframe in them. -/
theorem sf_found : (huntOn 6 sfFound []).2 = true := by
  have hl : sfFound.length = 4440 := by simp [sfFound]
  have hg : ∀ i, sfFound.getD i false = (decide (i < 4440) && sfBit i) := by
    intro i
    by_cases h : i < 4440 <;> simp [sfFound, List.getD, h]
  have hr : superframesRight .t1Sf sfFound = true := by
    simp only [superframesRight, hl, hg]
    decide +kernel
  have h6 : framingOf 6 = .t1Sf := by decide
  have hs : huntSpan .t1Sf = 4440 := rfl
  simp only [huntOn, show isT1 6 = true by decide, h6, if_true, List.nil_append, hl, hs, Nat.sub_self, List.drop_zero, hr]

/-- A running receiver that is not aligned, E1 and T1, with bits in which the search finds alignment and with none. -/
theorem met_AlignmentGained :
    (∃ s t : State, t = atTick 0 s ∧ t.ports[(0 : Port)].line.running = true ∧ t.ports[(0 : Port)].framer.aligned = false ∧
      isE1 t.ports[(0 : Port)].line.family = true ∧
      (huntOn t.ports[(0 : Port)].line.family e1Found t.ports[(0 : Port)].framer.hunt).2 = true ∧
      (huntOn t.ports[(0 : Port)].line.family [] t.ports[(0 : Port)].framer.hunt).2 = false) ∧
    (∃ s t : State, t = atTick 0 s ∧ t.ports[(0 : Port)].line.running = true ∧ t.ports[(0 : Port)].framer.aligned = false ∧
      isT1 t.ports[(0 : Port)].line.family = true ∧
      (huntOn t.ports[(0 : Port)].line.family sfFound t.ports[(0 : Port)].framer.hunt).2 = true ∧
      (huntOn t.ports[(0 : Port)].line.family [] t.ports[(0 : Port)].framer.hunt).2 = false) :=
  ⟨at0 (port0 (rx 1)) (by decide +kernel), ⟨port0 (rx 6), _, atTick_zero _, by decide +kernel, by decide +kernel, by decide +kernel, by
      rw [show (port0 (rx 6)).ports[(0 : Port)].line.family = 6 by decide +kernel,
        show (port0 (rx 6)).ports[(0 : Port)].framer.hunt = [] by decide +kernel]
      exact sf_found, by decide +kernel⟩⟩

/-- The third consecutive errored FAS, and a FAS without error. -/
theorem met_LossOfFrameCounted :
    ∃ s t : State, t = atTick 0 s ∧ t.ports[(0 : Port)].line.running = true ∧ framingLost t.ports[(0 : Port)] [0] = true ∧
      framingLost t.ports[(0 : Port)] [0x1B] = false ∧ t.pos.k ≠ 0 :=
  at0 { port0 (heard 1 2 [[0], [0], [0], [0]]) with pos := ⟨0, 0, 1⟩ } (by decide +kernel)

/-- Twenty-six frames, the latest first, whose bits 1 of odd frames end in two CRC-4 multiframe alignment words with that of the frame in
receipt. -/
def mfasHeard : List (List Byte) := (List.range 26).map (fun i => if i ∈ [1, 5, 15, 17, 21] then [0x80] else [0])

/-- A framer in a state of the multiframe search. -/
def inCrc (c : CrcMf) (n : Nat) (x : PortSt) : PortSt := { x with framer := { x.framer with crcMf := c, sinceBasic := n } }

/-- A framer that searches for the CRC-4 multiframe, with the second alignment word whole and not, 64 and 63 frames after basic
alignment, and one in fallback. -/
theorem met_CrcMultiframe :
    (∃ s t : State, t = atTick 0 s ∧ t.ports[(0 : Port)].framer.aligned = true ∧ t.ports[(0 : Port)].framer.crcMf = .searching ∧
      crcFound t.ports[(0 : Port)] true = true ∧ crcFound t.ports[(0 : Port)] false = false ∧
      t.ports[(0 : Port)].framer.sinceBasic < 64) ∧
    (∃ s t : State, t = atTick 0 s ∧ t.ports[(0 : Port)].framer.aligned = true ∧ t.ports[(0 : Port)].framer.crcMf = .searching ∧
      64 ≤ t.ports[(0 : Port)].framer.sinceBasic) ∧
    (∃ s t : State, t = atTick 0 s ∧ t.ports[(0 : Port)].framer.aligned = true ∧ t.ports[(0 : Port)].framer.crcMf = .fallback ∧
      crcFoundAgain t.ports[(0 : Port)] true = true ∧ crcFoundAgain t.ports[(0 : Port)] false = false) :=
  ⟨at0 (port0 (fun x => inCrc .searching 63 (heard 1 11 mfasHeard x))) (by decide +kernel),
    at0 (port0 (fun x => inCrc .searching 64 (heard 1 11 mfasHeard x))) (by decide +kernel),
    at0 (port0 (fun x => inCrc .fallback 70 (heard 1 11 mfasHeard x))) (by decide +kernel)⟩

/-- Zero frames. -/
def zeroFrames (n : Nat) : List (List Byte) := List.replicate n (zeros 32)

/-- The last check bit of a block, E1 and ESF; a window with its 1000th block, and with its 999th. -/
theorem met_CrcWindow :
    (∃ s t : State, t = atTick 0 s ∧ blocksChecked t.ports[(0 : Port)] = true ∧ isT1 t.ports[(0 : Port)].line.family = false ∧
      (blockResult t.ports[(0 : Port)] false).map (fun x => x.2) = some true ∧
      t.ports[(0 : Port)].framer.crcMf = .aligned ∧ 1000 ≤ t.ports[(0 : Port)].framer.winBlocks ∧
      915 ≤ t.ports[(0 : Port)].framer.winErrors ∧ t.ports[(0 : Port)].line.running = true) ∧
    (∃ s t : State, t = atTick 0 s ∧ blocksChecked t.ports[(0 : Port)] = true ∧ isT1 t.ports[(0 : Port)].line.family = true ∧
      (blockResult t.ports[(0 : Port)] false).isSome = true) ∧
    (∃ s t : State, t = atTick 0 s ∧ blocksChecked t.ports[(0 : Port)] = true ∧ blockResult t.ports[(0 : Port)] true = none ∧
      t.ports[(0 : Port)].framer.winBlocks < 1000) :=
  ⟨at0 (port0 (fun x => (fun y : PortSt => { y with framer := { y.framer with winBlocks := 1000, winErrors := 915 } })
      (inCrc .aligned 14 (heard 1 6 (zeroFrames 14) x)))) (by decide +kernel),
    at0 (port0 (heard 5 22 (zeroFrames 45))) (by decide +kernel),
    at0 (port0 (fun x => (fun y : PortSt => { y with framer := { y.framer with winBlocks := 999, winErrors := 915 } })
      (inCrc .aligned 14 (heard 1 7 (zeroFrames 14) x)))) (by decide +kernel)⟩

/-- A frame with this octet in slot 16. -/
def slot16 (b : Byte) : List Byte := zeros 16 ++ [b] ++ zeros 15

/-- An E1 port with CAS. -/
def withCas (mf : Bool) (no : Nat) (x : PortSt) : PortSt :=
  { x with line := { x.line with cas := true }, framer := { x.framer with casMf := mf, casNo := no } }

/-- A port with RAI. -/
def withRai (x : PortSt) : PortSt := { x with framer := { x.framer with rai := true } }

/-- An aligned E1 port with CAS: the second multiframe alignment word after slots with ones, the second errored one, the last frame of a
multiframe of zeros; three A bits of 1 and three of 0. Each with one of the conditions missing. -/
theorem met_CasAndRai :
    (∃ s t : State, t = atTick 0 s ∧ t.ports[(0 : Port)].framer.aligned = true ∧ isE1 t.ports[(0 : Port)].line.family = true ∧
      t.ports[(0 : Port)].line.cas = true ∧ t.ports[(0 : Port)].framer.casMf = false ∧ casFound t.ports[(0 : Port)] 0x0B = true ∧
      casFound t.ports[(0 : Port)] 0x1B = false) ∧
    (∃ s t : State, t = atTick 0 s ∧ t.ports[(0 : Port)].framer.casMf = true ∧ casErrors t.ports[(0 : Port)] 0xFF = true ∧
      casErrors t.ports[(0 : Port)] 0x0F = false ∧ casZeros t.ports[(0 : Port)] 0x0F = false) ∧
    (∃ s t : State, t = atTick 0 s ∧ t.ports[(0 : Port)].framer.casMf = true ∧ casZeros t.ports[(0 : Port)] 0 = true ∧
      casErrors t.ports[(0 : Port)] 0 = false) ∧
    (∃ s t : State, t = atTick 0 s ∧ raiMet t.ports[(0 : Port)] [0x20] = true ∧ t.ports[(0 : Port)].framer.rai = false ∧
      raiMet t.ports[(0 : Port)] [0] = false) ∧
    (∃ s t : State, t = atTick 0 s ∧ t.ports[(0 : Port)].framer.rai = true ∧ raiOver t.ports[(0 : Port)] [0] = true ∧
      raiOver t.ports[(0 : Port)] [0x20] = false) :=
  ⟨at0 (port0 (fun x => withCas false 0 (heard 1 0 (List.replicate 15 (slot16 0x55) ++ [slot16 0x0B, slot16 0x55]) x))) (by decide +kernel),
    at0 (port0 (fun x => withCas true 0 (heard 1 0 (List.replicate 16 (slot16 0xFF)) x))) (by decide +kernel),
    at0 (port0 (fun x => withCas true 15 (heard 1 15 (List.replicate 16 (slot16 0)) x))) (by decide +kernel),
    at0 (port0 (heard 1 1 (List.replicate 4 [0x20]))) (by decide +kernel),
    at0 (port0 (fun x => withRai (heard 1 1 (List.replicate 4 [0]) x))) (by decide +kernel)⟩

/-- An abandoned insertion. -/
def given (x : PortSt) : PortSt := { x with hinge := { x.hinge with abandoned := true } }

/-- Port 0 in a step of a sequence, with position counted up to `q`. -/
def stepAt (q : Pos) (x : Seq) (f : PortSt → PortSt) : State := { port0 (fun y => f (inSeq x (rx 1 y))) with pos := q }

/-- A hinge at each step of an insertion that began at 0:0:0, abandoned ones, and a tick before and after each step. -/
theorem met_InsertionSteps :
    (∃ s t : State, t = atTick 0 s ∧ t.ports[(0 : Port)].hinge.seq = .building ∧ t.ports[(0 : Port)].hinge.abandoned = false ∧
      nextBit t.ports[(0 : Port)].line.family ((t.ports[(0 : Port)].hinge.start + 1) * 65536) t.now = true) ∧
    (∃ s t : State, t = atTick 0 s ∧ t.ports[(0 : Port)].hinge.seq = .following ∧ t.ports[(0 : Port)].hinge.abandoned = false ∧
      t.now = (t.ports[(0 : Port)].hinge.start + 1) * 65536 + 2048) ∧
    (∃ s t : State, t = atTick 0 s ∧ t.ports[(0 : Port)].hinge.seq = .energised ∧
      t.now = (t.ports[(0 : Port)].hinge.start + 1) * 65536 + 25 * 2048) ∧
    (∃ s t : State, t = atTick 0 s ∧ t.ports[(0 : Port)].hinge.abandoned = true ∧ t.ports[(0 : Port)].hinge.seq = .building ∧
      nextBit t.ports[(0 : Port)].line.family ((t.ports[(0 : Port)].hinge.start + 1) * 65536) t.now = true) ∧
    (∃ s t : State, t = atTick 0 s ∧ t.ports[(0 : Port)].hinge.abandoned = true ∧ t.ports[(0 : Port)].hinge.seq = .following ∧
      t.now = (t.ports[(0 : Port)].hinge.start + 1) * 65536 + 2048) ∧
    (∃ s t : State, t = atTick 0 s ∧ t.ports[(0 : Port)].hinge.seq = .building ∧
      nextBit t.ports[(0 : Port)].line.family ((t.ports[(0 : Port)].hinge.start + 1) * 65536) t.now = false ∧
      t.ports[(0 : Port)].hinge.seq ≠ .following ∧ t.ports[(0 : Port)].hinge.seq ≠ .energised) ∧
    (∃ s t : State, t = atTick 0 s ∧ t.ports[(0 : Port)].hinge.seq = .following ∧
      t.now ≠ (t.ports[(0 : Port)].hinge.start + 1) * 65536 + 2048) :=
  ⟨at0 (stepAt ⟨1, 0, 0⟩ .building id) (by decide +kernel), at0 (stepAt ⟨1, 1, 0⟩ .following id) (by decide +kernel),
    at0 (stepAt ⟨1, 25, 0⟩ .energised id) (by decide +kernel), at0 (stepAt ⟨1, 0, 7⟩ .building given) (by decide +kernel),
    at0 (stepAt ⟨1, 1, 0⟩ .following given) (by decide +kernel), at0 (stepAt ⟨0, 31, 2047⟩ .building id) (by decide +kernel),
    at0 (stepAt ⟨1, 1, 1⟩ .following id) (by decide +kernel)⟩

/-- A hinge at each step of a release from boundary 0:0:0, and before the step is due. -/
theorem met_ReleaseSteps :
    (∃ s t : State, t = atTick 0 s ∧ t.ports[(0 : Port)].hinge.seq = .awaitB ∧ releaseDue t 0 = true) ∧
    (∃ s t : State, t = atTick 0 s ∧ t.ports[(0 : Port)].hinge.seq = .released ∧
      t.now = t.ports[(0 : Port)].hinge.boundary + 9 * 2048) ∧
    (∃ s t : State, t = atTick 0 s ∧ t.ports[(0 : Port)].hinge.seq = .unterminated ∧
      nextBit t.ports[(0 : Port)].line.family (t.ports[(0 : Port)].hinge.boundary + 13 * 2048) t.now = true ∧ t.riding = false) ∧
    (∃ s t : State, t = atTick 0 s ∧ t.ports[(0 : Port)].hinge.seq = .released ∧
      t.now ≠ t.ports[(0 : Port)].hinge.boundary + 9 * 2048) ∧
    (∃ s t : State, t = atTick 0 s ∧ t.ports[(0 : Port)].hinge.seq = .unterminated ∧ t.riding = false ∧
      nextBit t.ports[(0 : Port)].line.family (t.ports[(0 : Port)].hinge.boundary + 13 * 2048) t.now = false) ∧
    (∃ s t : State, t = atTick 0 s ∧ t.ports[(0 : Port)].hinge.seq ≠ .awaitB) :=
  ⟨at0 (stepAt ⟨0, 0, 0⟩ .awaitB id) (by decide +kernel), at0 (stepAt ⟨0, 9, 0⟩ .released id) (by decide +kernel),
    at0 (stepAt ⟨0, 13, 0⟩ .unterminated id) (by decide +kernel), at0 (stepAt ⟨0, 9, 1⟩ .released id) (by decide +kernel),
    at0 (stepAt ⟨0, 12, 2047⟩ .unterminated id) (by decide +kernel), at0 (stepAt ⟨0, 0, 0⟩ .idle id) (by decide +kernel)⟩

/-- A hinge with a target role. -/
def bound (r : Role) (c : Content) (x : PortSt) : PortSt := { x with hinge := { x.hinge with target := r, content := c } }

/-- A terminated port that is to be grid-timed, and one that is to pass its partner's line, at a frame boundary of it, at (T + 1):26:0; the
first a tick before. -/
theorem met_TakeoverDrives :
    (∃ s t : State, t = atTick 0 s ∧ t.ports[(0 : Port)].hinge.seq = .terminated ∧ takeoverDue t 0 = true ∧
      t.ports[(0 : Port)].hinge.target = .grid) ∧
    (∃ s t : State, t = atTick 0 s ∧ t.ports[(0 : Port)].hinge.seq = .terminated ∧ takeoverDue t 0 = true ∧
      t.ports[(0 : Port)].hinge.target = .lineTimed 1 ∧ t.ports[(0 : Port)].hinge.content ≠ .lineLoop) ∧
    (∃ s t : State, t = atTick 0 s ∧ t.ports[(0 : Port)].hinge.seq = .terminated ∧ takeoverDue t 0 = false) :=
  ⟨at0 (stepAt ⟨1, 26, 0⟩ .terminated (bound .grid .page)) (by decide +kernel),
    at0 ((stepAt ⟨1, 26, 0⟩ .terminated (bound (.lineTimed 1) .pass)).setPort 1
      (fun x => { x with slip := { x.slip with history := [{ rxFrame 0 [] with doneAt := 116736 }] } })) (by decide +kernel),
    at0 (stepAt ⟨1, 25, 2047⟩ .terminated (bound .grid .page)) (by decide +kernel)⟩

/-- A port that inserts or passes frames on a driven line. -/
def sends (r : Role) (c : Content) (x : PortSt) : PortSt :=
  { x with hinge := { x.hinge with role := r, content := c }, line := { x.line with tx := .drive } }

/-- A latch after held frames. -/
def holds (n : Nat) (x : PortSt) : PortSt := { x with latch := { x.latch with held := n } }

/-- A driving latch after 64 held frames and after 63; a latch that prefers the other engine, and one with no eligible engine. -/
theorem met_LatchEvents :
    (∃ s t : State, t = atTick 0 s ∧ latchUsed t.ports[(0 : Port)] = true ∧ t.ports[(0 : Port)].latch.ais = false ∧
      64 ≤ t.ports[(0 : Port)].latch.held ∧ driving t.ports[(0 : Port)] = true) ∧
    (∃ s t : State, t = atTick 0 s ∧ latchUsed t.ports[(0 : Port)] = true ∧ t.ports[(0 : Port)].latch.ais = false ∧
      t.ports[(0 : Port)].latch.held < 64) ∧
    (∃ s t : State, t = atTick 0 s ∧ preferred t 0 = some .ex ∧ t.ports[(0 : Port)].latch.accepted ≠ .ex) ∧
    (∃ s t : State, t = atTick 0 s ∧ preferred t 0 = none) :=
  ⟨at0 (port0 (fun x => sends .grid .page (holds 64 x))) (by decide +kernel),
    at0 (port0 (fun x => sends .grid .page (holds 63 x))) (by decide +kernel),
    at0 ({ both with lda := { both.lda with engX := { both.lda.engX with beat := 15 } } }.setPort 0
      (fun x => { x with latch := { x.latch with accepted := .ey } })) (by decide +kernel), at0 run0 (by decide +kernel)⟩

/-- A driving port that passes its partner's line, and the working port of a running pair with a word that changes the selection. -/
theorem met_LineTimedFrameSent :
    (∃ s t : State, t = atTick 0 s ∧ t.ports[(0 : Port)].hinge.role = .lineTimed 1 ∧ driving t.ports[(0 : Port)] = true ∧
      t.ports[(0 : Port)].hinge.content = .pass) ∧
    (∃ s t : State, t = atTick 0 s ∧ t.ports[(0 : Port)].hinge.role = .lineTimed 0 ∧ driving t.ports[(0 : Port)] = true ∧
      t.ports[(0 : Port)].hinge.content = .selected ∧ t.pairs[pairOf 0].running = true ∧ (0 : Port) = workPort (pairOf 0) ∧
      (t.die (dieOf 0)).word (pairOf 0) = some true ∧ true ≠ t.pairs[pairOf 0].protect) :=
  ⟨at0 (port0 (sends (.lineTimed 1) .pass)) (by decide +kernel),
    at0 ({ pairOn id with lda := { run0.lda with words := [(0, true)] } }.setPort 0 (sends (.lineTimed 0) .selected)) (by decide +kernel)⟩

/-- A frame without a pulse. -/
def dark : RxPulses := ⟨[], List.replicate 256 .none, []⟩

/-- A running receiver: aligned without LOS; one whose frame is the third with an errored FAS; one that is not aligned; and one in follow
drive. -/
theorem met_FrameWritten :
    rxOctets (rx 1 run0.ports[(0 : Port)]) dark = zeros 32 ∧
    (∃ s t : State, t = atTick 0 s ∧ t.ports[(0 : Port)].line.running = true ∧ t.ports[(0 : Port)].line.tx = .follow) ∧
    (∃ s t : State, t = atTick 0 s ∧ t.ports[(0 : Port)].line.running = true ∧ t.ports[(0 : Port)].framer.aligned = true ∧
      t.ports[(0 : Port)].line.los = false ∧ framingLost t.ports[(0 : Port)] (zeros 32) = false ∧
      t.ports[(0 : Port)].framer.crcMf ≠ .searching ∧ t.ports[(0 : Port)].framer.crcMf ≠ .fallback) ∧
    (∃ s t : State, t = atTick 0 s ∧ t.ports[(0 : Port)].line.running = true ∧ framingLost t.ports[(0 : Port)] (zeros 32) = true) ∧
    (∃ s t : State, t = atTick 0 s ∧ t.ports[(0 : Port)].line.running = true ∧ t.ports[(0 : Port)].framer.aligned = false ∧
      t.ports[(0 : Port)].framer.casMf = false ∧ t.ports[(0 : Port)].framer.rai = false) :=
  ⟨by decide +kernel, at0 (port0 (fun x => rx 1 { x with line := { x.line with tx := .follow } })) (by decide +kernel),
    at0 (port0 (fun x => rx 1 (aligned x))) (by decide +kernel), at0 (port0 (heard 1 2 (zeroFrames 4))) (by decide +kernel),
    at0 (port0 (rx 1)) (by decide +kernel)⟩

/-- An analyser of EX with a transition due, at one of EY with none. -/
def due (x : AnaDue) : State := run0.setPat .ex 0 (fun y => { y with ana := { y.ana with due := x } })

/-- An analyser at each transition in one engine and at none in the other. -/
theorem met_AnalyserTransitions :
    ((due .sync).eng .ex).data.pats[(0 : PatId)].ana.due = .sync ∧ ((due .sync).eng .ey).data.pats[(0 : PatId)].ana.due ≠ .sync ∧
      ((due .loss).eng .ex).data.pats[(0 : PatId)].ana.due = .loss ∧ ((due .loss).eng .ey).data.pats[(0 : PatId)].ana.due ≠ .loss := by
  decide +kernel

/-- A header whose HEC fails, at a die, at an engine and at the keeper's links, which run. -/
theorem met_HeaderErrors :
    ∃ s t : State, t = atTick 0 s ∧ hecGood 1 = false ∧ t.receives (.line .lda .ex) = true ∧ t.receives (.engine .ex .lda) = true ∧
      t.receives (.engineKeeper .ex) = true ∧ t.receives (.keeper .ex) = true :=
  at0 both (by decide +kernel)

/-- Circuit cells at a line die: behind, ahead of and in the turn of their flow, a flow that is held, and one that is not. -/
theorem met_CellsResequenced :
    ((waiting.receives (.line .lda .ex) = true ∧ hecGood (headerOf (circuit 6)) = true ∧ (circuit 6).cls = .circuit ∧
      flowFor (waiting.flowsAt (.line .lda .ex)) (circuit 6) = ⟨⟨.circuit, 0, 3⟩, 7, []⟩) ∧
    (cellOf (headerOf (circuit 6)) []).seq = 6 ∧ (cellOf (headerOf (circuit 6)) []).cls = .circuit ∧
    seqBelow 6 7 = true ∧ seqBelow 9 7 = false ∧ seqBelow 7 7 = false) ∧
    (waiting.flowsAt (.line .lda .ex)).find? (fun x => x.flow == ⟨.circuit, 0, 3⟩) = some ⟨⟨.circuit, 0, 3⟩, 7, []⟩ ∧
    (waiting.flowsAt (.line .lda .ex)).find? (fun x => x.flow == ⟨.circuit, 0, 4⟩) = none := by
  decide +kernel

/-- The header of a beat. -/
def beatHeader : BitVec 64 := headerOf ⟨.beat, 0, 0, 0, 0, false, false, false, false, 0, 0, 0, []⟩

/-- A beat with a good header and one with a bad one, and a die that has waited 1024 ticks for one, and 1023. -/
theorem met_Beats :
    (∃ s t : State, t = atTick 0 s ∧ t.receives (.line .lda .ex) = true ∧ hecGood beatHeader = true ∧
      (cellOf beatHeader []).cls = .beat ∧ hecGood 1 = false) ∧
    (∃ s t : State, t = atTick 0 s ∧ ((t.die .lda).ofEng .ex).beatAt + 1024 ≤ t.now) ∧
    (∃ s t : State, t = atTick 0 s ∧ t.now < ((t.die .lda).ofEng .ex).beatAt + 1024) :=
  ⟨at0 both (by decide +kernel), at0 { both with pos := ⟨0, 0, 1024⟩ } (by decide +kernel),
    at0 { both with pos := ⟨0, 0, 1023⟩ } (by decide +kernel)⟩

/-- An engine without power. -/
theorem met_UnpoweredClaimsZero : (State.reset.eng .ex).ctl.powered = false := by decide +kernel

/-- While position is not counted an event brings no tick. -/
theorem atTick_still (k : Tick) (s : State) (h : s.time.counting = false) : s = atTick k s := by
  unfold atTick
  rw [if_neg (by simp [h])]

/-- A die that runs, with one engine that runs and one that does not, and a die that does not. -/
theorem met_RallyLaunched :
    ∃ s t : State, t = atTick (BitVec.ofNat 11 (rallyTick .lda 0)) s ∧ (t.die .lda).works = true ∧ (t.eng .ex).ctl.running = true ∧
      (t.eng .ey).ctl.running = false ∧ (({ t with lda := { t.lda with lost := true } } : State).die .lda).works = false :=
  ⟨{ both with time := State.reset.time }, _, atTick_still _ _ rfl, by decide +kernel⟩

/-- A rally cell on its way. -/
def rally (x : RallyStage) : State := { both with duplex := { both.duplex with rallies := [⟨.lda, 0, .ex, 0, x, 0⟩] } }

/-- A rally cell that is due at an engine, and at a die; a die that holds a failure, and one that holds none. -/
theorem met_RallyFailures :
    (∃ s t : State, t = atTick 0 s ∧ t.duplex.rallies.find? (fun y => y.eng == .ex && y.die == .lda && y.r == 0 &&
      y.stage == .atEngine && decide (y.due ≤ t.now)) = some ⟨.lda, 0, .ex, 0, .atEngine, 0⟩ ∧ 0 < (t.eng .ex).ctl.health) ∧
    (∃ s t : State, t = atTick 0 s ∧ t.duplex.rallies.find? (fun y => y.eng == .ex && y.die == .lda && y.r == 0 &&
      y.stage == .atDie && decide (y.due ≤ t.now)) = some ⟨.lda, 0, .ex, 0, .atDie, 0⟩) ∧
    (∃ s t : State, t = atTick 0 s ∧ ((t.die .lda).ofEng .ex).hold = true) ∧
    (∃ s t : State, t = atTick 0 s ∧ ((t.die .lda).ofEng .ex).hold = false) :=
  ⟨at0 (rally .atEngine) (by decide +kernel), at0 (rally .atDie) (by decide +kernel),
    at0 { both with lda := { both.lda with engX := { both.lda.engX with hold := true } } } (by decide +kernel), at0 both (by decide +kernel)⟩

/-- The partner port with its access point open: a frame of one octet, one of 257, a TIME, an abort, and bits that end no frame; another port. -/
theorem met_LiftedFrame :
    (∃ s t : State, t = atTick 0 s ∧ t.partnerOn = true ∧ (31 : Port) = t.fabric.port ∧ accessOpen t.ports[(31 : Port)] = true ∧
      deframe ((t.die (dieOf 31)).inBits ++ (flagBits ++ lsbBits [0x41] ++ flagBits)) = some ([0x41], false) ∧
      deframe ((t.die (dieOf 31)).inBits ++ (flagBits ++ lsbBits [0x41] ++ List.replicate 7 true)) = some ([0x41], true) ∧
      (deframe ((t.die (dieOf 31)).inBits ++ (flagBits ++ List.replicate 2056 false ++ flagBits))).any
        (fun x => decide (256 < x.1.length)) = true ∧
      deframe ((t.die (dieOf 31)).inBits ++ (flagBits ++ lsbBits (0x05 :: 0x03 :: 0x30 :: zeros 21) ++ flagBits)) =
        some (0x05 :: 0x03 :: 0x30 :: zeros 21, false) ∧
      deframe ((t.die (dieOf 31)).inBits ++ flagBits) = none ∧ (30 : Port) ≠ t.fabric.port) ∧
    (∃ s t : State, t = atTick 0 s ∧ t.partnerOn = false) :=
  ⟨at0 ((partner .leader 1).mapPorts (fun _ x => aligned x)) (by decide +kernel), at0 run0 (by decide +kernel)⟩

/-- Twelve equal SF frames on both lines of pair 0, received in step. -/
def inStep (x : PortSt) : PortSt :=
  { rx 6 { x with framer := { x.framer with aligned := true, sinceBasic := 12 } } with slip := { x.slip with
      history := (List.range 12).map (fun i => ⟨zeros 25, 12 - i, 12 - i, false, false, 100 - i, (12 - i) * 2048, false⟩), nextNo := 101 } }

/-- A running pair whose requests in EX are changed. -/
def guarding (f : PairReq → PairReq) : State := (pairOn id).setReq .ex 0 f

/-- An engine that computes selections; of two, the one of higher claim; a running pair whose lines show offset 0 and not 2, with and
without alignment. -/
theorem met_SelectionAndDelay :
    (∃ s t : State, t = atTick 0 s ∧ t.selecting = true ∧ t.pairs[(0 : PairId)].running = true ∧ dieOf (workPort 0) = .lda) ∧
    (∃ s t : State, t = atTick 0 s ∧ t.selecting = false) ∧
    (∃ s : State, s.engY.ctl.claim < s.engX.ctl.claim ∧ returnsWords s .ex = true) ∧
    (∃ s : State, s.engX.ctl.claim < s.engY.ctl.claim ∧ returnsWords s .ey = true) ∧
    (∃ s t : State, t = atTick 0 s ∧ t.pairs[(0 : PairId)].running = true ∧ confirmable t 0 0 = true ∧ showsOffset t 0 0 = true ∧
      showsOffset t 0 2 = false ∧ showsLoss t 0 0 = false) ∧
    (∃ s t : State, t = atTick 0 s ∧ t.pairs[(0 : PairId)].running = true ∧ confirmable t 0 0 = false ∧ showsLoss t 0 0 = true) :=
  ⟨at0 ((pairOn id).setCtl .ex fit) (by decide +kernel), at0 (pairOn id) (by decide +kernel), ⟨both, by decide +kernel⟩,
    ⟨run0.setCtl .ey fit, by decide +kernel⟩, at0 ((pairOn id).mapPorts (fun _ x => inStep x)) (by decide +kernel),
    at0 (pairOn id) (by decide +kernel)⟩

/-- A condition that has held long enough in an engine that runs and not in the other, and a wait-to-restore that has run out. -/
theorem met_ProtectionTimers :
    (∃ s : State, s.pairs[(0 : PairId)].running = true ∧ holdOffDue s 0 .protect .sf .ex = true ∧
      holdOffDue s 0 .protect .sf .ey = false) ∧
    (∃ s : State, s.pairs[(0 : PairId)].running = true ∧ (s.req .ex 0).wtr = some 0 ∧ (s.req .ey 0).wtr ≠ some 0) :=
  ⟨⟨(guarding (fun x => { x with hoSfP := ⟨300000, false⟩ })).setCtl .ex fit, by decide +kernel⟩,
    ⟨guarding (fun x => { x with wtr := some 0 }), by decide +kernel⟩⟩

/-- A partner frame with its check octets. -/
def sealed (l : List Byte) : PartnerFrame := ⟨l ++ leBytes 2 (fcs16 l).toNat, false⟩

/-- A MIRROR, an ACK, a TIME and a MEET. -/
def aMirror (serial : Byte) : PartnerFrame := sealed [0x01, 0x03, 0x10, 0, 0, serial, serial, serial, serial]
def anAck (seq : Byte) : PartnerFrame := sealed [0x03, 0x03, 0x20 ||| seq, 0]
def aTime : PartnerFrame := sealed (0x05 :: 0x03 :: 0x30 :: List.replicate 19 0)
def aMeet : PartnerFrame := sealed [0x05, 0x03, 0x40, 0, 0, 0, 0]

/-- A follower with a valid MIRROR of its own SERIAL and of another; a leader with a valid ACK of the SEQ in hand and of another; and
frames that are not valid. -/
theorem met_MirrorAndAck :
    (∃ s t : State, t = atTick 0 s ∧ t.partnerHears = true ∧ frameValid t .mirror (aMirror 0xFF) = true ∧
      leField (aMirror 0xFF).octets 5 4 = t.serial ∧ frameValid t .mirror (aMirror 1) = true ∧
      leField (aMirror 1).octets 5 4 ≠ t.serial ∧ frameValid t .mirror ⟨[], true⟩ = false) ∧
    (∃ s t : State, t = atTick 0 s ∧ t.partnerHears = true ∧ frameValid t .ack (anAck 0) = true ∧
      seqField (anAck 0) = t.partner.seq ∧ frameValid t .ack (anAck 1) = true ∧ seqField (anAck 1) ≠ t.partner.seq ∧
      frameValid t .ack ⟨[], true⟩ = false) :=
  ⟨at0 (partner (.follower false) 1) (by decide +kernel), at0 (partner .leader 1) (by decide +kernel)⟩

/-- A frame of the party being sent. -/
def sending (n : Nat) : State := { run0 with partner := { run0.partner with out := some ⟨n, [0]⟩ } }

/-- A peer with a valid TIME, one that is no peer, and a party whose TIME, or MEET, is being sent, or none. -/
theorem met_TimeExchange :
    (∃ s t : State, t = atTick 0 s ∧ t.partner.role = .peer ∧ t.partnerHears = true ∧ frameValid t .time aTime = true) ∧
    (∃ s t : State, t = atTick 0 s ∧ t.partner.role ≠ .peer ∧ t.partnerHears = true ∧ frameValid t .time aTime = true) ∧
    (∃ s t : State, t = atTick 0 s ∧ t.partner.out = some ⟨3, [0]⟩ ∧ (3 : Nat) = Msg.time.code) ∧
    (∃ s t : State, t = atTick 0 s ∧ t.partner.out = some ⟨4, [0]⟩ ∧ (4 : Nat) ≠ Msg.time.code) ∧
    (∃ s t : State, t = atTick 0 s ∧ t.partner.out = none) :=
  ⟨at0 (partner .peer 1) (by decide +kernel), at0 (partner .leader 1) (by decide +kernel), at0 (sending 3) (by decide +kernel),
    at0 (sending 4) (by decide +kernel), at0 run0 (by decide +kernel)⟩

/-- A party in a state, some turns after the last valid frame. -/
def silentFor (r : PartRole) (st n : Nat) : Partner := { (partner r st).partner with sinceValid := n }

/-- A follower after 136 turns and after 135, a peer after 750 and after 749, and a leader. -/
theorem met_PartnerIsLost :
    (silentFor (.follower true) 2 136).role = .follower true ∧ (silentFor (.follower true) 2 136).state = 2 ∧
      136 ≤ (silentFor (.follower true) 2 136).sinceValid ∧ (silentFor (.follower true) 2 135).sinceValid < 136 ∧
      (silentFor (.follower true) 1 136).state ≠ 2 ∧
      (silentFor .peer 1 750).role = .peer ∧ (silentFor .peer 1 750).state = 1 ∧ (silentFor .peer 2 750).state = 2 ∧
      750 ≤ (silentFor .peer 2 750).sinceValid ∧ (silentFor .peer 2 749).sinceValid < 750 ∧ (silentFor .leader 1 0).role = .leader := by
  decide +kernel

/-- A peer that drives its grid-timed partner port. -/
def drives : State := (partner .peer 1).setPort 31 (fun x => sends .grid .page (aligned x))

/-- It launches at instant 0, and at instant 1 it does not. -/
theorem drives_meets : drives.partnerOn = true ∧ drives.fabric.meet ≠ 0 ∧ (0 : Nat) = drives.ptime.nextMeet + 0 * drives.meetPeriods ∧
    (∀ n : Nat, 1 ≠ drives.ptime.nextMeet + n * drives.meetPeriods) ∧
    drives.keeper.power = .main ∧ drives.keeper.dozing = false ∧ drives.time.counting = true ∧ drives.canLaunch = true := by
  have h0 : drives.ptime.nextMeet = 0 := by decide +kernel
  have hm : drives.meetPeriods = drives.fabric.meet * 32768 := rfl
  refine ⟨by decide +kernel, by decide +kernel, by decide +kernel, fun n hn => ?_, by decide +kernel⟩
  rw [h0, hm, ← Nat.mul_assoc] at hn
  omega

/-- A peer at its meeting instant: awake with a frame that can be launched, in DOZE, and in RIDE; a MEET that arrives with none launched
lately, and with one, and in a listening window. -/
theorem met_MeetingSchedule :
    (∃ s : State, s.partnerOn = true ∧ s.fabric.meet ≠ 0 ∧ (0 : Nat) = s.ptime.nextMeet + 0 * s.meetPeriods ∧
      (∀ n : Nat, 1 ≠ s.ptime.nextMeet + n * s.meetPeriods) ∧
      s.keeper.power = .main ∧ s.keeper.dozing = false ∧ s.time.counting = true ∧ s.canLaunch = true) ∧
    (∃ s : State, s.partnerOn = true ∧ s.fabric.meet ≠ 0 ∧ s.keeper.power = .main ∧ s.keeper.dozing = true) ∧
    (∃ s : State, s.partnerOn = true ∧ s.fabric.meet ≠ 0 ∧ s.keeper.power ≠ .main) ∧
    (∃ s t : State, t = atTick 0 s ∧ t.partnerOn = true ∧ t.keeper.dozing = false ∧ frameValid t .meet aMeet = true ∧
      launchedLately t 5 = false) ∧
    (∃ s t : State, t = atTick 0 s ∧ t.partnerOn = true ∧ t.keeper.dozing = false ∧ frameValid t .meet aMeet = true ∧
      launchedLately t 5 = true) ∧
    (∃ s t : State, t = atTick 0 s ∧ t.partnerOn = true ∧ t.keeper.dozing = true ∧ frameValid t .meet aMeet = true ∧
      t.inWindow t.ptime.window.half = true ∧ t.inWindow (t.ptime.window.half + 1) = false) ∧
    (∃ s t : State, t = atTick 0 s ∧ t.partnerOn = true ∧ t.keeper.dozing = true ∧ frameValid t .meet aMeet = true ∧
      t.inWindow 5 = false) :=
  ⟨⟨drives, drives_meets⟩, ⟨{ partner .peer 1 with keeper := { run0.keeper with dozing := true } }, by decide +kernel⟩,
    ⟨{ partner .peer 1 with keeper := { run0.keeper with power := .ride } }, by decide +kernel⟩,
    at0 (partner .peer 1) (by decide +kernel),
    at0 { partner .peer 1 with ptime := { run0.ptime with lastMeet := some 5 } } (by decide +kernel),
    at0 { partner .peer 1 with keeper := { run0.keeper with dozing := true }, ptime := { run0.ptime with listening := true } }
      (by decide +kernel),
    at0 { partner .peer 1 with keeper := { run0.keeper with dozing := true } } (by decide +kernel)⟩

/-- A peer in DOZE that may listen half a window before its meeting instant, and a period too early; one that listens in a narrow window, and
in the widest, with the window at its end and a period before it. -/
theorem met_ListeningWindows :
    (∃ s : State, s.partnerOn = true ∧ s.fabric.meet ≠ 0 ∧ s.keeper.dozing = true ∧ s.keeper.power = .main ∧ s.ptime.deaf = false ∧
      s.ptime.listening = false ∧ s.windowDue (100000 - s.ptime.window.half) = true ∧
      s.windowDue (100000 - s.ptime.window.half - 2) = false) ∧
    (∃ s : State, s.ptime.listening = true ∧ s.ptime.window ≠ .wide ∧ s.ptime.windowAt + s.ptime.window.half ≤ s.ptime.window.half ∧
      s.ptime.window.half - 1 < s.ptime.windowAt + s.ptime.window.half) ∧
    (∃ s : State, s.ptime.listening = true ∧ s.ptime.window = .wide ∧ s.ptime.windowAt + s.ptime.window.half ≤ 163840) :=
  ⟨⟨{ partner .peer 1 with keeper := { run0.keeper with dozing := true }, ptime := { run0.ptime with nextMeet := 100000 } },
      by decide +kernel⟩,
    ⟨{ run0 with ptime := { run0.ptime with listening := true } }, by decide +kernel⟩,
    ⟨{ run0 with ptime := { run0.ptime with listening := true, window := .wide } }, by decide +kernel⟩⟩

/-- Incumbency on its way from EY at tick 0. -/
def moving (s : State) (clear : Bool) : State := { s with duplex := { s.duplex with incumbency := .moving .ey 0, clearSeen := clear } }

/-- EY runs and has sent claim 14. -/
def withdrawn : State := moving (run0.setCtl .ey (fun c => { fit c with incumbent := false, word := 14 })) false

/-- Incumbency on its way from EY: its word with the claim bit clear and set; the other engine runs, or does not, or HALT is asserted; 1024
ticks have passed, and 1023. -/
theorem met_IncumbencyMoves :
    (∃ s t : State, t = atTick 0 s ∧ t.duplex.incumbency = .moving .ey 0 ∧ (t.eng .ey).ctl.running = true ∧
      (14 : BitVec 4).toNat = (t.eng .ey).ctl.word ∧ (14 : BitVec 4).getLsbD 0 = false ∧ (15 : BitVec 4).getLsbD 0 = true) ∧
    (∃ s t : State, t = atTick 0 s ∧ t.duplex.incumbency = .moving .ey 0 ∧ t.tap.halt = false ∧ t.duplex.clearSeen = true ∧
      (t.eng Eng.ey.other).ctl.running = true) ∧
    (∃ s t : State, t = atTick 0 s ∧ t.duplex.incumbency = .moving .ey 0 ∧ t.tap.halt = false ∧ t.duplex.clearSeen = true ∧
      (t.eng Eng.ey.other).ctl.running = false) ∧
    (∃ s t : State, t = atTick 0 s ∧ t.duplex.incumbency = .moving .ey 0 ∧ t.duplex.clearSeen = false ∧ 0 + 1024 ≤ t.now) ∧
    (∃ s t : State, t = atTick 0 s ∧ t.duplex.incumbency = .moving .ey 0 ∧ t.duplex.clearSeen = false ∧ t.now < 0 + 1024) ∧
    (∃ s t : State, t = atTick 0 s ∧ t.duplex.incumbency = .moving .ey 0 ∧ t.tap.halt = true) :=
  ⟨at0 withdrawn (by decide +kernel), at0 (moving both true) (by decide +kernel), at0 (moving run0 true) (by decide +kernel),
    at0 { moving both false with pos := ⟨0, 0, 1024⟩ } (by decide +kernel),
    at0 { moving both false with pos := ⟨0, 0, 1023⟩ } (by decide +kernel),
    at0 { moving both false with tap := { run0.tap with halt := true } } (by decide +kernel)⟩

/-- Powered dies that are not lost, powered engines with the other running or not, and dies without power. -/
theorem met_DieLost :
    (∃ s t : State, t = atTick 0 s ∧ (t.die .lda).powered = true ∧ (t.die .lda).lost = false ∧ (t.eng .ex).ctl.powered = true ∧
      (t.eng Eng.ex.other).ctl.running = true) ∧
    (∃ s t : State, t = atTick 0 s ∧ (t.die .lda).powered = false ∧ (t.eng .ex).ctl.powered = false) :=
  ⟨at0 (both.setCtl .ey fit) (by decide +kernel), at0 run0 (by decide +kernel)⟩

/-- A load in hand with copy A in use. -/
def loading (l : Load) (b : Bool) (s : State) : State :=
  { s with image := { State.reset.image with inUse := some .a, bValid := b, load := some l } }

/-- A load for the active memories and one for the shadow that every engine reports good; a first read that fails with the other copy
valid, and one that fails with nothing more to try; a reload after a wake; and no load. -/
theorem met_PageLoads :
    (∃ s t : State, t = atTick 0 s ∧ t.image.load = some ⟨0, .a, false, true⟩ ∧
      allGood t ⟨0, .a, false, true⟩ (some ⟨0, 0xFFFFFFFF⟩) none = true ∧ takesLoad t .ex = true ∧ takesLoad t .ey = false ∧
      (t.die .lda).works = true) ∧
    (∃ s t : State, t = atTick 0 s ∧ t.image.load = some ⟨0, .a, false, false⟩ ∧
      allGood t ⟨0, .a, false, false⟩ (some ⟨0, 0xFFFFFFFF⟩) none = true) ∧
    (∃ s t : State, t = atTick 0 s ∧ t.image.load = some ⟨0, .a, false, true⟩ ∧ allGood t ⟨0, .a, false, true⟩ none none = false ∧
      t.image.valid Copy.a.other = true) ∧
    (∃ s t : State, t = atTick 0 s ∧ t.image.load = some ⟨0, .a, false, true⟩ ∧ allGood t ⟨0, .a, false, true⟩ none none = false ∧
      t.image.valid Copy.a.other = false ∧ t.keeper.reloading = false) ∧
    (∃ s t : State, t = atTick 0 s ∧ t.image.load = none) ∧
    (∃ s : State, s.keeper.reloading = true ∧ s.image.load = some ⟨0, .a, false, true⟩ ∧
      allGood s ⟨0, .a, false, true⟩ (some ⟨0, 0xFFFFFFFF⟩) none = true) ∧ run0.keeper.reloading = false :=
  ⟨at0 (loading ⟨0, .a, false, true⟩ true both) (by decide +kernel), at0 (loading ⟨0, .a, false, false⟩ true both) (by decide +kernel),
    at0 (loading ⟨0, .a, false, true⟩ true both) (by decide +kernel), at0 (loading ⟨0, .a, false, true⟩ false both) (by decide +kernel),
    at0 run0 (by decide +kernel),
    ⟨loading ⟨0, .a, false, true⟩ true { both with keeper := { both.keeper with reloading := true } }, by decide +kernel⟩,
    by decide +kernel⟩

/-- Frame 31 of a turn of a machine out of reset that counts. -/
def lastFrame (n : Nat) : State :=
  { run0 with pos := ⟨4, 31, 0⟩, pins := { run0.pins with resetN := true }, keys := { run0.keys with sampleFrom := n },
              keeper := { run0.keeper with phase := .done } }

/-- Frame 31 of the turn from which samples count, and of the turn before it; another frame. -/
theorem met_LiveKeysSampled :
    (lastFrame 4).time.counting = true ∧ (lastFrame 4).keeper.dozing = false ∧ (lastFrame 4).pos.f = 31 ∧
      (lastFrame 4).pins.resetN = true ∧ (lastFrame 4).keeper.phase ≠ .waiting ∧
      (lastFrame 4).keys.sampleFrom ≤ (lastFrame 4).pos.t.toNat ∧
      (lastFrame 5).pos.t.toNat < (lastFrame 5).keys.sampleFrom ∧ run0.keeper.phase = .waiting ∧ run0.pos.f ≠ 31 := by
  decide +kernel

/-- An armed timer whose counter has reached its compare value, with and without reload, its source not its own events; and one whose
counter has not. -/
theorem met_TimerMatches :
    (∃ s t : State, t = atTick 0 s ∧ t.matches_ 0 = true ∧ (t.preset 0).src ≠ 3 ∧ (t.preset 0).reload = true ∧ (t.preset 0).pulse = true) ∧
    (∃ s t : State, t = atTick 0 s ∧ t.matches_ 0 = true ∧ (t.preset 0).src ≠ 3 ∧ (t.preset 0).reload = false) ∧
    (∃ s t : State, t = atTick 0 s ∧ t.matches_ 0 = false) :=
  ⟨at0 (ripe run0) (by decide +kernel), at0 (ripe { run0 with image := { run0.image with flash := [(0x50A, 0)] } }) (by decide +kernel),
    at0 run0 (by decide +kernel)⟩

/-- A timer that has wrapped, one that has not, a counter at its top, and an armed timer. -/
theorem met_TimerOverflows :
    (∃ s t : State, t = atTick 0 s ∧ t.timers[(0 : TimerId)].wrapped = true ∧ t.frozen 0 = false ∧
      ((t.preset 0).src ≠ 3 ∨ (t.preset 0).arg ≠ (0 : TimerId).val)) ∧
    (∃ s t : State, t = atTick 0 s ∧ t.timers[(0 : TimerId)].wrapped = false) ∧
    (({ Timer.reset with counter := 0xFFFFFFFF } : Timer).counter = 0xFFFFFFFF ∧ Timer.reset.armed = false) ∧
    (({ Timer.reset with armed := true } : Timer).armed = true) :=
  ⟨at0 (run0.setTimer 0 (fun x => { x with wrapped := true })) (by decide +kernel), at0 run0 (by decide +kernel), by decide +kernel, by decide +kernel⟩

/-- ALARM_N low for a pulse and for its minimum time, until a tick. -/
def alarming (n : Nat) : State := { run0 with alarm := { run0.alarm with pulseEnd := some n, minEnd := some n } }

/-- A pulse and a minimum time that end now, and ones that do not; neither. -/
theorem met_AlarmEnds :
    (∃ s t : State, t = atTick 0 s ∧ t.alarm.pulseEnd = some 0 ∧ t.alarm.minEnd = some 0 ∧ 0 ≤ t.now) ∧
    (∃ s t : State, t = atTick 0 s ∧ t.alarm.pulseEnd = some 1 ∧ t.alarm.minEnd = some 1 ∧ t.now < 1) ∧
    (∃ s t : State, t = atTick 0 s ∧ t.alarm.pulseEnd = none ∧ t.alarm.minEnd = none) :=
  ⟨at0 (alarming 0) (by decide +kernel), at0 (alarming 1) (by decide +kernel), at0 run0 (by decide +kernel)⟩

/-- A request of the dump engine for four bytes of the tally ring: a read, and a write. -/
def ask (off : Nat) : BurstReq := ⟨.dump, .tallyRing, off, 4, false, [], false⟩
def put (off : Nat) : BurstReq := ⟨.dump, .tallyRing, off, 4, true, [1, 2, 3, 4], false⟩

/-- The FRAM with a burst in progress. -/
def busyWith (q : BurstReq) : State := { fed with matrix := fed.matrix.setTarget .fram (fun x => { x with busy := some q }) }

/-- A target with a request, made at tick 0, in its queue. -/
def queued (s : State) (t : Target) (q : BurstReq) : Matrix :=
  s.matrix.setTarget t (fun x => { x with waiting := x.waiting ++ [(q, 0)] })

/-- A check of the tally memory by the lend monitor. -/
def check : BurstReq := ⟨.lendMonitor, .lendCheckTally, 0, 4, false, [], false⟩

/-- A read of the tally ring inside its window on a free target parked on its master; another master's read there, and on a busy target; one
past its window's end; the standby's writer; a matrix that does not run. A target that is busy, lent, or just given back; requests of a master
that holds a burst; and a free target with a request that can be granted. -/
theorem met_MatrixRequests :
    (∃ s t : State, t = atTick 0 s ∧ t.runsBursts = true ∧ asMade (inHand (ask 65532) t) (ask 65532) = some (ask 65532) ∧
      writerOf (ask 65532).master = none ∧ fnMaster .tallyRing .dump = true ∧ 4 ≤ longest .dump ∧
      (decodes t (ask 65532)).map (fun x => x.1) = some .fram ∧
      nextGrant t.now (queued t .fram (ask 65532)) .fram = some (ask 65532, 0) ∧ (t.matrix.target .fram).parked = .dump ∧
      (∀ x, x ≠ .fram → (t.matrix.target x).waiting = [])) ∧
    (∃ s t : State, t = atTick 0 s ∧ t.runsBursts = true ∧ asMade t (ask 65533) = some (ask 65533) ∧ decodes t (ask 65533) = none) ∧
    (∃ s t : State, t = atTick 0 s ∧ t.runsBursts = true ∧ asMade t check = some check ∧
      (decodes t check).map (fun x => x.1) = some .fram ∧
      nextGrant t.now (queued t .fram check) .fram = some (check, 0) ∧ (t.matrix.target .fram).parked ≠ .lendMonitor) ∧
    (∃ s t : State, t = atTick 0 s ∧ t.runsBursts = true ∧ (decodes t check).map (fun x => x.1) = some .fram ∧
      nextGrant t.now (queued t .fram check) .fram = none) ∧
    (∃ s t : State, t = atTick 0 s ∧ writerOf .captureX = some .ex ∧ t.activeEng ≠ some .ex) ∧
    (∃ s t : State, t = atTick 0 s ∧ t.runsBursts = false) ∧
    (((busyWith (put 8)).matrix.target .fram).busy ≠ none ∧
      ((busyWith (put 8)).matrix.setLend .tally (fun x => { x with requested := true })).lent .fram = true ∧
      4 < ((busyWith (put 8)).matrix.setLend .tally (fun x => { x with openAt := 5 })).openAt .fram) ∧
    ((queued (busyWith (put 8)) .psram (ask 0)).holding .dump = true ∧
      ((queued (busyWith (put 8)) .psram (ask 0)).target .psram).waiting = [(ask 0, 0)]) ∧
    (((queued fed .fram check).target .fram).busy = none ∧ (queued fed .fram check).lent .fram = false ∧
      (queued fed .fram check).openAt .fram ≤ 0 ∧ (check, 0) ∈ ((queued fed .fram check).target .fram).waiting ∧
      (queued fed .fram check).holding .lendMonitor = false) :=
  ⟨at0 fed ⟨by decide +kernel, by decide +kernel, by decide +kernel, by decide +kernel, by decide +kernel, by decide +kernel,
      by decide +kernel, by decide +kernel, fun x _ => by cases x <;> rfl⟩,
    at0 fed (by decide +kernel), at0 fed (by decide +kernel), at0 (busyWith (put 8)) (by decide +kernel),
    at0 fed (by decide +kernel), at0 State.reset (by decide +kernel), by decide +kernel, by decide +kernel, by decide +kernel⟩

/-- The commit word of a capture record. -/
def word : BurstReq := ⟨.captureX, .captureRing, 0, 4, true, [7, 0, 0, 0], true⟩

/-- It is in progress on the PSRAM, with the record in hand or not. -/
def committing (o : Option (Nat × List Byte)) : State :=
  { fed with
    matrix := fed.matrix.setTarget .psram (fun x => { x with busy := some word })
    capture := { fed.capture with hand := o } }

/-- A write and a read in progress on the FRAM, one that no window decodes, and a target with none; the commit word of a chunk, and one whose
writer is gone. -/
theorem met_BurstStores :
    (∃ s t : State, t = atTick 0 s ∧ (t.matrix.target .fram).busy = some (put 8) ∧ (decodes t (put 8)).map (fun x => x.1) = some .fram ∧
      (put 8).write = true) ∧
    (∃ s t : State, t = atTick 0 s ∧ (t.matrix.target .fram).busy = some (ask 0) ∧ (decodes t (ask 0)).map (fun x => x.1) = some .fram) ∧
    (∃ s t : State, t = atTick 0 s ∧ (t.matrix.target .psram).busy = some word ∧ (decodes t word).map (fun x => x.1) = some .psram ∧
      t.capture.hand = some (0, zeros 64)) ∧
    (∃ s t : State, t = atTick 0 s ∧ (t.matrix.target .psram).busy = some word ∧ (decodes t word).map (fun x => x.1) = some .psram ∧
      t.capture.hand = none) ∧
    (∃ s t : State, t = atTick 0 s ∧ (t.matrix.target .fram).busy = some (ask 65533) ∧ decodes t (ask 65533) = none) ∧
    (∃ s t : State, t = atTick 0 s ∧ (t.matrix.target .fram).busy = none) :=
  ⟨at0 (busyWith (put 8)) (by decide +kernel), at0 (busyWith (ask 0)) (by decide +kernel),
    at0 (committing (some (0, zeros 64))) (by decide +kernel), at0 (committing none) (by decide +kernel),
    at0 (busyWith (ask 65533)) (by decide +kernel), at0 fed (by decide +kernel)⟩

/-- A record in writing. -/
def recording : State := { fed with tally := { fed.tally with writing := some shortRecord } }

/-- What the matrix decodes of a burst does not rest on its bytes. -/
theorem decodes_bytes (s : State) (q : BurstReq) (b : List Byte) (c : Bool) : decodes s q = decodes s { q with bytes := b, commit := c } := rfl

/-- Every burst of its slot decodes. -/
theorem recording_decodes (q : BurstReq) (hm : q.master = .dump) (hf : q.fn = .tallyRing) (hw : q.write = true) (ho : 12 ≤ q.offset)
    (he : q.offset + q.len ≤ 24) : decodes recording q = some (.fram, 12 + (q.offset - 12)) := by
  have h : ∀ (o : Fin 25) (n : Fin 13), 12 ≤ o.val → o.val + n.val ≤ 24 →
      decodes recording ⟨.dump, .tallyRing, o.val, n.val, true, [], false⟩ = some (.fram, 12 + (o.val - 12)) := by decide +kernel
  rw [decodes_bytes recording q [] false]
  obtain ⟨m, f, o, n, w, b, c⟩ := q
  subst hm hf hw
  simp only at ho he ⊢
  exact h ⟨o, by omega⟩ ⟨n, by omega⟩ ho he

/-- A record in writing with the ring open; and with the FRAM busy, lent, and a matrix that does not run. -/
theorem met_RecordCommitted :
    (∃ s t : State, t = atTick 0 s ∧ ringFree t = true ∧ (t.matrix.target .fram).waiting = [] ∧ t.tally.writing = some shortRecord ∧
      (∃ w, ringWindow t.image = some w ∧
        12 = shortRecord.bytes.length * (shortRecord.seq.toNat % (w.size / shortRecord.bytes.length)) ∧ 12 = w.toff + 12) ∧
      (∀ q : BurstReq, q.master = .dump → q.fn = .tallyRing → q.write = true → 0 < q.len → 12 ≤ q.offset →
        q.offset + q.len ≤ 12 + shortRecord.bytes.length → decodes t q = some (.fram, 12 + (q.offset - 12))) ∧
      t.tally.made + 4 ≤ shortRecord.bytes.length) ∧
    (∃ s t : State, t = atTick 0 s ∧ (t.matrix.target .fram).busy ≠ none) ∧
    (∃ s t : State, t = atTick 0 s ∧ t.matrix.lent .fram = true) ∧ (∃ s t : State, t = atTick 0 s ∧ t.runsBursts = false) :=
  ⟨at0 recording ⟨by decide +kernel, by decide +kernel, rfl, ⟨_, rfl, by decide +kernel, by decide +kernel⟩,
      fun q hm hf hw _ ho he => recording_decodes q hm hf hw ho he, by decide +kernel⟩,
    at0 (busyWith (put 8)) (by decide +kernel),
    at0 { fed with matrix := fed.matrix.setLend .tally (fun x => { x with requested := true }) } (by decide +kernel),
    at0 State.reset (by decide +kernel)⟩

/-- The lend of the tally memory changed. -/
def lending (f : Lend → Lend) (s : State) : State := { s with matrix := s.matrix.setLend .tally f }

/-- A memory that can be lent, one that cannot, a request that is high, a request at a target free of bursts whose balls have been high-impedance for a tick, and not yet, and at a busy
one. -/
theorem met_LendBegins :
    (∃ s t : State, t = atTick 0 s ∧ (t.matrix.lend .tally).high = false ∧ t.drivesBalls = true ∧ lendable t.image .tally = true ∧
      (t.matrix.lend .tally).requested = false) ∧
    (∃ s t : State, t = atTick 0 s ∧ (t.matrix.lend .tally).high = false ∧ t.drivesBalls = true ∧ lendable t.image .tally = false) ∧
    (∃ s t : State, t = atTick 0 s ∧ (t.matrix.lend .tally).high = false ∧ t.drivesBalls = false) ∧
    (∃ s t : State, t = atTick 0 s ∧ (t.matrix.lend .tally).high = true) ∧
    (∃ s t : State, t = atTick 0 s ∧ (t.matrix.lend .tally).requested = true ∧ (t.matrix.lend .tally).granted = false ∧
      (t.matrix.target (lendTarget .tally)).busy = none ∧ t.floated .tally = true) ∧
    (∃ s t : State, t = atTick 0 s ∧ (t.matrix.lend .tally).requested = true ∧ (t.matrix.lend .tally).granted = false ∧
      (t.matrix.target (lendTarget .tally)).busy = none ∧ t.floated .tally = false) ∧
    (∃ s t : State, t = atTick 0 s ∧ (t.matrix.lend .tally).requested = true ∧ (t.matrix.lend .tally).granted = false ∧
      (t.matrix.target (lendTarget .tally)).busy ≠ none) :=
  ⟨at0 fed (by decide +kernel), at0 { fed with image := { fed.image with inUse := none } } (by decide +kernel),
    at0 { fed with keeper := { fed.keeper with power := .ride } } (by decide +kernel), at0 (lending (fun x => { x with high := true }) fed) (by decide +kernel),
    at0 { lending (fun x => { x with requested := true, granted := false, hiZ := some 0 }) fed with pos := ⟨0, 0, 1⟩ }
      (by decide +kernel),
    at0 (lending (fun x => { x with requested := true, granted := false, hiZ := some 0 }) fed) (by decide +kernel),
    at0 (lending (fun x => { x with requested := true, granted := false }) (busyWith (put 8))) (by decide +kernel)⟩

/-- A memory that the host holds and writes at its last byte, one not granted, and a check that is due with a last commit to compare. -/
theorem met_LendEnds :
    (∃ s t : State, t = atTick 0 s ∧ (t.matrix.lend .tally).granted = true ∧ ([((0x7FFFF : Nat), (1 : Byte))].map (fun w => w.1)).Nodup ∧
      (0x7FFFF : Nat) < deviceBytes (lendTarget .tally)) ∧
    (∃ s t : State, t = atTick 0 s ∧ (t.matrix.lend .tally).granted = false ∧ (t.matrix.lend .tally).checkDue = false) ∧
    (∃ s t : State, t = atTick 0 s ∧ (t.matrix.lend .tally).checkDue = true ∧ t.matrix.lent (lendTarget .tally) = false ∧
      (t.lendWindow .tally).isSome = true ∧ t.lastCommit .tally = some (12, 1)) :=
  ⟨at0 (lending (fun x => { x with requested := true, granted := true, checkDue := false }) fed) (by decide +kernel),
    at0 (lending (fun x => { x with requested := true, granted := false, checkDue := false }) fed) (by decide +kernel),
    at0 { lending (fun x => { x with requested := false, granted := false, checkDue := true }) fed with
      tally := { fed.tally with lastCommit := some (12, 1) } } (by decide +kernel)⟩

/-- A port that the reference list names after 64 good frames, and one after 63; REFIN likewise; a present reference with and
without 252 locked turns; a port whose line is not aligned and one whose line is good; and no reference. -/
theorem met_ReferenceCandidates :
    (∃ s : State, refNamed s.time.refLevel (.port 0) = true ∧ 64 ≤ s.time.goodFrames[(0 : Port)] ∧
      s.time.qualified[(0 : Port)] = false) ∧
    (∃ s : State, s.time.goodFrames[(0 : Port)] < 64) ∧
    (∃ s : State, refNamed s.time.refLevel .refin = true ∧ s.time.counting = true ∧ 64 ≤ s.time.refinFrames ∧ s.time.refinQual = false) ∧
    (∃ s : State, s.time.refinFrames < 64) ∧
    (∃ s t : State, t = atTick 0 s ∧ t.time.counting = true ∧ t.time.present = some (.port 0) ∧ t.time.holdCondition = true ∧
      sourceUp t.ports[(0 : Port)] = false) ∧
    (∃ s t : State, t = atTick 0 s ∧ t.time.counting = true ∧ t.time.present = some .refin ∧ t.time.holdCondition = false ∧
      t.time.present ≠ some (.port 0) ∧ sourceUp t.ports[(1 : Port)] = true) ∧
    (∃ s t : State, t = atTick 0 s ∧ t.time.counting = true ∧ t.time.present = none) :=
  ⟨⟨{ run0 with time := { run0.time with refLevel := 4, goodFrames := Vector.replicate 32 64 } }, by decide +kernel⟩,
    ⟨{ run0 with time := { run0.time with goodFrames := Vector.replicate 32 63 } }, by decide +kernel⟩,
    ⟨{ run0 with time := { run0.time with refLevel := 1, refinFrames := 64 } }, by decide +kernel⟩,
    ⟨{ run0 with time := { run0.time with refLevel := 1, refinFrames := 63 } }, by decide +kernel⟩,
    at0 { run0 with time := { run0.time with present := some (.port 0), mode := .locked, lockedTurns := 252 } } (by decide +kernel),
    at0 ({ run0 with time := { run0.time with present := some .refin, mode := .locked, lockedTurns := 251 } }.setPort 1 aligned)
      (by decide +kernel), at0 run0 (by decide +kernel)⟩

/-- A machine that counts, one that does not, and one that may resume, with and without holdover at its stop. -/
theorem met_CountingStopsAndResumes :
    (∃ s t : State, t = atTick 0 s ∧ t.time.counting = true) ∧
    (∃ s t : State, t = atTick 0 s ∧ t.time.counting = false) ∧
    (∃ s : State, s.time.counting = false ∧ s.keeper.power = .main ∧ s.keeper.dozing = false ∧ s.keeper.coldWait = false ∧
      s.time.present = none ∧ s.time.heldAtStop = true) ∧
    (∃ s : State, s.time.counting = false ∧ s.keeper.power = .main ∧ s.keeper.dozing = false ∧ s.keeper.coldWait = false ∧
      s.time.present = none ∧ s.time.heldAtStop = false) :=
  ⟨at0 run0 (by decide +kernel), at0 State.reset (by decide +kernel),
    ⟨{ State.reset with keeper := { State.reset.keeper with coldWait := false }, time := { State.reset.time with heldAtStop := true } }, by decide +kernel⟩,
    ⟨{ State.reset with keeper := { State.reset.keeper with coldWait := false } }, by decide +kernel⟩⟩

/-- RIDE. -/
def ride : State := { run0 with keeper := { run0.keeper with power := .ride } }

/-- MAIN after a start, and RIDE. -/
theorem met_ResetAsserted :
    (∃ s t : State, t = atTick 0 s ∧ t.keeper.power = .main ∧ t.keeper.coldWait = false) ∧
    (∃ s t : State, t = atTick 0 s ∧ t.keeper.power ≠ .main) ∧ (∃ s t : State, t = atTick 0 s ∧ t.keeper.coldWait = true) :=
  ⟨at0 { run0 with keeper := { run0.keeper with coldWait := false, phase := .done } } (by decide +kernel), at0 ride (by decide +kernel),
    at0 State.reset (by decide +kernel)⟩

/-- MAIN after a start, out of reset, with DOZE requested. -/
def dozy : State :=
  { run0 with pins := { run0.pins with doze := true, resetN := true }, keeper := { run0.keeper with phase := .done } }

/-- Every port of it is bypassed with nothing in progress. -/
theorem dozy_idle : ∀ p : Port, dozy.ports[p].hinge.role = .bypassed ∧ dozy.ports[p].hinge.seq = .idle := by decide +kernel

/-- It stands at a turn boundary, the request having taken effect before it or not. -/
def dozyAt (r : Bool) : State := { dozy with frameDue := true, keeper := { dozy.keeper with dozeReq := r } }

/-- A machine that may enter DOZE within a turn and at a turn boundary, ones that may not, and one in DOZE. -/
theorem met_DozeEnteredAndLeft :
    (dozy.pins.doze = true ∧ dozy.keeper.phase = .done ∧ dozy.keeper.power = .main ∧ dozy.pins.resetN = true ∧
      dozy.time.counting = true ∧ dozy.keeper.dozing = false ∧ dozy.frameDue = false) ∧
      ((dozyAt true).frameDue = true ∧ (dozyAt true).pos.f = 0 ∧ (dozyAt true).pos.k = 0 ∧ (dozyAt true).keeper.dozeReq = true ∧
        (dozyAt true).keeper.phase = .done) ∧
      ((dozyAt false).frameDue = true ∧ (dozyAt false).pos.f = 0 ∧ (dozyAt false).pos.k = 0 ∧ (dozyAt false).keeper.dozeReq = false) ∧
      run0.pins.doze = false ∧
      (∃ s : State, ∃ p : Port, s.ports[p].hinge.role ≠ .bypassed) ∧ (∃ s : State, s.keeper.dozing = true) :=
  ⟨by decide +kernel, by decide +kernel, by decide +kernel, by decide +kernel, ⟨port0 (sends .grid .page), 0, by decide +kernel⟩,
    ⟨{ run0 with keeper := { run0.keeper with dozing := true } }, by decide +kernel⟩⟩

/-- A first power with its rails in range, one without, and a machine that validates. -/
theorem met_StartsAndValidation :
    (∃ s t : State, t = atTick 0 s ∧ t.keeper.phase = .waiting ∧ t.keeper.power = .main ∧ t.keeper.coreOk = true ∧
      t.keeper.vlineOk = true ∧ t.keeper.coldWait = true) ∧
    (∃ s t : State, t = atTick 0 s ∧ t.keeper.coreOk = false ∧ t.keeper.phase ≠ .validating) ∧
    (∃ s t : State, t = atTick 0 s ∧ t.keeper.phase = .validating) :=
  ⟨at0 { State.reset with keeper := { State.reset.keeper with coreOk := true, vlineOk := true } } (by decide +kernel),
    at0 State.reset (by decide +kernel), at0 { run0 with keeper := { run0.keeper with phase := .validating } } (by decide +kernel)⟩

/-- MAIN, RIDE with every port bypassed and with a port that drives, and a last-words write in progress. -/
theorem met_MainPowerFails :
    (∃ s t : State, t = atTick 0 s ∧ t.keeper.power = .main ∧ s.riding = false ∧ s.keeper.power ≠ .ride ∧ s.words.writing = none) ∧
    (∃ s t : State, t = atTick 0 s ∧ t.keeper.power ≠ .main ∧ s.riding = true ∧ allBypassed s = true ∧ s.keeper.power = .ride) ∧
    (∃ s : State, s.riding = true ∧ allBypassed s = false) ∧
    (∃ s : State, s.words.writing = some (true, [1]) ∧ s.keeper.stable = false) :=
  ⟨at0 run0 (by decide +kernel), at0 ride (by decide +kernel), ⟨ride.setPort 0 (sends .grid .page), by decide +kernel⟩,
    ⟨{ run0 with words := { run0.words with writing := some (true, [1]) } }, by decide +kernel⟩⟩

/-- A last-words slot. -/
def words64 : List Byte := leBytes 2 0x574C ++ leBytes 1 1 ++ leBytes 1 1 ++ leBytes 4 9 ++ zeros 52

/-- LAST with its write done and in progress, DARK with and without a valid slot, and RIDE with and without a release in progress. -/
theorem met_DarkAndBack :
    (∃ s : State, s.keeper.power = .last ∧ s.words.writing = none ∧ noRelease s = true) ∧
    (∃ s : State, s.keeper.power ≠ .last ∧ s.keeper.power ≠ .dark ∧ s.words.writing = some (false, [1])) ∧
    (∃ s : State, s.keeper.power = .dark ∧ s.words.newest = none) ∧
    (∃ s : State, s.keeper.power = .dark ∧ s.words.newest = some true) ∧
    (∃ s : State, s.riding = true ∧ s.words.writing = none ∧ noRelease s = true) ∧
    (∃ s : State, s.riding = true ∧ noRelease s = false) :=
  ⟨⟨{ run0 with keeper := { run0.keeper with power := .last } }, by decide +kernel⟩,
    ⟨{ run0 with words := { run0.words with writing := some (false, [1]) } }, by decide +kernel⟩,
    ⟨{ run0 with keeper := { run0.keeper with power := .dark } }, by decide +kernel⟩,
    ⟨{ run0 with keeper := { run0.keeper with power := .dark },
                 words := { run0.words with slot1 := words64 ++ leBytes 4 (crc32 words64).toNat } }, by decide +kernel⟩,
    ⟨ride, by decide +kernel⟩, ⟨ride.setPort 0 (inSeq .released), by decide +kernel⟩⟩

/-- A frame boundary that is due, one within the turn and one after frame 31, a turn boundary that closes a record, one in RIDE, one of a
cold start before its validation completes and after it, and a machine that does not count. -/
theorem met_TurnsAndFrames :
    (∃ s : State, s.time.counting = true ∧ s.frameDue = true) ∧
    (∃ s : State, s.time.counting = true ∧ s.frameDue = false ∧ s.pos.f ≠ 31) ∧
    (∃ s : State, s.time.counting = true ∧ s.frameDue = false ∧ s.pos.f = 31) ∧
    (∃ s : State, s.time.counting = true ∧ s.keeper.coldDue = false ∧ s.keeper.power = .main ∧ s.keeper.dozing = false ∧
      closes s = true ∧ isSecond (s.pos.t + 1).toNat = true) ∧
    (∃ s : State, s.time.counting = true ∧ s.keeper.coldDue = false ∧ s.keeper.power ≠ .main) ∧
    (∃ s : State, s.time.counting = true ∧ s.keeper.coldDue = true ∧ s.keeper.phase ≠ .validated) ∧
    (∃ s : State, s.time.counting = true ∧ s.keeper.coldDue = true ∧ s.keeper.phase = .validated ∧ (scanRing (endTurn s)).2 = none) ∧
    (∃ s : State, s.time.counting = false) :=
  ⟨⟨{ run0 with frameDue := true }, by decide +kernel⟩, ⟨{ run0 with pos := ⟨0, 30, 0⟩ }, by decide +kernel⟩,
    ⟨{ run0 with pos := ⟨0, 31, 0⟩ }, by decide +kernel⟩,
    ⟨{ fed with pos := ⟨249, 31, 0⟩, pins := { run0.pins with resetN := true }, keeper := { fed.keeper with coldDue := false } },
      by decide +kernel⟩,
    ⟨{ ride with keeper := { ride.keeper with coldDue := false } }, by decide +kernel⟩,
    ⟨{ run0 with keeper := { run0.keeper with coldDue := true } }, by decide +kernel⟩,
    ⟨{ run0 with keeper := { run0.keeper with coldDue := true, phase := .validated } }, by decide +kernel⟩,
    ⟨State.reset, by decide +kernel⟩⟩

end Sys2Proof.Tests
end

section
/-! SUPPORT. The map flash is never written (R3): what the operations that write a memory, the last-words store or the test
access port leave of it. Every other command keeps it by the laws of `kept`. -/

namespace Sys2Proof.Machine

/-- States that agree in the kept parts hold the same flash. -/
theorem flash_of_kept {s t : State} (h : kept t = kept s) : t.image.flash = s.image.flash := (kept_parts h).2.1

@[simp] theorem atTick_flash (k : Tick) (s : State) : (atTick k s).image.flash = s.image.flash := flash_of_kept (kept_atTick k s)

/-! ### The memories of the matrix (R410, R416, R423) -/

@[simp] theorem grantAll_flash (s : State) : (grantAll s).image.flash = s.image.flash := flash_of_kept (kept_grantAll s)

@[simp] theorem writeNext_flash (s : State) : (writeNext s).image.flash = s.image.flash := flash_of_kept (kept_writeNext s)

@[simp] theorem wordWritten_flash (q : BurstReq) (a : Nat) (s : State) : (wordWritten q a s).image.flash = s.image.flash :=
  flash_of_kept (kept_wordWritten q a s)

/-- The bytes of a write go to a memory of the matrix, which the image is no part of, and those of a read to its read buffer. -/
@[simp] theorem burstEnds_flash (t : Target) (s : State) : (burstEnds t s).image.flash = s.image.flash := by
  unfold burstEnds
  split
  · rfl
  · rw [grantAll_flash]
    split
    · rfl
    · split
      · rw [wordWritten_flash]
      · rfl

@[simp] theorem ringBursts_flash (n : Nat) (s : State) : (ringBursts n s).image.flash = s.image.flash := by
  induction n generalizing s with
  | zero => rfl
  | succ n ih =>
    unfold ringBursts
    split
    · next q _ =>
      have hreq : (matrixRequest q s).image.flash = s.image.flash := flash_of_kept (kept_matrixRequest q s)
      dsimp only
      split
      · split
        · rw [ih, burstEnds_flash, hreq]
        · exact hreq
      · exact hreq
    · rfl

@[simp] theorem tallyCommit_flash (s : State) : (tallyCommit s).image.flash = s.image.flash := by
  unfold tallyCommit
  split
  · rw [writeNext_flash, ringBursts_flash]
  · rfl

/-- A host writes a memory that it was lent, and the flash is lent to none (R414). -/
@[simp] theorem lendReleased_flash (l : LendTarget) (w : List (Nat × Byte)) (s : State) :
    (lendReleased l w s).image.flash = s.image.flash := by
  simp only [lendReleased]
  split
  · rfl
  · rw [grantAll_flash]

/-! ### The last-words store and DARK (R456, R462) -/

@[simp] theorem returnToMain_flash (s : State) : (returnToMain s).image.flash = s.image.flash := flash_of_kept (kept_returnToMain s)

@[simp] theorem writeDone_flash (s : State) : (writeDone s).image.flash = s.image.flash := by
  unfold writeDone
  split
  · rw [returnToMain_flash]
  · rfl

/-- In DARK the flash, which needs no power, is all that is left of the image. -/
@[simp] theorem goDark_flash (s : State) : (goDark s).image.flash = s.image.flash := rfl

@[simp] theorem darkEntered_flash (s : State) : (darkEntered s).image.flash = s.image.flash := by
  unfold darkEntered
  split
  · exact goDark_flash s
  · rfl

@[simp] theorem vkeepCollapses_flash (s : State) : (vkeepCollapses s).image.flash = s.image.flash := goDark_flash _

/-! ### The test access port (R490) -/

@[simp] theorem loadIr_image (c : BitVec 4) (s : State) : (loadIr c s).image = s.image := rfl

@[simp] theorem dataScan_image (bits seen : List Bool) (s : State) : (dataScan bits seen s).image = s.image := rfl

@[simp] theorem setHalt_image (c : BitVec 4) (on : Bool) (s : State) : (setHalt c on s).image = s.image := rfl

@[simp] theorem testLogicReset_image (s : State) : (testLogicReset s).image = s.image := rfl

@[simp] theorem loadBypass_image (c : BitVec 4) (bits : List Bool) (s : State) : (loadBypass c bits s).image = s.image := by
  unfold loadBypass
  split
  · rfl
  · rw [dataScan_image, loadIr_image]

/-! ### Every command -/

/-- The commands that may change one of the kept parts: those that store, the end of a last-words write, and those of the
test access port. -/
def changesKept : Instr → Bool
  | .lastWordsWriteDone | .extest _ _ | .samplePreload _ _ | .idcode | .highz | .clamp | .haltSet _ | .haltClr _ | .bypass _ _
  | .testLogicReset _ => true
  | c => storesTo c

/-- A command keeps them if the state that it answers does. -/
theorem kept_of_next {s t u : State} (h : (.next t : Host.Outcome State Fault Refusal) = .next u) (ht : kept t = kept s) :
    kept u = kept s :=
  Host.Outcome.next.inj h ▸ ht

/-- Every other command keeps them, by the law of the operation that it carries out at its tick. -/
theorem exec_kept {c : Instr} {s u : State} (hc : changesKept c = false) (h : exec c s = .next u) : kept u = kept s := by
  cases c with
  | burstComplete | tallyCommit | lendRelease | darkEntry | vkeepCollapses | lastWordsWriteDone
  | extest | samplePreload | idcode | highz | clamp | haltSet | haltClr | bypass | testLogicReset => cases hc
  | _ => exact kept_of_next h (by simp)

/-- Settles O6: the commands that may change a kept part leave the flash by the laws above, and the others keep it with the rest. -/
theorem flashNeverWritten : Obligations.FlashNeverWritten := by
  unfold Obligations.FlashNeverWritten
  intro c s u h
  cases c with
  | burstComplete t k => cases h; rw [burstEnds_flash, atTick_flash]
  | tallyCommit k => cases h; rw [tallyCommit_flash, atTick_flash]
  | lendRelease m wrote k => cases h; rw [writeNext_flash, lendReleased_flash, atTick_flash]
  | lastWordsWriteDone => cases h; exact writeDone_flash s
  | darkEntry => cases h; exact darkEntered_flash s
  | vkeepCollapses => cases h; exact vkeepCollapses_flash s
  | extest bits seen | samplePreload bits seen => cases h; exact congrArg Image.flash (dataScan_image bits seen _)
  | idcode | highz | clamp => cases h; rw [loadIr_image]
  | haltSet k | haltClr k => cases h; rw [setHalt_image, atTick_flash]
  | bypass code bits => cases h; rw [loadBypass_image]
  | testLogicReset k => cases h; rw [testLogicReset_image, atTick_flash]
  | _ => exact flash_of_kept (exec_kept rfl h)

end Sys2Proof.Machine
end

section
/-! SUPPORT. The claim of an engine without power (R29), on its wires and at the latches of the line dies (R314). -/

namespace Sys2Proof.Machine

/-- The internal pull-downs of the claim wires: without power neither health nor incumbency is claimed. -/
theorem EngCtl.claim_of_not_powered {c : EngCtl} (h : c.powered = false) : c.claim = 0 := by
  simp [EngCtl.claim, h]

/-- A line die never counts more for an engine than its wires claim, whatever its latest beat said. -/
theorem effClaim_le_claim (s : State) (d : LineDie) (e : Eng) : effClaim s d e ≤ (s.eng e).ctl.claim := by
  dsimp only [effClaim]
  split
  · exact Nat.zero_le _
  · exact Nat.min_le_left _ _

/-- Settles O29: the wires claim 0, and the effective claim at a latch is bounded by them. -/
theorem unpoweredClaimsZero : Obligations.UnpoweredClaimsZero := by
  unfold Obligations.UnpoweredClaimsZero
  intro s e hoff
  have hwires : (s.eng e).ctl.claim = 0 := EngCtl.claim_of_not_powered hoff
  exact ⟨hwires, fun d => Nat.le_zero.mp (hwires ▸ effClaim_le_claim s d e)⟩

end Sys2Proof.Machine
end

section
/-! SUPPORT. What the commands that write a memory leave of its form and of its bytes, and which commands may touch the test
access port and the last-words slots (R410, R416, R423, R456, R460, R491). -/

namespace Sys2Proof.Machine

/-! ### Memories of two states -/

/-- States with the same bytes in the memories of the matrix have them in the same form. -/
theorem Matrix.wf_congr {m n : Matrix} (hf : n.framMem = m.framMem) (hp : n.psramMem = m.psramMem) (hs : n.sramMem = m.sramMem) :
    n.wf = m.wf := by
  simp only [Matrix.wf, hf, hp, hs]

theorem canonical_iff (s : State) : Canonical s ↔ Mem.wf flashFill s.image.flash = true ∧ s.matrix.wf = true := by
  simp only [Canonical, Matrix.wf, Bool.and_eq_true, and_assoc]

theorem matrix_wf_of_kept {s u : State} (h : kept u = kept s) : u.matrix.wf = s.matrix.wf := by
  obtain ⟨_, _, hf, hp, hs, _⟩ := kept_parts h
  exact Matrix.wf_congr hf hp hs

/-- States that agree in the kept parts hold the same bytes. -/
theorem SameBytes.of_kept {s u : State} (h : kept u = kept s) : SameBytes s u := by
  obtain ⟨_, hfl, hf, hp, hs, _⟩ := kept_parts h
  exact fun a => ⟨by rw [hfl], by rw [hf], by rw [hp], by rw [hs]⟩

theorem SameBytes.refl (s : State) : SameBytes s s := .of_kept rfl

/-! ### The operations that store -/

theorem burstEnds_wf (t : Target) (s : State) (h : s.matrix.wf = true) : (burstEnds t s).matrix.wf = true := by
  have hfree : ((s.matrix.setTarget t (fun x => { x with busy := none })).floats s.now).wf = true := by
    rw [← h]; exact Matrix.wf_congr (by simp) (by simp) (by simp)
  unfold burstEnds
  split
  · exact h
  · rename_i q _
    rw [matrix_wf_of_kept (kept_grantAll _)]
    split
    · exact hfree
    · rename_i a _
      split
      · rw [matrix_wf_of_kept (kept_wordWritten q a _)]
        exact Matrix.wf_writeMem _ t a q.bytes hfree
      · exact hfree

theorem ringBursts_wf (n : Nat) (s : State) (h : s.matrix.wf = true) : (ringBursts n s).matrix.wf = true := by
  induction n generalizing s with
  | zero => exact h
  | succ n ih =>
    unfold ringBursts
    split
    · rename_i q _
      have hreq : (matrixRequest q s).matrix.wf = true := by rw [matrix_wf_of_kept (kept_matrixRequest q s)]; exact h
      dsimp only
      split
      · split
        · exact ih _ (burstEnds_wf .fram _ hreq)
        · exact hreq
      · exact hreq
    · exact h

theorem tallyCommit_wf (s : State) (h : s.matrix.wf = true) : (tallyCommit s).matrix.wf = true := by
  unfold tallyCommit
  split
  · rw [matrix_wf_of_kept (kept_writeNext _)]; exact ringBursts_wf _ s h
  · exact h

theorem lendReleased_wf (l : LendTarget) (w : List (Nat × Byte)) (s : State) (h : s.matrix.wf = true) :
    (lendReleased l w s).matrix.wf = true := by
  simp only [lendReleased]
  split
  · rw [← Matrix.wf_hostWrites (lendTarget l) w s.matrix h]; exact Matrix.wf_congr (by simp) (by simp) (by simp)
  · rw [matrix_wf_of_kept (kept_grantAll _), ← h]; exact Matrix.wf_congr (by simp) (by simp) (by simp)

/-- In DARK the keeper SRAM, which has no supply, is cleared. -/
theorem goDark_wf (s : State) (h : s.matrix.wf = true) : (goDark s).matrix.wf = true := by
  simp only [Matrix.wf, Bool.and_eq_true] at h ⊢
  exact ⟨h.1, rfl⟩

theorem darkEntered_wf (s : State) (h : s.matrix.wf = true) : (darkEntered s).matrix.wf = true := by
  unfold darkEntered
  split
  · exact goDark_wf s h
  · exact h

/-! ### Every command -/

/-- A command of the test access port or the end of a last-words write leaves the memories of the matrix. -/
theorem exec_matrix_wf {c : Instr} {s u : State} (h : exec c s = .next u) (hs : s.matrix.wf = true) : u.matrix.wf = true := by
  have hat : ∀ k, (atTick k s).matrix.wf = true := fun k => by rw [matrix_wf_of_kept (kept_atTick k s)]; exact hs
  cases c with
  | burstComplete t k => cases h; exact burstEnds_wf t _ (hat k)
  | tallyCommit k => cases h; exact tallyCommit_wf _ (hat k)
  | lendRelease m w k => cases h; rw [matrix_wf_of_kept (kept_writeNext _)]; exact lendReleased_wf m w _ (hat k)
  | darkEntry => cases h; exact darkEntered_wf s hs
  | vkeepCollapses => cases h; exact goDark_wf _ hs
  | lastWordsWriteDone =>
    cases h
    unfold writeDone
    split
    · rw [matrix_wf_of_kept (kept_returnToMain _)]; exact hs
    · exact hs
  | extest | samplePreload | idcode | highz | clamp => cases h; exact hs
  | haltSet k | haltClr k | testLogicReset k => cases h; exact hat k
  | bypass code bits =>
    cases h
    unfold loadBypass
    split <;> exact hs
  | _ => rw [matrix_wf_of_kept (exec_kept rfl h)]; exact hs

/-- Settles O5: the flash is not written, and each write of a burst, a record or a host keeps the form of the other memories. -/
theorem stepKeepsCanonical : Obligations.StepKeepsCanonical := by
  unfold Obligations.StepKeepsCanonical
  intro s u hs h
  rw [canonical_iff] at hs ⊢
  unfold step at h
  split at h
  · cases h; exact hs
  · rename_i c rest _
    exact ⟨by rw [flashNeverWritten c _ u h]; exact hs.1, exec_matrix_wf h hs.2⟩

/-- Settles O7: of the commands that do not store, those of the test access port and of the last-words store change no memory, and
the others keep the memories with the kept parts. -/
theorem onlyStoresChangeMemory : Obligations.OnlyStoresChangeMemory := by
  unfold Obligations.OnlyStoresChangeMemory
  intro c s u hc h
  cases c with
  | burstComplete | tallyCommit | lendRelease | darkEntry | vkeepCollapses => cases hc
  | lastWordsWriteDone =>
    cases h
    unfold writeDone
    split
    · rw [returnToMain_only]; exact .refl _
    · exact .refl _
  | extest | samplePreload | idcode | highz | clamp => cases h; exact .refl s
  | haltSet k | haltClr k | testLogicReset k => cases h; exact .of_kept (u := atTick k s) (kept_atTick k s)
  | bypass code bits =>
    cases h
    unfold loadBypass
    split <;> exact .refl s
  | _ => exact .of_kept (exec_kept rfl h)

/-! ### The test access port and the last-words slots -/

/-- What the commands that store leave alone beside the flash: the queue, the test access port and the last-words slots. -/
def outside (s : State) : List Instr × Tap × List Byte × List Byte := (s.pending, s.tap, s.words.slot0, s.words.slot1)

theorem outside_of_kept {s u : State} (h : kept u = kept s) : outside u = outside s := by
  obtain ⟨hq, _, _, _, _, ht, h0, h1⟩ := kept_parts h
  simp only [outside, hq, ht, h0, h1]

theorem burstEnds_outside (t : Target) (s : State) : outside (burstEnds t s) = outside s := by
  unfold burstEnds
  split
  · rfl
  · rw [outside_of_kept (kept_grantAll _)]
    split
    · rfl
    · split
      · rw [outside_of_kept (kept_wordWritten _ _ _)]; rfl
      · rfl

theorem ringBursts_outside (n : Nat) (s : State) : outside (ringBursts n s) = outside s := by
  induction n generalizing s with
  | zero => rfl
  | succ n ih =>
    unfold ringBursts
    split
    · rename_i q _
      have hreq := outside_of_kept (kept_matrixRequest q s)
      dsimp only
      split
      · split
        · rw [ih, burstEnds_outside, hreq]
        · exact hreq
      · exact hreq
    · rfl

theorem tallyCommit_outside (s : State) : outside (tallyCommit s) = outside s := by
  unfold tallyCommit
  split
  · rw [outside_of_kept (kept_writeNext _), ringBursts_outside]
  · rfl

theorem lendReleased_outside (l : LendTarget) (w : List (Nat × Byte)) (s : State) : outside (lendReleased l w s) = outside s := by
  simp only [lendReleased]
  split
  · rfl
  · rw [outside_of_kept (kept_grantAll _)]; rfl

theorem atTick_outside (k : Tick) (s : State) : outside (atTick k s) = outside s := outside_of_kept (kept_atTick k s)

theorem loadBypass_words (c : BitVec 4) (bits : List Bool) (s : State) : (loadBypass c bits s).words = s.words := by
  unfold loadBypass
  split <;> rfl

/-- The commands that write a memory, but for the loss of the keeper's power, and those that write none, leave the test access port
and the slots. -/
theorem exec_outside {c : Instr} {s u : State} (h : exec c s = .next u)
    (hc : changesKept c = false ∨ (∃ t k, c = .burstComplete t k) ∨ (∃ k, c = .tallyCommit k) ∨ ∃ m w k, c = .lendRelease m w k) :
    outside u = outside s := by
  obtain hc | ⟨t, k, rfl⟩ | ⟨k, rfl⟩ | ⟨m, w, k, rfl⟩ := hc
  · exact outside_of_kept (exec_kept hc h)
  · cases h; rw [burstEnds_outside, atTick_outside]
  · cases h; rw [tallyCommit_outside, atTick_outside]
  · cases h; rw [outside_of_kept (kept_writeNext _), lendReleased_outside, atTick_outside]

theorem writeDone_tap (s : State) : (writeDone s).tap = s.tap := by
  unfold writeDone
  split
  · rw [returnToMain_only]
  · rfl

theorem darkEntered_slots (s : State) :
    (darkEntered s).words.slot0 = s.words.slot0 ∧ (darkEntered s).words.slot1 = s.words.slot1 := by
  unfold darkEntered
  split <;> exact ⟨rfl, rfl⟩

/-- Settles O8: every command but those named leaves both with the kept parts or with what the stores leave; the named ones by the
law of each. -/
theorem haltAndLastWordsHold : Obligations.HaltAndLastWordsHold := by
  unfold Obligations.HaltAndLastWordsHold
  have slots : ∀ {s u : State}, outside u = outside s → u.words.slot0 = s.words.slot0 ∧ u.words.slot1 = s.words.slot1 :=
    fun h => ⟨congrArg (·.2.2.1) h, congrArg (·.2.2.2) h⟩
  constructor
  · intro c s u hc h
    cases c with
    | extest | samplePreload | idcode | highz | clamp | haltSet | haltClr | bypass | testLogicReset | darkEntry | vkeepCollapses =>
      exact hc.elim
    | lastWordsWriteDone => cases h; exact writeDone_tap s
    | burstComplete t k => exact congrArg (·.2.1) (exec_outside h (.inr (.inl ⟨t, k, rfl⟩)))
    | tallyCommit k => exact congrArg (·.2.1) (exec_outside h (.inr (.inr (.inl ⟨k, rfl⟩))))
    | lendRelease m w k => exact congrArg (·.2.1) (exec_outside h (.inr (.inr (.inr ⟨m, w, k, rfl⟩))))
    | _ => exact congrArg (·.2.1) (exec_outside h (.inl rfl))
  · intro c s u hw hv h
    cases c with
    | lastWordsWriteDone => exact absurd rfl hw
    | vkeepCollapses => exact absurd rfl hv
    | darkEntry => cases h; exact darkEntered_slots s
    | extest | samplePreload | idcode | highz | clamp => cases h; exact ⟨rfl, rfl⟩
    | haltSet k | haltClr k | testLogicReset k => cases h; exact slots (u := atTick k s) (atTick_outside k s)
    | bypass code bits => cases h; rw [loadBypass_words]; exact ⟨rfl, rfl⟩
    | burstComplete t k => exact slots (exec_outside h (.inr (.inl ⟨t, k, rfl⟩)))
    | tallyCommit k => exact slots (exec_outside h (.inr (.inr (.inl ⟨k, rfl⟩))))
    | lendRelease m w k => exact slots (exec_outside h (.inr (.inr (.inr ⟨m, w, k, rfl⟩))))
    | _ => exact slots (exec_outside h (.inl rfl))

/-! ### Steps and the state after first power -/

theorem exec_answers (c : Instr) (s : State) : ∃ u, exec c s = .next u := by
  cases c <;> exact ⟨_, rfl⟩

/-- No command puts another into the queue or takes one from it. -/
theorem exec_pending {c : Instr} {s u : State} (h : exec c s = .next u) : u.pending = s.pending := by
  cases c with
  | lastWordsWriteDone =>
    cases h
    unfold writeDone
    split
    · rw [returnToMain_only]
    · rfl
  | darkEntry =>
    cases h
    unfold darkEntered
    split <;> rfl
  | vkeepCollapses | extest | samplePreload | idcode | highz | clamp => cases h; rfl
  | haltSet k | haltClr k | testLogicReset k => cases h; exact congrArg (·.1) (atTick_outside k s)
  | bypass code bits =>
    cases h
    unfold loadBypass
    split <;> rfl
  | burstComplete t k => exact congrArg (·.1) (exec_outside h (.inr (.inl ⟨t, k, rfl⟩)))
  | tallyCommit k => exact congrArg (·.1) (exec_outside h (.inr (.inr (.inl ⟨k, rfl⟩))))
  | lendRelease m w k => exact congrArg (·.1) (exec_outside h (.inr (.inr (.inr ⟨m, w, k, rfl⟩))))
  | _ => exact congrArg (·.1) (exec_outside h (.inl rfl))

/-- Settles O1: the equation of a step for each form of the queue. -/
theorem stepRunsFront : Obligations.StepRunsFront := by
  unfold Obligations.StepRunsFront
  refine ⟨fun c s rest h => ?_, fun s h => ?_⟩
  · simp only [step, h, State.withPending]
  · simp only [step, h]

/-- Settles O2: each arm answers a state, and none touches the queue. -/
theorem commandsComplete : Obligations.CommandsComplete := by
  unfold Obligations.CommandsComplete
  intro c s
  obtain ⟨u, h⟩ := exec_answers c s
  exact ⟨u, h, exec_pending h⟩

/-- Settles O3: the values of the reset state, and every engine and every port like the first. -/
theorem resetStateValues : Obligations.ResetState := by
  unfold Obligations.ResetState
  have hport : ∀ p : Port, State.reset.ports[p] = PortSt.reset := fun p => Vector.getElem_replicate p.isLt
  refine ⟨rfl, rfl, rfl, rfl, rfl, rfl, rfl, rfl, rfl, rfl, rfl, rfl, rfl, fun e => ?_, fun p => ?_⟩
  · exact EngCtl.claim_of_not_powered (by cases e <;> rfl)
  · rw [hport p]; exact ⟨rfl, rfl, rfl, rfl, rfl⟩

/-- Settles O4: the memories are empty. -/
theorem resetCanonical : Obligations.ResetCanonical := by
  unfold Obligations.ResetCanonical
  exact ⟨rfl, rfl, rfl, rfl⟩

end Sys2Proof.Machine
end

section
/-! SUPPORT. What the work of the ticks within a frame changes (R42, R224, R317, R392): timers, engines, links and transmitters that
were to stop. -/

namespace Sys2Proof.Machine

/-! ### Operations done for every element of a list -/

/-- A relation that composes holds across operations done for every element of a list. -/
theorem forEach_rel {α : Type} {R : State → State → Prop} (refl : ∀ s, R s s) (trans : ∀ {s t u}, R s t → R t u → R s u)
    (l : List α) (f : α → State → State) (h : ∀ a t, R t (f a t)) (s : State) : R s (forEach l f s) := by
  unfold forEach
  induction l generalizing s with
  | nil => exact refl s
  | cons a l ih => exact trans (h a s) (ih _)

/-- What each operation leaves alone is left alone when they are done for every element of a list. -/
theorem forEach_same {α β : Type} (g : State → β) (l : List α) (f : α → State → State) (h : ∀ a t, g (f a t) = g t) (s : State) :
    g (forEach l f s) = g s :=
  forEach_rel (R := fun s u => g u = g s) (fun _ => rfl) (fun a b => b.trans a) l f h s

/-! ### Timers -/

/-- Nothing changed but the timers, the alarm's pulse and the mark of a timer event. -/
def TimersOnly (s u : State) : Prop :=
  u = { s with
    timers := u.timers, alarm := { s.alarm with pulseEnd := u.alarm.pulseEnd }
    tally := { s.tally with timerTurn := u.tally.timerTurn } }

theorem TimersOnly.refl (s : State) : TimersOnly s s := rfl

theorem TimersOnly.trans {s t u : State} (a : TimersOnly s t) (b : TimersOnly t u) : TimersOnly s u := by
  unfold TimersOnly at *
  rw [b, a]

theorem TimersOnly.setTimer (s : State) (i : TimerId) (f : Timer → Timer) : TimersOnly s (s.setTimer i f) := rfl

theorem unit_timersOnly (s : State) (i : TimerId) (n : Nat) : TimersOnly s (s.unit i n) := by
  dsimp only [State.unit]
  split
  · exact .setTimer s i _
  · exact .refl s

theorem passEvent_timersOnly (i : TimerId) (n : Nat) (s : State) : TimersOnly s (passEvent i n s) :=
  forEach_rel .refl .trans _ _ (fun j t => by
    split
    · split
      · exact unit_timersOnly t j n
      · split
        · exact .setTimer t j _
        · exact .refl t
    · exact .refl t) s

theorem timerEvents_timersOnly (i : TimerId) (isMatch : Bool) (n : Nat) (s : State) : TimersOnly s (timerEvents i isMatch n s) := by
  unfold timerEvents
  refine TimersOnly.trans ?_ (passEvent_timersOnly i n _)
  split <;> rfl

theorem doMatch_timersOnly (i : TimerId) (s : State) : TimersOnly s (doMatch i s) :=
  (TimersOnly.setTimer s i _).trans (timerEvents_timersOnly i true 1 _)

theorem doOverflow_timersOnly (i : TimerId) (s : State) : TimersOnly s (doOverflow i s) :=
  (TimersOnly.setTimer s i _).trans (timerEvents_timersOnly i false 1 _)

theorem settleMatches_timersOnly (n : Nat) (i : TimerId) (s : State) : TimersOnly s (settleMatches n i s) := by
  induction n generalizing s with
  | zero => exact .refl s
  | succ n ih =>
    unfold settleMatches
    split
    · exact (doMatch_timersOnly i s).trans (ih _)
    · exact .refl s

theorem settleTimer_timersOnly (i : TimerId) (s : State) : TimersOnly s (settleTimer i s) := by
  unfold settleTimer
  refine TimersOnly.trans ?_ (settleMatches_timersOnly _ i _)
  split
  · exact doOverflow_timersOnly i s
  · exact .refl s

theorem settleTimers_timersOnly (s : State) : TimersOnly s (settleTimers s) := by
  unfold settleTimers
  split
  · exact .refl s
  · exact forEach_rel .refl .trans _ _ settleTimer_timersOnly s

theorem tickTimer_timersOnly (s0 : State) (i : TimerId) (s : State) : TimersOnly s (tickTimer s0 i s) := by
  dsimp only [tickTimer]
  split
  · exact .setTimer s i _
  · split
    · split <;> exact .setTimer s i _
    · split
      · exact .setTimer s i _
      · exact .refl s

theorem tickTimers_timersOnly (s : State) : TimersOnly s (tickTimers s) :=
  forEach_rel .refl .trans _ _ (tickTimer_timersOnly s) s

/-! ### The work of a tick -/

/-- A port is as it was, or its transmitter has stopped driving at the bit boundary it waited for. -/
def DriveKept (x y : PortSt) : Prop :=
  y = x ∨ x.line.stopAt.isSome = true ∧ y = { x with line := { x.line with tx := .hiZ, stopAt := none } }

theorem DriveKept.trans {x y z : PortSt} (a : DriveKept x y) (b : DriveKept y z) : DriveKept x z := by
  obtain rfl | ⟨ha, rfl⟩ := a
  · exact b
  · obtain rfl | ⟨hb, _⟩ := b
    · exact .inr ⟨ha, rfl⟩
    · cases hb

/-- What the ticks of a frame leave: all but position, the timers, the data part of the engines and the claim of their latest beat, the
links, and the drive of ports that were to stop. -/
structure Ticked (s u : State) : Prop where
  frame : u = { s with
      pos := u.pos, timers := u.timers, engX := u.engX, engY := u.engY, lda := u.lda, ldb := u.ldb, ports := u.ports
      alarm := { s.alarm with pulseEnd := u.alarm.pulseEnd }, tally := { s.tally with timerTurn := u.tally.timerTurn } }
  engs : ∀ e, (u.eng e).ctl = { (s.eng e).ctl with word := (u.eng e).ctl.word } ∧ (u.eng e).tally = (s.eng e).tally
  dies : ∀ d, u.die d = { s.die d with linkX := (u.die d).linkX, linkY := (u.die d).linkY }
  port : ∀ p : Port, DriveKept s.ports[p] u.ports[p]

theorem Ticked.refl (s : State) : Ticked s s := ⟨rfl, fun _ => ⟨rfl, rfl⟩, fun _ => rfl, fun _ => .inl rfl⟩

theorem Ticked.trans {s t u : State} (a : Ticked s t) (b : Ticked t u) : Ticked s u where
  frame := by rw [b.frame, a.frame]
  engs := fun e => ⟨by rw [(b.engs e).1, (a.engs e).1], (b.engs e).2.trans (a.engs e).2⟩
  dies := fun d => by rw [b.dies d, a.dies d]
  port := fun p => (a.port p).trans (b.port p)

theorem Ticked.of_timers {s u : State} (h : TimersOnly s u) : Ticked s u := by
  obtain ⟨ts, al, tl, rfl⟩ : ∃ ts al tl, u = { s with
      timers := ts, alarm := { s.alarm with pulseEnd := al }, tally := { s.tally with timerTurn := tl } } := ⟨_, _, _, h⟩
  exact ⟨rfl, fun e => by cases e <;> exact ⟨rfl, rfl⟩, fun d => by cases d <;> rfl, fun _ => .inl rfl⟩

theorem Ticked.move (s : State) (p : Pos) : Ticked s { s with pos := p } :=
  ⟨rfl, fun e => by cases e <;> exact ⟨rfl, rfl⟩, fun d => by cases d <;> rfl, fun _ => .inl rfl⟩

/-- An update of a line die that touches its links alone. -/
theorem Ticked.setDie (s : State) (d : LineDie) (f : DieSt → DieSt)
    (hf : ∀ x, f x = { x with linkX := (f x).linkX, linkY := (f x).linkY }) : Ticked s (s.setDie d f) := by
  cases d
  · exact ⟨rfl, fun e => by cases e <;> exact ⟨rfl, rfl⟩, (fun | .lda => hf s.lda | .ldb => rfl), fun _ => .inl rfl⟩
  · exact ⟨rfl, fun e => by cases e <;> exact ⟨rfl, rfl⟩, (fun | .lda => rfl | .ldb => hf s.ldb), fun _ => .inl rfl⟩

theorem setLink_links (e : Eng) (l : LinkId) (f : Link → Link) (x : DieSt) :
    x.setLink e l f = { x with linkX := (x.setLink e l f).linkX, linkY := (x.setLink e l f).linkY } := by
  cases e <;> rfl

theorem Ticked.setData (s : State) (e : Eng) (f : EngData → EngData) : Ticked s (s.setData e f) := by
  cases e
  · exact ⟨rfl, fun e => by cases e <;> exact ⟨rfl, rfl⟩, fun d => by cases d <;> rfl, fun _ => .inl rfl⟩
  · exact ⟨rfl, fun e => by cases e <;> exact ⟨rfl, rfl⟩, fun d => by cases d <;> rfl, fun _ => .inl rfl⟩

theorem Ticked.setWord (s : State) (e : Eng) (w : EngCtl → Nat) : Ticked s (s.setCtl e (fun c => { c with word := w c })) := by
  cases e
  · exact ⟨rfl, fun e => by cases e <;> exact ⟨rfl, rfl⟩, fun d => by cases d <;> rfl, fun _ => .inl rfl⟩
  · exact ⟨rfl, fun e => by cases e <;> exact ⟨rfl, rfl⟩, fun d => by cases d <;> rfl, fun _ => .inl rfl⟩

theorem Ticked.pushDown (d : LineDie) (e : Eng) (l : LinkId) (c : Cell) (s : State) : Ticked s (pushDown d e l c s) :=
  .setDie s d _ (setLink_links e l _)

theorem Ticked.sprayDown (d : LineDie) (e : Eng) (c : Cell) (s : State) : Ticked s (sprayDown d e c s) := by
  unfold Machine.sprayDown
  split
  · exact .refl s
  · exact .pushDown d e _ c s

theorem Ticked.countCopy (e : Eng) (ev : SelEvent) (n : Nat) (c : Cell) (s : State) : Ticked s (countCopy e ev n c s) := by
  unfold Machine.countCopy countCell
  split
  · exact .refl s
  · exact .setData s e _

theorem Ticked.setPorts (s : State) (v : Vector PortSt 32) (h : ∀ p : Port, DriveKept s.ports[p] v[p]) :
    Ticked s { s with ports := v } :=
  ⟨rfl, fun e => by cases e <;> exact ⟨rfl, rfl⟩, fun d => by cases d <;> rfl, h⟩

theorem stopDue_driveKept (now : Nat) (x : PortSt) : DriveKept x { x with line := x.line.stopDue now } := by
  unfold Line.stopDue
  split
  · rename_i n hn
    split
    · exact .inr ⟨by rw [hn]; rfl, rfl⟩
    · exact .inl rfl
  · exact .inl rfl

theorem Ticked.stopDrives (s : State) : Ticked s (stopDrives s) := by
  unfold Machine.stopDrives
  split
  · exact .refl s
  · refine .setPorts s _ (fun p => ?_)
    simpa using stopDue_driveKept s.now s.ports[p]

theorem Ticked.sendBeats (b : Nat) (s : State) : Ticked s (sendBeats b s) := by
  refine forEach_rel .refl .trans _ _ (fun e t => ?_) s
  split
  · refine Ticked.trans (forEach_rel .refl .trans _ _ (fun d u => ?_) t) (.setWord _ e _)
    exact .setDie u d _ (fun x => by rw [setLink_links, setLink_links e 0])
  · exact .refl t

theorem Ticked.beatsDue (s : State) : Ticked s (beatsDue s) := by
  unfold Machine.beatsDue
  split
  · exact .sendBeats _ s
  · exact .refl s

theorem Ticked.linksTick (s : State) : Ticked s (linksTick s) := by
  unfold Machine.linksTick
  split
  · exact .refl s
  · exact (forEach_rel (R := Ticked) .refl .trans _ _ (fun d t => .setDie t d _ (fun _ => rfl)) s).trans
      (forEach_rel (R := Ticked) .refl .trans _ _ (fun e t => .setData t e _) _)

theorem Ticked.linkTicks (n : Nat) (s : State) : Ticked s (linkTicks n s) := by
  induction n generalizing s with
  | zero => exact .refl s
  | succ n ih => exact (Ticked.linksTick s).trans (ih _)

theorem Ticked.sendMoved (e : Eng) (q : QCell) (s : State) : Ticked s (sendMoved e q s) := by
  unfold Machine.sendMoved
  split
  · exact .pushDown _ e _ _ s
  · split
    · exact .refl s
    · split
      · exact .sprayDown _ e _ s
      · exact .setData s e _
  · exact .refl s

theorem Ticked.xbarTick (e : Eng) (s : State) : Ticked s (xbarTick e s) := by
  dsimp only [Machine.xbarTick]
  split
  · exact .refl s
  · refine (Ticked.setData s e _).trans (forEach_rel (R := Ticked) .refl .trans _ _ (fun q t => ?_) _)
    exact (Ticked.countCopy e .switched 1 q.cell t).trans (.sendMoved e q _)

theorem Ticked.tickWork (s : State) : Ticked s (tickWork s) :=
  (Ticked.of_timers (tickTimers_timersOnly s)).trans <| (Ticked.stopDrives _).trans <| (Ticked.beatsDue _).trans <|
    (Ticked.linksTick _).trans <| (Ticked.xbarTick .ex _).trans (.xbarTick .ey _)

/-! ### Moving on within a frame -/

theorem Ticked.ticks (n : Nat) (s : State) : Ticked s (ticks n s) := by
  induction n generalizing s with
  | zero => exact .refl s
  | succ n ih =>
    exact ((Ticked.of_timers (settleTimers_timersOnly s)).trans <| (Ticked.move _ _).trans (.tickWork _)).trans (ih _)

theorem Ticked.skipTo (k : Tick) (s : State) : Ticked s (skipTo k s) := by
  dsimp only [Machine.skipTo]
  split
  · exact (Ticked.move s _).trans <| (Ticked.sendBeats _ _).trans (.linkTicks _ _)
  · exact .move s _

theorem Ticked.atTick (k : Tick) (s : State) : Ticked s (atTick k s) := by
  unfold Machine.atTick
  split
  · split
    · exact .skipTo k s
    · exact .ticks _ s
  · exact .refl s

theorem pos_of_clock {s u : State} (h : clock u = clock s) : u.pos = s.pos := congrArg (·.1) h

theorem ticks_pos (n : Nat) (s : State) : (ticks n s).pos = { s.pos with k := s.pos.k + BitVec.ofNat 11 n } := by
  induction n generalizing s with
  | zero => simp [ticks]
  | succ n ih =>
    rw [ticks, ih, pos_of_clock (clock_tickOnce s)]
    simp only [Pos.mk.injEq, true_and]
    rw [BitVec.add_assoc, Nat.add_comm n 1]
    exact congrArg _ (BitVec.ofNat_add 1 n).symm

theorem atTick_pos (k : Tick) (s : State) :
    (atTick k s).pos = { s.pos with k := if s.time.counting && decide (s.pos.k < k) then k else s.pos.k } := by
  unfold atTick
  by_cases h : (s.time.counting && decide (s.pos.k < k)) = true
  · rw [if_pos h, if_pos h]
    split
    · rw [pos_of_clock (clock_skipTo k s)]
    · simp only [Bool.and_eq_true, decide_eq_true_eq] at h
      rw [ticks_pos, Pos.mk.injEq]
      exact ⟨rfl, rfl, by bv_omega⟩
  · rw [if_neg h, if_neg h]

theorem atTick_of_not_before {k : Tick} {s : State} (h : s.time.counting = false ∨ k ≤ s.pos.k) : atTick k s = s := by
  unfold atTick
  rw [if_neg]
  simp only [Bool.and_eq_true, decide_eq_true_eq, not_and, BitVec.not_lt]
  intro hc
  exact h.resolve_left (by simp [hc])

/-- Settles O9: the work of each tick keeps the frame, which composes over the ticks passed. -/
theorem tickFrame : Obligations.TickFrame := by
  unfold Obligations.TickFrame
  rintro k s _ rfl
  have h := Ticked.atTick k s
  exact ⟨h.frame, atTick_pos k s, h.engs, h.dies, h.port, atTick_of_not_before⟩

end Sys2Proof.Machine
end

section
/-! SUPPORT. LOS and AIS (R171 to R173), the coding events of a line (R165), and the rails (R161, R357, R448, R449). -/

namespace Sys2Proof.Machine

/-- Commands that come to the same state answer the same. -/
theorem next_of_eq {s u : State} (h : s = u) : (.next s : Host.Outcome State Fault Refusal) = .next u := congrArg _ h

/-! ### A port after an event -/

/-- What an event of port `p` with code `c`, told to its line loop, leaves of the port. -/
theorem eventFollowed_port (p : Port) (c : Nat) (s : State) :
    (followLoop p (captureEvent p c s)).ports[p] = { s.ports[p] with capture := (captureEvent p c s).ports[p].capture } := by
  rw [followLoop_port, captureEvent_port]

theorem eventFollowed_only (p : Port) (c : Nat) (s : State) : OnlyEvent p s (followLoop p (captureEvent p c s)) :=
  (captureEvent_only p c s).trans (followLoop_only p _)

/-- An event that goes with a change `f` of its port, which leaves the capture unit and the receiver running. -/
theorem eventAfter_port (p : Port) (c : Nat) (s : State) (f : PortSt → PortSt) :
    (followLoop p (captureEvent p c (s.setPort p f))).ports[p] =
      { f s.ports[p] with capture := (captureEvent p c (s.setPort p f)).ports[p].capture } := by
  rw [eventFollowed_port, State.setPort_port]

theorem eventAfter_capture (p : Port) (c : Nat) (s : State) (f : PortSt → PortSt) (hrun : (f s.ports[p]).line.running = true)
    (hcap : (f s.ports[p]).capture = s.ports[p].capture) (hk : s.pos.k ≠ 0) (hl : s.ptime.listening = false) :
    (followLoop p (captureEvent p c (s.setPort p f))).ports[p].capture = s.ports[p].capture.record s.stamp s.qual c := by
  rw [followLoop_port, captureEvent_capture p c (s.setPort p f) (by rw [State.setPort_port]; exact hrun) hl hk, State.setPort_port, hcap]
  rfl

theorem eventAfter_only (p : Port) (c : Nat) (s : State) (f : PortSt → PortSt) :
    OnlyEvent p s (followLoop p (captureEvent p c (s.setPort p f))) :=
  (OnlyEvent.setPort p s f).trans (eventFollowed_only p c _)

/-! ### LOS and AIS -/

/-- A port that has just lost its signal (R171, R202). -/
def PortSt.losing (x : PortSt) : PortSt :=
  { x with line := { x.line with los := true }, raw := { x.raw with los := true }, slip := x.slip.suspend }

theorem clearAis_of_not_ais {p : Port} {s : State} (h : s.ports[p].line.ais = false) : clearAis p s = s := by
  unfold clearAis
  rw [if_neg (by rw [h]; exact Bool.false_ne_true)]

theorem declareLos_eq {p : Port} {s : State} (hrun : s.ports[p].line.running = true) (hlos : s.ports[p].line.los = false) :
    declareLos p s = followLoop p (captureEvent p 1 ((clearAis p s).setPort p PortSt.losing)) := by
  dsimp only [declareLos]
  rw [if_pos (by simp only [hrun, hlos, Bool.not_false, Bool.and_self])]
  rfl

theorem declareLos_port {p : Port} {s : State} (hrun : s.ports[p].line.running = true) (hlos : s.ports[p].line.los = false) :
    (declareLos p s).ports[p] = { s.ports[p] with
      line := { s.ports[p].line with los := true, ais := false }, raw := { s.ports[p].raw with los := true }
      slip := s.ports[p].slip.suspend, capture := (declareLos p s).ports[p].capture } := by
  rw [declareLos_eq hrun hlos, eventAfter_port, clearAis_port]
  rfl

theorem declareLos_only (p : Port) (s : State) : OnlyEvent p s (declareLos p s) := by
  dsimp only [declareLos]
  split
  · exact (clearAis_only p s).trans (eventAfter_only p 1 _ _)
  · exact .refl p s

theorem declareLos_capture {p : Port} {s : State} (hrun : s.ports[p].line.running = true) (hlos : s.ports[p].line.los = false)
    (hais : s.ports[p].line.ais = false) (hk : s.pos.k ≠ 0) (hl : s.ptime.listening = false) :
    (declareLos p s).ports[p].capture = s.ports[p].capture.record s.stamp s.qual 1 := by
  rw [declareLos_eq hrun hlos, clearAis_of_not_ais hais]
  exact eventAfter_capture p 1 s _ hrun rfl hk hl

theorem clearLos_eq {p : Port} {s : State} (hrun : s.ports[p].line.running = true) (hlos : s.ports[p].line.los = true)
    (hv : s.keeper.vlineOk = true) :
    clearLos p s = followLoop p (captureEvent p 2
      (s.setPort p (fun x => { x with line := { x.line with los := false, win := .reset } }))) := by
  dsimp only [clearLos]
  rw [if_pos (by simp only [hrun, hlos, hv, Bool.and_self])]
  rfl

theorem declareAis_eq {p : Port} {s : State} (hrun : s.ports[p].line.running = true) (hlos : s.ports[p].line.los = false)
    (hais : s.ports[p].line.ais = false) :
    declareAis p s = followLoop p (captureEvent p 5 (s.setPort p (fun x => { x with
      line := { x.line with ais := true }, raw := { x.raw with ais := true }, slip := { x.slip with badNow := true } }))) := by
  dsimp only [declareAis]
  rw [if_pos (by simp only [hrun, hlos, hais, Bool.not_false, Bool.and_self])]

theorem declareAis_of_los {p : Port} {s : State} (hlos : s.ports[p].line.los = true) : declareAis p s = s := by
  dsimp only [declareAis]
  rw [if_neg (by simp only [hlos, Bool.not_true, Bool.and_false, Bool.false_and, Bool.false_eq_true, not_false_eq_true])]

theorem clearAis_eq {p : Port} {s : State} (hais : s.ports[p].line.ais = true) :
    clearAis p s = followLoop p (captureEvent p 6 (s.setPort p (fun x => { x with line := { x.line with ais := false } }))) := by
  unfold clearAis
  rw [if_pos hais]
  rfl

/-- Settles O10: each declaration and clearance is a change of its port with the event of its code, and is withheld where the line does
not show it. -/
theorem lineConditions : Obligations.LineConditions := by
  unfold Obligations.LineConditions
  refine ⟨?_, ?_⟩
  · rintro p w k s t rfl
    refine ⟨fun hrun hlos hm => ⟨_, next_of_eq (if_pos hm), ?_⟩, fun hrun hlos ho hv => ⟨_, next_of_eq (if_pos ho), ?_⟩,
      fun hm => next_of_eq (if_neg (by rw [hm]; exact Bool.false_ne_true)),
      fun ho => next_of_eq (if_neg (by rw [ho]; exact Bool.false_ne_true))⟩
    · have hp := declareLos_port hrun hlos
      refine ⟨(congrArg PortSt.line hp).trans rfl, (congrArg PortSt.raw hp).trans rfl, ?_, ?_, ?_,
        (congrArg PortSt.framer hp).trans rfl, (congrArg PortSt.hinge hp).trans rfl,
        (congrArg PortSt.tx hp).trans rfl, fun hk hais hl => declareLos_capture hrun hlos hais hk hl, declareLos_only p _⟩
      all_goals rw [hp]; rfl
    · rw [clearLos_eq hrun hlos hv]
      have hp := fun f => eventAfter_port p 2 (atTick k s) f
      exact ⟨(congrArg PortSt.line (hp _)).trans rfl, (congrArg PortSt.raw (hp _)).trans rfl, (congrArg PortSt.framer (hp _)).trans rfl,
        fun hk hl => eventAfter_capture p 2 _ _ hrun rfl hk hl, eventAfter_only p 2 _ _⟩
  · rintro p bits k s t rfl
    refine ⟨fun hrun hlos hais hm => ⟨_, next_of_eq (if_pos hm), ?_⟩, fun hrun hais ho => ⟨_, next_of_eq (if_pos ho), ?_⟩,
      fun hm => next_of_eq ?_, fun ho => next_of_eq (if_neg (by rw [ho]; exact Bool.false_ne_true))⟩
    · rw [declareAis_eq hrun hlos hais]
      have hp := fun f => eventAfter_port p 5 (atTick k s) f
      exact ⟨(congrArg PortSt.line (hp _)).trans rfl, (congrArg PortSt.raw (hp _)).trans rfl, (congrArg PortSt.framer (hp _)).trans rfl,
        fun hk hl => eventAfter_capture p 5 _ _ hrun rfl hk hl, eventAfter_only p 5 _ _⟩
    · rw [clearAis_eq hais]
      have hp := fun f => eventAfter_port p 6 (atTick k s) f
      exact ⟨(congrArg PortSt.line (hp _)).trans rfl, (congrArg PortSt.raw (hp _)).trans rfl, (congrArg PortSt.framer (hp _)).trans rfl,
        fun hk hl => eventAfter_capture p 6 _ _ hrun rfl hk hl, eventAfter_only p 6 _ _⟩
    · unfold aisDeclared
      split
      · rename_i hmet
        exact declareAis_of_los (hm.resolve_right (by rw [hmet]; exact Bool.noConfusion))
      · rfl

/-! ### Coding events and the transmit current limit -/

theorem Raw.note_pend (r : Raw) (i n : Fin 19) (k : Nat) : (r.note i k).pend[n] = r.pend[n] + if n = i then k else 0 := by
  unfold Raw.note
  by_cases h : n = i
  · rw [h, if_pos rfl]; exact updV_at _ _ _
  · rw [if_neg h]; exact updV_get_ne _ _ h

theorem codingEvent_eq {p : Port} {s : State} (i : Fin 19) (hrun : s.ports[p].line.running = true)
    (hlos : s.ports[p].line.los = false) : codingEvent p i s = s.setPort p (fun x => { x with raw := x.raw.note i 1 }) := by
  dsimp only [codingEvent]
  rw [if_pos (by simp only [hrun, hlos, Bool.not_false, Bool.and_self])]
  rfl

theorem codingEvent_of_los {p : Port} {s : State} (i : Fin 19) (hlos : s.ports[p].line.los = true) : codingEvent p i s = s := by
  dsimp only [codingEvent]
  rw [if_neg (by simp only [hlos, Bool.not_true, Bool.and_false, Bool.false_eq_true, not_false_eq_true])]

/-- What a coding event of counter `i` counts and leaves. -/
theorem codingEvent_counts {p : Port} {s : State} (i : Fin 19) (hrun : s.ports[p].line.running = true)
    (hlos : s.ports[p].line.los = false) :
    (∀ n : Fin 19, (codingEvent p i s).ports[p].raw.pend[n] = s.ports[p].raw.pend[n] + if n = i then 1 else 0) ∧
      (codingEvent p i s).ports[p] = { s.ports[p] with raw := { s.ports[p].raw with pend := (codingEvent p i s).ports[p].raw.pend } } ∧
      OnlyPort p s (codingEvent p i s) := by
  rw [codingEvent_eq i hrun hlos, State.setPort_port]
  exact ⟨fun n => Raw.note_pend _ i n 1, rfl, .setPort p s _⟩

/-- Settles O11: what the decoder reports is a coding event, which counts while LOS is not declared. -/
theorem lineEventsCount : Obligations.LineEventsCount := by
  unfold Obligations.LineEventsCount
  rintro p w i k s t rfl
  refine ⟨fun hrun hlos hv => ⟨_, next_of_eq (if_pos hv), codingEvent_counts 7 hrun hlos⟩,
    fun hrun hlos hz => ⟨_, next_of_eq (if_pos hz), codingEvent_counts 8 hrun hlos⟩, fun h => next_of_eq ?_, fun h => next_of_eq ?_,
    fun h => ⟨_, next_of_eq (if_neg h), State.setPort_port _ p _, .setPort p _ _⟩, fun h => next_of_eq (if_pos h)⟩
  · unfold violates
    split
    · rename_i hv
      exact codingEvent_of_los 7 (h.resolve_right (by rw [hv]; exact Bool.noConfusion))
    · rfl
  · unfold exceedsZeros
    split
    · rename_i hz
      exact codingEvent_of_los 8 (h.resolve_right (by rw [hz]; exact Bool.noConfusion))
    · rfl

end Sys2Proof.Machine
end

section
/-! SUPPORT. The steps of an insertion, a release and a takeover (R348 to R357). -/

namespace Sys2Proof.Machine

/-! ### Changes of one port -/

theorem updV_updV {α : Type} {n : Nat} (v : Vector α n) (i : Fin n) (f g : α → α) : updV (updV v i f) i g = updV v i (fun a => g (f a)) := by
  simp [updV]

/-- Two changes of a port are one. -/
theorem State.setPort_setPort (s : State) (p : Port) (f g : PortSt → PortSt) :
    (s.setPort p f).setPort p g = s.setPort p (fun x => g (f x)) := by
  simp only [State.setPort, updV_updV]

/-- A state that is `s` with port `p` changed by `f`: the port, and the frame. -/
theorem setPort_spec {s u : State} {p : Port} {f : PortSt → PortSt} (h : u = s.setPort p f) : u.ports[p] = f s.ports[p] ∧ OnlyPort p s u := by
  rw [h]
  exact ⟨State.setPort_port s p f, .setPort p s f⟩

/-! ### Insertion (R350) -/

/-- A port whose insertion is abandoned goes back to idle. -/
def PortSt.abandoned (now : Nat) (x : PortSt) : PortSt :=
  { x with hinge := { x.hinge with seq := .idle, abandoned := false }, line := x.line.stopDriving now }

theorem abandonInsertion_eq (p : Port) (s : State) : abandonInsertion p s = s.setPort p (PortSt.abandoned s.now) :=
  State.setPort_setPort s p _ _

theorem Hinge.stepTick_zero (h : Hinge) : h.stepTick 0 = (h.start + 1) * 65536 := by simp [Hinge.stepTick]

theorem Hinge.stepTick_one (h : Hinge) : h.stepTick 1 = (h.start + 1) * 65536 + 2048 := by simp [Hinge.stepTick]

theorem doFollowDriveStart_eq {p : Port} {s : State} (hseq : s.ports[p].hinge.seq = .building)
    (hbit : nextBit s.ports[p].line.family ((s.ports[p].hinge.start + 1) * 65536) s.now = true) :
    doFollowDriveStart p s =
      if s.ports[p].hinge.abandoned then s.setPort p (PortSt.abandoned s.now)
      else s.setPort p (fun x => { x with
        hinge := { x.hinge with seq := .following }, line := { x.line with tx := .follow, bitAt := s.now } }) := by
  rw [← abandonInsertion_eq]
  refine (if_pos ⟨hseq, by rw [Hinge.stepTick_zero]; exact hbit⟩).trans ?_
  split
  · rfl
  · exact State.setPort_setPort s p _ _

theorem doHingeEnergise_eq {p : Port} {s : State} (hseq : s.ports[p].hinge.seq = .following)
    (hnow : s.now = (s.ports[p].hinge.start + 1) * 65536 + 2048) :
    doHingeEnergise p s =
      if s.ports[p].hinge.abandoned then s.setPort p (PortSt.abandoned s.now)
      else s.setPort p (fun x => { x with hinge := { x.hinge with seq := .energised, driven := true, lowBefore := false } }) := by
  rw [← abandonInsertion_eq]
  exact if_pos ⟨hseq, by rw [Hinge.stepTick_one]; exact hnow⟩

theorem doTerminationOn_eq {p : Port} {s : State} (hseq : s.ports[p].hinge.seq = .energised)
    (hnow : s.now = (s.ports[p].hinge.start + 1) * 65536 + 25 * 2048) :
    doTerminationOn p s = s.setPort p (fun x => { x with
      hinge := { x.hinge with seq := .terminated }, line := { x.line with terminated := true } }) :=
  (if_pos ⟨hseq, hnow⟩).trans (State.setPort_setPort s p _ _)

/-- A step whose sequence is not there, or whose tick it is not, is not due. -/
theorem not_due {a b : Prop} {c : Bool} (h : ¬a ∨ c = false) (hb : b → c = true) : ¬(a ∧ b) := by
  rintro ⟨ha, hb'⟩
  rcases h with h | h
  · exact h ha
  · rw [hb hb'] at h; exact Bool.noConfusion h

/-- Settles O18: each step is one change of its port, or the abandoned insertion's. -/
theorem insertionSteps : Obligations.InsertionSteps := by
  unfold Obligations.InsertionSteps
  rintro p k s t rfl
  refine ⟨fun hseq hbit => ?_, fun hseq hnow => ?_, fun hseq hnow => ⟨_, rfl, setPort_spec (doTerminationOn_eq hseq hnow)⟩,
    fun h => next_of_eq (if_neg (not_due h (by rw [Hinge.stepTick_zero]; exact id))),
    fun h => next_of_eq (if_neg (by rw [Hinge.stepTick_one]; exact not_and_of_not_or_not h)),
    fun h => next_of_eq (if_neg (not_and_of_not_or_not h))⟩
  · have he := doFollowDriveStart_eq hseq hbit
    exact ⟨fun ha => ⟨_, rfl, setPort_spec (he.trans (if_neg (by rw [ha]; exact Bool.noConfusion)))⟩,
      fun ha => ⟨_, rfl, setPort_spec (he.trans (if_pos ha))⟩⟩
  · have he := doHingeEnergise_eq hseq hnow
    exact ⟨fun ha => ⟨_, rfl, setPort_spec (he.trans (if_neg (by rw [ha]; exact Bool.noConfusion)))⟩,
      fun ha => ⟨_, rfl, setPort_spec (he.trans (if_pos ha))⟩⟩

/-! ### Release (R354, R355) -/

/-- The channel follows its ports from a state that differs in its ports alone. -/
theorem followChannel_of_ports {s m : State} (hm : m = { s with ports := m.ports }) :
    ChannelCut s (followChannel s m) ∧
      followChannel s m = { s with
        ports := m.ports, lda := (followChannel s m).lda, ldb := (followChannel s m).ldb, partner := (followChannel s m).partner } := by
  obtain ⟨v, rfl⟩ : ∃ v, m = { s with ports := v } := ⟨_, hm⟩
  obtain ⟨⟨hdie, hpartner⟩, heq⟩ := followChannel_only s { s with ports := v }
  exact ⟨⟨(fun | .lda => hdie .lda | .ldb => hdie .ldb), hpartner⟩, heq⟩

theorem returnToMain_of_not_riding {s : State} (h : s.riding = false) : returnToMain s = s := by
  unfold returnToMain
  rw [if_neg (by simp [h])]

theorem returnToMain_ports (s : State) : (returnToMain s).ports = s.ports := by
  rw [returnToMain_only]

/-- A port whose release has begun at tick `now`, its boundary (R355). -/
def PortSt.releasing (now : Nat) (x : PortSt) : PortSt :=
  { x with
    hinge := { x.hinge with seq := .released, driven := false, lowBefore := false, boundary := now }
    line := { x.line with tx := .follow }, tx := { TxSt.silent with follow := x.tx.follow } }

theorem doReleaseBegin_eq {p : Port} {s : State} (hseq : s.ports[p].hinge.seq = .awaitB) (hdue : releaseDue s p = true) :
    doReleaseBegin p s = followChannel s (s.setPort p (PortSt.releasing s.now)) :=
  (if_pos ⟨hseq, hdue⟩).trans (congrArg (followChannel s) (State.setPort_setPort s p _ _))

theorem doTerminationOff_eq {p : Port} {s : State} (hseq : s.ports[p].hinge.seq = .released)
    (hnow : s.now = s.ports[p].hinge.boundary + 9 * 2048) :
    doTerminationOff p s = s.setPort p (fun x => { x with
      hinge := { x.hinge with seq := .unterminated }, line := { x.line with terminated := false } }) :=
  (if_pos ⟨hseq, hnow⟩).trans (State.setPort_setPort s p _ _)

/-- Settles O19: the beginning cuts the channel off where its port carried it, and the end may bring the keeper back. -/
theorem releaseSteps : Obligations.ReleaseSteps := by
  unfold Obligations.ReleaseSteps
  rintro p k s t rfl
  refine ⟨fun hseq hdue => ⟨_, rfl, ?_⟩, fun hseq hnow => ⟨_, rfl, setPort_spec (doTerminationOff_eq hseq hnow)⟩,
    fun hseq hbit => ⟨_, rfl, ?_⟩, fun h => next_of_eq (if_neg (not_due h id)), fun h => next_of_eq (if_neg (not_and_of_not_or_not h)),
    fun h hr => next_of_eq ?_⟩
  · rw [doReleaseBegin_eq hseq hdue]
    have hports := followChannel_ports (atTick k s) ((atTick k s).setPort p (PortSt.releasing (atTick k s).now))
    obtain ⟨hcut, heq⟩ := followChannel_of_ports (s := atTick k s) (m := (atTick k s).setPort p (PortSt.releasing (atTick k s).now)) rfl
    rw [hports]
    exact ⟨State.setPort_port _ p _, fun q hq => State.setPort_get_ne _ _ hq, hcut, heq⟩
  · have he : doReleaseComplete p (atTick k s) = _ := if_pos ⟨hseq, hbit⟩
    rw [returnToMain_ports, he]
    exact ⟨State.setPort_port _ p _, fun q hq => State.setPort_get_ne _ _ hq,
      fun hr => (congrArg State.keeper (returnToMain_of_not_riding (s := State.setPort _ p _) hr)).trans rfl, returnToMain_only _⟩
  · have he : doReleaseComplete p (atTick k s) = atTick k s := if_neg (not_due h id)
    rw [he, returnToMain_of_not_riding hr]

/-! ### Takeover (R350, R351) -/

/-- Nothing changed but what port `q` sends. -/
def SendOnly (q : Port) (s u : State) : Prop :=
  u = { s with ports := u.ports } ∧ (∀ r, r ≠ q → u.ports[r] = s.ports[r]) ∧ u.ports[q] = { s.ports[q] with tx := u.ports[q].tx }

theorem SendOnly.refl (q : Port) (s : State) : SendOnly q s s := ⟨rfl, fun _ _ => rfl, rfl⟩

theorem SendOnly.trans {q : Port} {s t u : State} (a : SendOnly q s t) (b : SendOnly q t u) : SendOnly q s u := by
  obtain ⟨a1, a2, a3⟩ := a
  obtain ⟨b1, b2, b3⟩ := b
  exact ⟨by rw [b1, a1], fun r hr => (b2 r hr).trans (a2 r hr), by rw [b3, a3]⟩

theorem SendOnly.setPort (q : Port) (s : State) (f : PortSt → TxSt) : SendOnly q s (s.setPort q (fun x => { x with tx := f x })) :=
  ⟨rfl, fun _ hr => State.setPort_get_ne s _ hr, by rw [State.setPort_port]⟩

/-- Every port, the one that sends among them, is as it was but for what it sends. -/
theorem SendOnly.port {q : Port} {s u : State} (h : SendOnly q s u) (r : Port) : u.ports[r] = { s.ports[r] with tx := u.ports[r].tx } := by
  by_cases hr : r = q
  · rw [hr]; exact h.2.2
  · rw [h.2.1 r hr]

theorem loopBack_sendOnly (p : Port) (s : State) : SendOnly (partnerPort p) s (loopBack p s) := by
  unfold loopBack
  split
  · split
    · exact .setPort _ s _
    · exact .refl _ s
  · exact .refl _ s

theorem followLoop_sendOnly (p : Port) (s : State) : SendOnly (partnerPort p) s (followLoop p s) := by
  unfold followLoop
  split
  · exact .setPort _ s _
  · exact .refl _ s

theorem partnerPort_partnerPort (p : Port) : partnerPort (partnerPort p) = p := by revert p; decide

/-- A port as it takes role `r` over: a grid-timed one goes on with what it has built, another has sent nothing yet. -/
def PortSt.takeOver (now : Nat) (r : Role) (x : PortSt) : PortSt :=
  { x with
    hinge := { x.hinge with seq := .idle, role := r }
    line := { x.line with tx := .drive }
    latch := { x.latch with held := 0, ais := false }
    tx := if r = .grid then { x.tx with follow := [] } else { TxSt.silent with start := now } }

section
variable {p : Port} {s : State} (hseq : s.ports[p].hinge.seq = .terminated) (hdue : takeoverDue s p = true)
include hseq hdue

/-- A role with no timing line is taken over as it stands. -/
theorem doTakeover_of_unlined (h : ∀ i, s.ports[p].hinge.target ≠ .lineTimed i) :
    doTakeover p s = s.setPort p (PortSt.takeOver s.now s.ports[p].hinge.target) := by
  refine (if_pos ⟨hseq, hdue⟩).trans ?_
  split
  · rename_i i hi
    exact absurd hi (h i)
  all_goals rfl

/-- A line loop sends what its partner's line has brought. -/
theorem doTakeover_of_loop {i : Port} (hi : s.ports[p].hinge.target = .lineTimed i) (hc : s.ports[p].hinge.content = .lineLoop) :
    doTakeover p s = followLoop i (loopBack i (s.setPort p (PortSt.takeOver s.now (.lineTimed i)))) := by
  refine (if_pos ⟨hseq, hdue⟩).trans ?_
  simp only [hi]
  rw [if_pos hc]
  rfl

/-- A port that passes a line has the frame of a multiframe ago to send next. -/
theorem doTakeover_of_passing {i : Port} (hi : s.ports[p].hinge.target = .lineTimed i) (hc : s.ports[p].hinge.content ≠ .lineLoop) :
    ∃ f : PortSt → TxSt, doTakeover p s = s.setPort p (fun x => { x.takeOver s.now (.lineTimed i) with
      slip := { x.slip with nextOut := some (firstPassed s p i), lastQ := none }, tx := f x }) := by
  have h : doTakeover p s = _ := if_pos ⟨hseq, hdue⟩
  simp only [hi] at h
  rw [if_neg hc] at h
  split at h
  · exact ⟨_, h.trans ((congrArg (State.setPort · p _) (State.setPort_setPort s p _ _)).trans (State.setPort_setPort s p _ _))⟩
  · exact ⟨_, h.trans (State.setPort_setPort s p _ _)⟩

end

/-- Settles O20: by the role that the port takes; a line loop changes beside it what its source's partner sends. -/
theorem takeoverDrives : Obligations.TakeoverDrives := by
  unfold Obligations.TakeoverDrives
  rintro p k s t rfl
  refine ⟨fun hseq hdue => ⟨_, rfl, ?_⟩, fun h => next_of_eq (if_neg (not_due h id))⟩
  generalize atTick k s = t at *
  have unlined : ∀ {r}, t.ports[p].hinge.target = r → (∀ i, r ≠ .lineTimed i) →
      doTakeover p t = t.setPort p (PortSt.takeOver t.now r) := by
    rintro _ rfl h
    exact doTakeover_of_unlined hseq hdue h
  cases hr : t.ports[p].hinge.target with
  | bypassed =>
    obtain ⟨hp, hrest, hother⟩ := setPort_spec (unlined hr (by simp))
    rw [hp]
    exact ⟨rfl, rfl, rfl, rfl, rfl, rfl, nofun, nofun, fun _ => hother, hrest⟩
  | grid =>
    obtain ⟨hp, hrest, hother⟩ := setPort_spec (unlined hr (by simp))
    rw [hp]
    exact ⟨rfl, rfl, rfl, rfl, rfl, rfl, fun _ => rfl, nofun, fun _ => hother, hrest⟩
  | lineTimed i =>
    by_cases hc : t.ports[p].hinge.content = .lineLoop
    · rw [doTakeover_of_loop hseq hdue hr hc]
      have hsend := (loopBack_sendOnly i (t.setPort p (PortSt.takeOver t.now (.lineTimed i)))).trans (followLoop_sendOnly i _)
      have hp := hsend.port p
      rw [State.setPort_port] at hp
      refine ⟨(congrArg PortSt.hinge hp).trans rfl, (congrArg PortSt.line hp).trans rfl, ?_, ?_, (congrArg PortSt.raw hp).trans rfl,
        (congrArg PortSt.capture hp).trans rfl, nofun, fun _ _ h => absurd hc h, fun h q hq => ?_, ?_⟩
      · rw [hp]; rfl
      · rw [hp]; rfl
      · have hi : partnerPort i = p := by rw [h i rfl hc]; exact partnerPort_partnerPort p
        rw [hsend.2.1 q (hi ▸ hq)]
        exact State.setPort_get_ne _ _ hq
      · exact hsend.1
    · obtain ⟨f, he⟩ := doTakeover_of_passing hseq hdue hr hc
      obtain ⟨hp, hrest, hother⟩ := setPort_spec he
      rw [hp]
      refine ⟨rfl, rfl, rfl, rfl, rfl, rfl, nofun, fun j hj _ => ?_, fun _ => hother, hrest⟩
      cases hj
      rfl

end Sys2Proof.Machine
end

section
/-! SUPPORT. The loss of a die (R336, R357), and rails out of range and back (R161, R448, R449). -/

namespace Sys2Proof.Machine

/-! ### Line dies -/

/-- A line die that KP has just lost. -/
def DieSt.losing (x : DieSt) : DieSt := { x with lost := true, hbRun := 0, found := false }

/-- Cutting off the frame in transmission leaves the power of the dies, and what is known of it, as it was. -/
theorem ChannelCut.status {s u : State} (h : ChannelCut s u) (d : LineDie) :
    (u.die d).powered = (s.die d).powered ∧ (u.die d).lost = (s.die d).lost := by
  rcases h.1 d with h | h <;> (rw [h]; exact ⟨rfl, rfl⟩)

/-- A cut is the same for states that agree with its ends in line dies and partner. -/
theorem ChannelCut.congr {s s' u u' : State} (h : ChannelCut s u) (hs : ∀ d, s'.die d = s.die d) (hu : ∀ d, u'.die d = u.die d)
    (hps : s'.partner = s.partner) (hpu : u'.partner = u.partner) : ChannelCut s' u' :=
  ⟨fun d => by rw [hs, hu]; exact h.1 d, by rw [hps, hpu]; exact h.2⟩

theorem State.mapPorts_only (s : State) (f : Port → PortSt → PortSt) : s.mapPorts f = { s with ports := (s.mapPorts f).ports } := by
  simp only [State.mapPorts]

theorem stopReceiver_dropPort_released (x : PortSt) :
    (stopReceiver (dropPort x)).released ∧ (stopReceiver (dropPort x)).line.running = false :=
  ⟨⟨rfl, rfl, rfl, rfl, rfl⟩, rfl⟩

/-- A line die lost: its ports are released with their receivers stopped, and the others are as they were. -/
theorem loseLineDie_spec {d : LineDie} {s : State} (hp : (s.die d).powered = true) (hl : (s.die d).lost = false) :
    (∀ p : Port, (loseLineDie d s).ports[p] = if dieOf p = d then stopReceiver (dropPort s.ports[p]) else s.ports[p]) ∧
      ChannelCut (s.setDie d DieSt.losing) (loseLineDie d s) ∧ (loseLineDie d s).alarm = s.alarm.raise s.now .dieLost ∧
      loseLineDie d s = { s with
        lda := (loseLineDie d s).lda, ldb := (loseLineDie d s).ldb, ports := (loseLineDie d s).ports
        alarm := (loseLineDie d s).alarm, partner := (loseLineDie d s).partner } := by
  have he : loseLineDie d s = (((releaseAtOnce (fun p => dieOf p == d) (s.setDie d DieSt.losing)).mapPorts
      (fun p x => if dieOf p == d then stopReceiver x else x)).raise .dieLost) := if_pos (by simp only [hp, hl, Bool.not_false, Bool.and_self])
  have hport := releaseAtOnce_port (fun p => dieOf p == d) (s.setDie d DieSt.losing)
  obtain ⟨hcut, hrest⟩ := releaseAtOnce_only (fun p => dieOf p == d) (s.setDie d DieSt.losing)
  have hmap := State.mapPorts_only (releaseAtOnce (fun p => dieOf p == d) (s.setDie d DieSt.losing))
    (fun p x => if dieOf p == d then stopReceiver x else x)
  have hget := State.mapPorts_get (releaseAtOnce (fun p => dieOf p == d) (s.setDie d DieSt.losing))
    (fun p x => if dieOf p == d then stopReceiver x else x)
  rw [he]
  generalize State.mapPorts _ _ = w at hmap hget
  generalize releaseAtOnce _ _ = v at hport hcut hrest hmap hget
  obtain ⟨wp, rfl⟩ : ∃ wp, w = { v with ports := wp } := ⟨_, hmap⟩
  obtain ⟨vp, la, lb, pa, rfl⟩ : ∃ vp la lb pa, v = { s.setDie d DieSt.losing with
    ports := vp, lda := la, ldb := lb, partner := pa } := ⟨_, _, _, _, hrest⟩
  refine ⟨fun p => ?_, hcut.congr (fun _ => rfl) (fun d => by cases d <;> rfl) rfl rfl, ?_, ?_⟩
  · refine (hget p).trans ?_
    have h := hport p
    simp only [State.setDie_ports] at h
    simp only [Fin.getElem_fin] at h ⊢
    rw [h]
    by_cases hd : dieOf p = d <;> simp [hd]
  · cases d <;> rfl
  · cases d <;> rfl

/-- A line die without power, or lost already, is not lost again. -/
theorem loseLineDie_of_gone {d : LineDie} {s : State} (h : (s.die d).powered = false ∨ (s.die d).lost = true) : loseLineDie d s = s :=
  if_neg (by rcases h with h | h <;> simp [h])

/-! ### Engines -/

theorem noteFall_eq (e : Eng) (c : Cause) (s : State) :
    noteFall e c s = { s with duplex := { s.duplex with fell := if s.holds e then c.code else s.duplex.fell } } := by
  unfold noteFall
  split <;> rfl

/-- An engine that loses its power, or what remains of it. -/
def EngSt.unpowered (x : EngSt) : EngSt :=
  { ctl := x.ctl.powerOff, tally := { x.tally with minHealth := 0 }, data := x.data.lost }

theorem unpower_eq (e : Eng) (s : State) :
    unpower e s = { s.setEng e EngSt.unpowered with duplex := { s.duplex with
      incumbency := if s.activeEng = some e then .nobody else s.duplex.incumbency
      rallies := s.duplex.rallies.filter (fun r => r.eng != e) } } := by
  have h : ∀ u : State, u.duplex = s.duplex → u.activeEng = s.activeEng := fun u hu => by unfold State.activeEng; rw [hu]
  unfold unpower
  dsimp only
  by_cases ha : s.activeEng = some e
  · rw [if_pos ha, if_pos ((h _ (by cases e <;> rfl)).trans ha)]
    cases e <;> rfl
  · rw [if_neg ha, if_neg (fun hb => ha ((h _ (by cases e <;> rfl)).symm.trans hb))]
    cases e <;> rfl

/-- An engine that KP has just lost: what it held of its patterns may stay for the one that takes over. -/
def EngSt.losing (data : EngData) (x : EngSt) : EngSt :=
  { ctl := { x.ctl.powerOff with lost := true, cause := Cause.lost.code }, tally := { x.tally with minHealth := 0 }, data := data }

theorem losing_unpowered (e : Eng) (s : State) :
    ∃ inc, (unpower e (noteFall e .lost s)).setCtl e (fun c => { c with lost := true, cause := Cause.lost.code }) =
      { s.setEng e (EngSt.losing (s.eng e).data.lost) with duplex := { s.duplex with
          incumbency := inc, rallies := s.duplex.rallies.filter (fun r => r.eng != e)
          fell := if s.holds e then Cause.lost.code else s.duplex.fell } } := by
  rw [unpower_eq, noteFall_eq]
  cases e <;> exact ⟨_, rfl⟩

/-- An engine lost: it has no power and is marked for a power cycle, and incumbency stays where the other engine runs. -/
theorem loseEngine_spec {e : Eng} {s : State} (hp : (s.eng e).ctl.powered = true) :
    ∃ (data : EngData) (inc : Incumbency), ((s.eng e.other).ctl.running = true → inc = s.duplex.incumbency) ∧
      loseEngine e s = { s.setEng e (EngSt.losing data) with duplex := { s.duplex with
          incumbency := inc, rallies := s.duplex.rallies.filter (fun r => r.eng != e)
          fell := if s.holds e then Cause.lost.code else s.duplex.fell } } := by
  obtain ⟨inc, h⟩ := losing_unpowered e s
  unfold loseEngine
  rw [if_pos hp]
  dsimp only
  rw [h]
  cases hon : (s.eng e.other).ctl.running with
  | true =>
    rw [if_pos (by rw [← hon]; cases e <;> rfl)]
    exact ⟨{ (s.eng e).data.lost with pats := (s.eng e).data.pats }, _, fun _ => rfl, by cases e <;> rfl⟩
  | false =>
    rw [if_neg (by rw [← Bool.not_eq_true] at hon; intro hr; apply hon; rw [← hr]; cases e <;> rfl)]
    exact ⟨_, inc, nofun, rfl⟩

/-! ### The return to MAIN (R455, R466) -/

/-- A return to MAIN changes the keeper alone, and that only in RIDE and LAST. -/
theorem returnToMain_spec (s : State) : ∃ kp, returnToMain s = { s with keeper := kp } ∧ (s.riding = false → kp = s.keeper) ∧
    kp.vlineOk = s.keeper.vlineOk := by
  refine ⟨_, returnToMain_only s, fun h => by rw [returnToMain_of_not_riding h], ?_⟩
  unfold returnToMain
  split <;> rfl

theorem EngSt.losing_claim (data : EngData) (x : EngSt) : (x.losing data).ctl.claim = 0 := EngCtl.claim_of_not_powered rfl

/-- Settles O41: the law of each kind of die, and the keeper's return after it. -/
theorem dieLostReleases : Obligations.DieLost := by
  unfold Obligations.DieLost
  rintro k s t rfl
  refine ⟨fun d => ⟨fun hp hl => ?_, fun h => next_of_eq (congrArg returnToMain (loseLineDie_of_gone h))⟩,
    fun e => ⟨fun hp => ?_, fun h => next_of_eq (congrArg returnToMain (if_neg (by rw [h]; exact Bool.noConfusion)))⟩⟩
  · obtain ⟨hport, hcut, halarm, hrest⟩ := loseLineDie_spec hp hl
    obtain ⟨kp, hu, hkp, -⟩ := returnToMain_spec (loseLineDie d (atTick k s))
    have hkeep : (loseLineDie d (atTick k s)).keeper = (atTick k s).keeper := by rw [hrest]
    refine ⟨_, next_of_eq hu, ?_, fun p hd => ?_, fun p hd => (hport p).trans (if_neg hd), halarm,
      hcut.congr (fun _ => rfl) (fun d => by cases d <;> rfl) rfl rfl, fun hr => ?_, ?_⟩
    · refine Eq.trans (by cases d <;> rfl) ((hcut.status d).2.trans ?_)
      rw [State.setDie_get_same]
      rfl
    · have hdrop := stopReceiver_dropPort_released (atTick k s).ports[p]
      rw [← (hport p).trans (if_pos hd)] at hdrop
      exact hdrop
    · refine (hkp ?_).trans hkeep
      rw [State.riding, hkeep]
      exact hr
    · rw [hrest]
  · obtain ⟨data, inc, hinc, he⟩ := loseEngine_spec hp
    obtain ⟨kp, hu, hkp, -⟩ := returnToMain_spec (loseEngine e (atTick k s))
    rw [he] at hu hkp
    refine ⟨_, next_of_eq ((congrArg returnToMain he).trans hu), ?_⟩
    generalize atTick k s = t at *
    have hsame : ({ t.setEng e (EngSt.losing data) with
        duplex := { t.duplex with
          incumbency := inc, rallies := t.duplex.rallies.filter (fun r => r.eng != e)
          fell := if t.holds e then Cause.lost.code else t.duplex.fell }
        keeper := kp } : State).eng e = (t.eng e).losing data := by cases e <;> rfl
    rw [hsame]
    refine ⟨rfl, EngSt.losing_claim data _, rfl, rfl, rfl, by cases e <;> rfl, hinc, fun y => ?_, rfl, fun hr => ?_,
      by cases e <;> rfl⟩
    · simp only [List.mem_filter, bne_iff_ne]
    · exact (hkp (by cases e <;> exact hr)).trans (by cases e <;> rfl)

/-! ### Rails (R161, R357, R448, R449) -/

/-- What loss of signal after a release at once leaves of a port: a LOS that holds goes on. -/
structure Silenced (x y : PortSt) : Prop where
  hinge : y.hinge = x.hinge
  line : y.line = { x.line with los := y.line.los, ais := y.line.ais }
  octets : y.tx.octets = x.tx.octets
  los : x.line.los = true → y.line.los = true

theorem Silenced.refl (x : PortSt) : Silenced x x := ⟨rfl, rfl, rfl, id⟩

theorem Silenced.trans {x y z : PortSt} (a : Silenced x y) (b : Silenced y z) : Silenced x z :=
  ⟨b.hinge.trans a.hinge, by rw [b.line, a.line], b.octets.trans a.octets, fun h => b.los (a.los h)⟩

theorem Silenced.released {x y : PortSt} (h : Silenced x y) (hx : x.released) : y.released := by
  obtain ⟨hr, hs, hd, ht, ho⟩ := hx
  exact ⟨by rw [h.hinge]; exact hr, by rw [h.hinge]; exact hs, by rw [h.hinge]; exact hd, by rw [h.line]; exact ht,
    h.octets.trans ho⟩

/-- The declarations of LOS change ports as `Silenced` says, the timers that count the events, and the event entries. -/
def LosDeclared (s u : State) : Prop :=
  u = { s with ports := u.ports, timers := u.timers, tally := u.tally } ∧ ∀ p : Port, Silenced s.ports[p] u.ports[p]

theorem LosDeclared.refl (s : State) : LosDeclared s s := ⟨rfl, fun _ => .refl _⟩

theorem LosDeclared.trans {s t u : State} (a : LosDeclared s t) (b : LosDeclared t u) : LosDeclared s u :=
  ⟨by rw [b.1, a.1], fun p => (a.2 p).trans (b.2 p)⟩

theorem LoopKept.silenced {p q : Port} {s u : State} (h : LoopKept p q s u) : Silenced s.ports[q] u.ports[q] := by
  unfold LoopKept at h
  split at h <;> (rw [h]; exact ⟨rfl, rfl, rfl, id⟩)

theorem declareLos_of_down {p : Port} {s : State} (h : s.ports[p].line.running = true → s.ports[p].line.los = true) : declareLos p s = s := by
  dsimp only [declareLos]
  rw [if_neg]
  simpa only [Bool.and_eq_true, Bool.not_eq_true', not_and, Bool.not_eq_false] using h

theorem declareLos_declared (p : Port) (s : State) : LosDeclared s (declareLos p s) := by
  obtain ⟨hrest, hother, -, -⟩ := declareLos_only p s
  refine ⟨hrest, fun q => ?_⟩
  by_cases hq : q = p
  · subst hq
    by_cases h : s.ports[q].line.running = true → s.ports[q].line.los = true
    · rw [declareLos_of_down h]; exact .refl _
    · simp only [Classical.not_imp, Bool.not_eq_true] at h
      rw [declareLos_port h.1 h.2]
      exact ⟨rfl, rfl, rfl, fun _ => rfl⟩
  · exact (hother q hq).silenced

/-- LOS is declared on a port that runs. -/
theorem declareLos_los {p : Port} {s : State} (hrun : s.ports[p].line.running = true) : (declareLos p s).ports[p].line.los = true := by
  cases hlos : s.ports[p].line.los with
  | true => rw [declareLos_of_down (fun _ => hlos)]; exact hlos
  | false => rw [declareLos_port hrun hlos]

/-- Of operations done for every element of a list, each is done on a state that the ones before it lead to, and leads on to the end. -/
theorem forEach_at {α : Type} {R : State → State → Prop} (refl : ∀ s, R s s) (trans : ∀ {s t u}, R s t → R t u → R s u) {l : List α}
    (f : α → State → State) (h : ∀ a t, R t (f a t)) {a : α} (ha : a ∈ l) (s : State) :
    ∃ t, R s t ∧ R (f a t) (forEach l f s) := by
  induction l generalizing s with
  | nil => cases ha
  | cons b l ih =>
    rcases List.mem_cons.mp ha with rfl | hm
    · exact ⟨s, refl s, forEach_rel refl trans l f h _⟩
    · obtain ⟨t, h1, h2⟩ := ih hm (f b s)
      exact ⟨t, trans (h b s) h1, h2⟩

/-- LOS is declared on a port whose line is not NRZ. -/
def declareOne (p : Port) (s : State) : State := if lineCodeOf s.ports[p].line.family = .nrz then s else declareLos p s

/-- LOS is declared on every port but those of NRZ lines. -/
def declareAllLos (s : State) : State := forEach allPorts declareOne s

theorem declareOne_declared (p : Port) (t : State) : LosDeclared t (declareOne p t) := by
  unfold declareOne
  split
  · exact .refl t
  · exact declareLos_declared p t

theorem declareAllLos_declared (s : State) : LosDeclared s (declareAllLos s) :=
  forEach_rel .refl .trans _ _ declareOne_declared s

theorem mem_allPorts (p : Port) : p ∈ allPorts := List.mem_finRange p

theorem declareAllLos_at (p : Port) (s : State) : ∃ t, LosDeclared s t ∧ LosDeclared (declareOne p t) (declareAllLos s) :=
  forEach_at .refl .trans declareOne declareOne_declared (mem_allPorts p) s

theorem declareAllLos_los {p : Port} {s : State} (hrun : s.ports[p].line.running = true)
    (hcode : lineCodeOf s.ports[p].line.family ≠ .nrz) : (declareAllLos s).ports[p].line.los = true := by
  obtain ⟨t, hbefore, hafter⟩ := declareAllLos_at p s
  have hline := (hbefore.2 p).line
  have hone : declareOne p t = declareLos p t := if_neg (by rw [hline]; exact hcode)
  rw [hone] at hafter
  exact Silenced.los (hafter.2 p) (declareLos_los (by rw [hline]; exact hrun))

theorem noRelease_of_idle {s : State} (h : ∀ p : Port, s.ports[p].hinge.seq = .idle) : noRelease s = true := by
  simp only [noRelease, List.all_eq_true, Bool.not_eq_true', Hinge.releasing, h, implies_true]

/-- With main stable, no release and no write in progress, the keeper is in MAIN again. -/
theorem returnToMain_main {s : State} (hs : s.keeper.stable = true) (hr : s.riding = true) (hw : s.words.writing = none)
    (hn : noRelease s = true) : (returnToMain s).keeper.power = .main := by
  unfold returnToMain
  rw [if_pos (by simp only [hs, hr, hw, hn, Option.isNone_none, Bool.and_self])]
  rfl

theorem vlineOut_eq (s : State) :
    vlineOut s = returnToMain ((declareAllLos (releaseAtOnce (fun _ => true) { s with keeper := { s.keeper with vlineOk := false } })).raise
      .vline) := rfl

/-- VLINE out of range: what the releases and the declarations of LOS leave, before the keeper's return. -/
theorem vlineReleases (s : State) :
    ∃ v : State, vlineOut s = returnToMain v ∧ v.alarm.on .vline = true ∧
      (∀ p : Port, v.ports[p].released ∧ v.ports[p].line.terminated = false ∧
        (s.ports[p].line.running = true → lineCodeOf s.ports[p].line.family ≠ .nrz → v.ports[p].line.los = true)) ∧
      ChannelCut s v ∧ v.keeper = { s.keeper with vlineOk := false } ∧
      v = { s with
        ports := v.ports, timers := v.timers, tally := v.tally, alarm := v.alarm, keeper := v.keeper, lda := v.lda
        ldb := v.ldb, partner := v.partner } := by
  refine ⟨_, vlineOut_eq s, ?_⟩
  have hdrop := releaseAtOnce_port (fun _ => true) { s with keeper := { s.keeper with vlineOk := false } }
  obtain ⟨hcut, hrest⟩ := releaseAtOnce_only (fun _ => true) { s with keeper := { s.keeper with vlineOk := false } }
  generalize releaseAtOnce _ _ = v at *
  obtain ⟨hlrest, hsil⟩ := declareAllLos_declared v
  have hlos := fun p => declareAllLos_los (p := p) (s := v)
  generalize declareAllLos v = w at *
  obtain ⟨wp, wt, wl, rfl⟩ : ∃ wp wt wl, w = { v with ports := wp, timers := wt, tally := wl } := ⟨_, _, _, hlrest⟩
  obtain ⟨vp, la, lb, pa, rfl⟩ : ∃ vp la lb pa, v = { s with
    keeper := { s.keeper with vlineOk := false }, ports := vp, lda := la, ldb := lb, partner := pa } := ⟨_, _, _, _, hrest⟩
  refine ⟨Alarm.raise_on _ _ _, fun p => ?_, hcut.congr (fun d => by cases d <;> rfl) (fun d => by cases d <;> rfl) rfl rfl, rfl, rfl⟩
  have hp := hdrop p
  rw [if_pos rfl] at hp
  obtain ⟨hrel, hterm⟩ := dropPort_released s.ports[p]
  refine ⟨(hsil p).released (hp ▸ hrel), ?_, fun hrun hcode => hlos p (by rw [hp]; exact hrun) (by rw [hp]; exact hcode)⟩
  refine (congrArg Line.terminated (hsil p).line).trans ?_
  rw [hp]
  exact hterm

/-- What the loss of a line die leaves, whether or not it was powered. -/
theorem loseLineDie_only (d : LineDie) (s : State) :
    loseLineDie d s = { s with
        lda := (loseLineDie d s).lda, ldb := (loseLineDie d s).ldb, ports := (loseLineDie d s).ports
        alarm := (loseLineDie d s).alarm, partner := (loseLineDie d s).partner } ∧
      (∀ e, ((loseLineDie d s).die e).powered = (s.die e).powered) ∧
      ((s.die d).powered = true → ((loseLineDie d s).die d).lost = true) ∧
      (∀ e, e ≠ d → ((loseLineDie d s).die e).lost = (s.die e).lost) ∧
      ∀ p : Port, dieOf p ≠ d → (loseLineDie d s).ports[p] = s.ports[p] := by
  by_cases h : (s.die d).powered = true ∧ (s.die d).lost = false
  · obtain ⟨hport, hcut, -, hrest⟩ := loseLineDie_spec h.1 h.2
    refine ⟨hrest, fun e => ?_, fun _ => ?_, fun e he => ?_, fun p hp => (hport p).trans (if_neg hp)⟩
    · rw [(hcut.status e).1]; cases d <;> cases e <;> rfl
    · rw [(hcut.status d).2, State.setDie_get_same]; rfl
    · rw [(hcut.status e).2]; cases d <;> cases e <;> first | rfl | exact absurd rfl he
  · have hgone : (s.die d).powered = false ∨ (s.die d).lost = true := by
      rcases Bool.eq_false_or_eq_true (s.die d).powered with hp | hp
      · exact .inr (by simpa only [Bool.not_eq_false] using not_and.mp h hp)
      · exact .inl hp
    rw [loseLineDie_of_gone hgone]
    exact ⟨rfl, fun _ => rfl, fun hp => hgone.resolve_left (by rw [hp]; exact Bool.noConfusion), fun _ _ => rfl, fun _ _ => rfl⟩

/-- Settles O12: the releases at once, and then the losses of signal and the keeper's return; the rails noted; the loss of both dies. -/
theorem railsOutOfRange : Obligations.RailsOutOfRange := by
  unfold Obligations.RailsOutOfRange
  refine ⟨?_, fun core vline s => ⟨_, rfl, ?_⟩, ?_⟩
  · rintro k s t rfl
    obtain ⟨v, he, halarm, hports, hcut, hkeep, hrest⟩ := vlineReleases (atTick k s)
    obtain ⟨kp, hu, hkp, hvline⟩ := returnToMain_spec v
    refine ⟨_, next_of_eq (he.trans hu), hvline.trans (by rw [hkeep]), fun hr => ?_, fun hr hs hw => ?_, hports, halarm,
      hcut.congr (fun _ => rfl) (fun d => by cases d <;> rfl) rfl rfl, by rw [hrest]⟩
    · refine (hkp ?_).trans hkeep
      rw [State.riding, hkeep]
      exact hr
    · have hmain : (returnToMain v).keeper.power = .main :=
        returnToMain_main (by rw [hkeep]; exact hs) (by rw [State.riding, hkeep]; exact hr) (by rw [hrest]; exact hw)
          (noRelease_of_idle (fun p => (hports p).1.2.1))
      rw [hu] at hmain
      exact hmain
  · unfold railsIn
    cases vline with
    | true => exact ⟨rfl, fun _ => Alarm.clear_on _ _, nofun, rfl⟩
    | false => exact ⟨rfl, nofun, fun _ => rfl, rfl⟩
  · rintro k s t rfl
    refine ⟨fun hmain => ⟨_, next_of_eq (if_pos hmain), ?_⟩, fun h => next_of_eq (if_neg h)⟩
    obtain ⟨hra, hpa, hla, hoa, hqa⟩ := loseLineDie_only .lda { atTick k s with keeper := { (atTick k s).keeper with coreOk := false } }
    have hspec := loseLineDie_spec (d := .lda) (s := { atTick k s with keeper := { (atTick k s).keeper with coreOk := false } })
    generalize loseLineDie .lda _ = v at *
    obtain ⟨hrb, hpb, hlb, hob, hqb⟩ := loseLineDie_only .ldb v
    have hspec' := loseLineDie_spec (d := .ldb) (s := v)
    generalize loseLineDie .ldb _ = w at *
    refine ⟨by rw [hrb, hra], fun d hd => ?_, fun p hd hl => ?_, by rw [hrb, hra]⟩
    · cases d with
      | lda => rw [hob .lda nofun]; exact hla hd
      | ldb => exact hlb ((hpa .ldb).trans hd)
    · cases hdie : dieOf p with
      | lda =>
        rw [hdie] at hd hl
        rw [hqb p (by rw [hdie]; exact nofun), ((hspec hd hl).1 p).trans (if_pos hdie)]
        exact stopReceiver_dropPort_released _
      | ldb =>
        rw [hdie] at hd hl
        rw [((hspec' ((hpa .ldb).trans hd) ((hoa .ldb nofun).trans hl)).1 p).trans (if_pos hdie)]
        exact stopReceiver_dropPort_released _

end Sys2Proof.Machine
end

section
/-! SUPPORT. Receive framers: frame alignment and its loss, CRC-4, CAS and RAI (R180 to R192). -/

namespace Sys2Proof.Machine

/-! ### Alignment -/

/-- A port that has just been aligned, its frame in receipt number `n`, at tick `now` (R181, R189, R202). -/
def PortSt.aligning (n now : Nat) (x : PortSt) : PortSt :=
  let y : PortSt := { x with
    framer := { x.framer.search with
      aligned := true, frameNo := n, crcMf := if framingOf x.line.family = .e1Crc then .searching else .none }
    slip := { x.slip.suspend with alignedAt := some now } }
  { y with raw := { y.raw with lomf := y.raw.lomf || lomfOf y } }

/-- A port that has just lost its alignment (R180). -/
def PortSt.misaligning (x : PortSt) : PortSt :=
  { x with framer := x.framer.search, slip := x.slip.suspend, raw := { (x.raw.note 6 1) with lof := true } }

theorem gainAlignment_eq {p : Port} {s : State} (n : Nat) (hrun : s.ports[p].line.running = true)
    (ha : s.ports[p].framer.aligned = false) :
    gainAlignment p n s = followLoop p (captureEvent p 4 ((clearAis p s).setPort p (PortSt.aligning n s.now))) := by
  dsimp only [gainAlignment]
  rw [if_pos (by simp only [hrun, ha, Bool.not_false, Bool.and_self])]
  rfl

theorem loseAlignment_eq {p : Port} {s : State} (hrun : s.ports[p].line.running = true)
    (ha : s.ports[p].framer.aligned = true) :
    loseAlignment p s = followLoop p (captureEvent p 3 (s.setPort p PortSt.misaligning)) := by
  dsimp only [loseAlignment]
  rw [if_pos (by simp only [hrun, ha, Bool.and_self])]
  rfl

theorem loseAlignment_of_not {p : Port} {s : State} (h : (s.ports[p].line.running && s.ports[p].framer.aligned) = false) :
    loseAlignment p s = s := by
  dsimp only [loseAlignment]
  rw [if_neg (by rw [h]; exact Bool.noConfusion)]

/-- A search that finds its alignment in the bits: the windows take those before the frame in receipt, and the port is aligned. -/
theorem hunts_found {p : Port} {s : State} (n : Nat) {bits : List Bool} (hrun : s.ports[p].line.running = true)
    (ha : s.ports[p].framer.aligned = false) (hf : (huntOn s.ports[p].line.family bits s.ports[p].framer.hunt).2 = true) :
    hunts p n bits s = gainAlignment p n (s.setLine p (fun l => { l with
      win := l.winAfter (bits.take (bits.length - (if isT1 s.ports[p].line.family then 1 else 8))) })) := by
  dsimp only [hunts]
  rw [if_pos (by simp only [hrun, ha, Bool.not_false, Bool.and_self]), if_pos hf]

theorem hunts_on {p : Port} {s : State} (n : Nat) {bits : List Bool} (hrun : s.ports[p].line.running = true)
    (ha : s.ports[p].framer.aligned = false) (hf : (huntOn s.ports[p].line.family bits s.ports[p].framer.hunt).2 = false) :
    hunts p n bits s = s.setFramer p (fun f => { f with hunt := (huntOn s.ports[p].line.family bits s.ports[p].framer.hunt).1 }) := by
  dsimp only [hunts]
  rw [if_pos (by simp only [hrun, ha, Bool.not_false, Bool.and_self]), if_neg (by rw [hf]; exact Bool.noConfusion)]

/-- A port aligned by the search, after its AIS has ended. -/
theorem gainAlignment_port {p : Port} {s : State} (n : Nat) (hrun : s.ports[p].line.running = true)
    (ha : s.ports[p].framer.aligned = false) :
    (gainAlignment p n s).ports[p] = { PortSt.aligning n s.now { s.ports[p] with line := { s.ports[p].line with ais := false } } with
      capture := (gainAlignment p n s).ports[p].capture } := by
  rw [gainAlignment_eq n hrun ha, eventAfter_port, clearAis_port]
  rfl

theorem gainAlignment_only (p : Port) (n : Nat) (s : State) : OnlyEvent p s (gainAlignment p n s) := by
  dsimp only [gainAlignment]
  split
  · exact (clearAis_only p s).trans (eventAfter_only p 4 _ _)
  · exact .refl p s

/-- What a search of port `p` that finds its alignment leaves: the framer aligned at frame `n`, and the windows taken on. -/
theorem hunts_aligns {p : Port} {t : State} (n c : Nat) {bits : List Bool} (hrun : t.ports[p].line.running = true)
    (ha : t.ports[p].framer.aligned = false) (hf : (huntOn t.ports[p].line.family bits t.ports[p].framer.hunt).2 = true)
    (hc : (if isT1 t.ports[p].line.family then 1 else 8) = c) :
    (hunts p n bits t).ports[p] = { PortSt.aligning n t.now { t.ports[p] with
        line := { t.ports[p].line with ais := false, win := t.ports[p].line.winAfter (bits.take (bits.length - c)) } } with
      capture := (hunts p n bits t).ports[p].capture } ∧ OnlyEvent p t (hunts p n bits t) := by
  rw [hunts_found n hrun ha hf, hc]
  refine ⟨?_, (OnlyEvent.setPort p t _).trans (gainAlignment_only p n _)⟩
  have hx : (t.setLine p (fun l => { l with win := l.winAfter (bits.take (bits.length - c)) })).ports[p] =
      { t.ports[p] with line := { t.ports[p].line with win := t.ports[p].line.winAfter (bits.take (bits.length - c)) } } :=
    State.setPort_port t p _
  rw [gainAlignment_port n (by rw [hx]; exact hrun) (by rw [hx]; exact ha), hx]
  rfl

/-- A port has the framing of one family: T1 or E1. -/
theorem isT1_of_isE1 {f : BitVec 4} (h : isE1 f = true) : isT1 f = false := by
  revert f; decide

theorem framing_of_isT1 {f : BitVec 4} (h : isT1 f = true) : framingOf f ≠ .e1Crc := by
  revert f; decide

/-- Settles O13: the search either finds its alignment, which aligns the port, or goes on with the bits it keeps. -/
theorem alignmentGained : Obligations.AlignmentGained := by
  unfold Obligations.AlignmentGained
  rintro p bits k s t rfl hrun ha
  generalize ht : atTick k s = t at *
  refine ⟨fun hf => ⟨fun he => ⟨_, next_of_eq (if_pos (ht.symm ▸ he)), ?_⟩, fun he => ⟨_, next_of_eq (if_pos (ht.symm ▸ he)), ?_⟩⟩,
    fun hf => ⟨fun he => ⟨_, next_of_eq (if_pos (ht.symm ▸ he)), ?_⟩, fun he => ⟨_, next_of_eq (if_pos (ht.symm ▸ he)), ?_⟩⟩⟩
  · rw [ht]
    obtain ⟨hp, ho⟩ := hunts_aligns 0 8 hrun ha hf (if_neg (by rw [isT1_of_isE1 he]; exact Bool.noConfusion))
    generalize hunts p 0 bits t = u at *
    rw [hp]
    exact ⟨rfl, rfl, rfl, rfl, rfl, rfl, rfl, rfl, rfl, rfl, rfl, ho⟩
  · rw [ht]
    obtain ⟨hp, ho⟩ := hunts_aligns (superLen (framingOf t.ports[p].line.family)) 1 hrun ha hf (if_pos he)
    generalize hunts p _ bits t = u at *
    rw [hp]
    exact ⟨rfl, rfl, if_neg (framing_of_isT1 he), rfl, rfl, rfl, rfl, rfl, ho⟩
  · rw [ht]
    exact (setPort_spec (hunts_on 0 hrun ha hf)).symm
  · rw [ht]
    exact (setPort_spec (hunts_on _ hrun ha hf)).symm

/-! ### Loss of frame -/

theorem framingLost_aligned {x : PortSt} {octets : List Byte} (h : framingLost x octets = true) : x.framer.aligned = true := by
  simp only [framingLost, Bool.and_eq_true] at h
  exact h.1.1

/-- Settles O14: the framing error is noted, and with it the alignment is lost. -/
theorem lossOfFrameCounted : Obligations.LossOfFrameCounted := by
  unfold Obligations.LossOfFrameCounted
  rintro p head k s t rfl hrun
  refine ⟨fun hl => ?_, fun hl => next_of_eq (if_neg (by rw [hl, Bool.and_false]; exact Bool.noConfusion))⟩
  refine ⟨_, next_of_eq (if_pos (by rw [hrun, hl]; rfl)), ?_⟩
  have ha := framingLost_aligned hl
  generalize atTick k s = t at *
  have hx : (t.setRaw p (fun r => r.note 9 1)).ports[p] = { t.ports[p] with raw := t.ports[p].raw.note 9 1 } :=
    State.setPort_port t p _
  have he : loseAlignment p (t.setRaw p (fun r => r.note 9 1)) = followLoop p (captureEvent p 3
      (t.setPort p (fun x => PortSt.misaligning { x with raw := x.raw.note 9 1 }))) := by
    rw [loseAlignment_eq (by rw [hx]; exact hrun) (by rw [hx]; exact ha)]
    exact congrArg (fun v => followLoop p (captureEvent p 3 v)) (State.setPort_setPort t p _ _)
  rw [he]
  have hp := eventAfter_port p 3 t (fun x => PortSt.misaligning { x with raw := x.raw.note 9 1 })
  refine ⟨(congrArg (fun x => x.framer.aligned) hp).trans rfl, (congrArg (fun x => x.framer.crcMf) hp).trans rfl,
    (congrArg (fun x => x.framer.casMf) hp).trans rfl, (congrArg (fun x => x.framer.rai) hp).trans rfl,
    (congrArg (fun x => x.framer.sig) hp).trans rfl, ?_, (congrArg (fun x => x.raw.lof) hp).trans rfl, fun i => ?_,
    (congrArg PortSt.line hp).trans rfl, (congrArg (fun x => x.slip.alignedAt) hp).trans rfl,
    fun hk hli => eventAfter_capture p 3 t _ hrun rfl hk hli, eventAfter_only p 3 t _⟩
  · rw [hp]
    exact congrArg (fun b => b && true) hrun
  · rw [hp]
    refine (Raw.note_pend _ 6 i 1).trans ?_
    rw [Raw.note_pend _ 9 i 1]
    by_cases h6 : i = 6
    · subst h6; rfl
    · by_cases h9 : i = 9
      · subst h9; rfl
      · rw [if_neg h6, if_neg h9, if_neg (not_or.mpr ⟨h6, h9⟩)]

/-! ### CRC-4 multiframe, fallback and checked blocks -/

/-- A CRC-4 multiframe found: the frame in receipt is frame 11 of it (R183, R184). -/
def Framer.crcAligned (fresh : Bool) (f : Framer) : Framer :=
  { f with crcMf := .aligned, crcFresh := fresh, frameNo := 11, winBlocks := 0, winErrors := 0 }

theorem gainCrcMf_eq {p : Port} {s : State} {bit1 fresh : Bool} (ha : s.ports[p].framer.aligned = true)
    (hfound : ((s.ports[p].framer.crcMf == .searching && crcFound s.ports[p] bit1) ||
      (s.ports[p].framer.crcMf == .fallback && crcFoundAgain s.ports[p] bit1)) = true)
    (hfresh : (s.ports[p].framer.crcMf == .fallback) = fresh) :
    (gainCrcMf p bit1 s).ports[p] = { s.ports[p] with framer := s.ports[p].framer.crcAligned fresh } ∧
      OnlyPort p s (gainCrcMf p bit1 s) := by
  dsimp only [gainCrcMf]
  rw [if_pos (by rw [ha, hfound]; rfl), ← hfresh]
  exact setPort_spec (p := p) rfl

/-- Settles O15: each event of the CRC-4 search is one change of the framer where the search has come to it. -/
theorem crcMultiframe : Obligations.CrcMultiframe := by
  unfold Obligations.CrcMultiframe
  rintro p bit1 k s t rfl ha
  refine ⟨fun hc => ⟨fun hf => ⟨_, next_of_eq (if_pos (by rw [hc]; rfl)),
      gainCrcMf_eq (fresh := false) ha (by rw [hc, hf]; rfl) (by rw [hc]; rfl)⟩,
      fun hf => next_of_eq ?_, fun hn => ⟨_, next_of_eq (if_pos ?_), setPort_spec (State.setPort_setPort _ p _ _)⟩,
      fun hn => next_of_eq (if_neg ?_)⟩,
    fun hc => ⟨fun hf => ⟨_, next_of_eq (if_pos (by rw [hc]; rfl)), ?_⟩, fun hf => next_of_eq ?_⟩⟩
  · refine (if_pos (by rw [hc]; rfl)).trans (if_neg ?_)
    rw [hc, hf, Bool.and_comm]
    exact Bool.noConfusion
  · rw [ha, hc, decide_eq_true (show crcLimit ≤ _ from hn)]; rfl
  · rw [decide_eq_false (show ¬crcLimit ≤ _ from Nat.not_le.mpr hn), Bool.and_false]
    exact Bool.noConfusion
  · obtain ⟨hp, ho⟩ := gainCrcMf_eq (bit1 := bit1) (fresh := true) ha (by rw [hc, hf]; rfl) (by rw [hc]; rfl)
    refine ⟨hp, ho, fun hfam => ?_⟩
    rw [hp]
    simp only [blocksChecked, hfam, Framer.crcAligned, Bool.not_true, Bool.and_false]
  · refine (if_pos (by rw [hc]; rfl)).trans (if_neg ?_)
    rw [hc, hf, Bool.and_comm]
    exact Bool.noConfusion

/-- Settles O16: a checked block is counted at the port; a full window begins afresh, and too many errors end the alignment. -/
theorem crcWindow : Obligations.CrcWindow := by
  unfold Obligations.CrcWindow
  rintro p k s t rfl
  refine ⟨fun check errored second hb hr => ?_, fun check h => next_of_eq ?_, fun hc hw => ?_, fun h => next_of_eq (if_neg ?_)⟩
  · generalize ht : atTick k s = t at *
    have he : exec (.crcBlockChecked p check k) s = .next (countBlock p errored second t) := by
      refine next_of_eq ?_
      dsimp only [checkBlock]
      rw [ht, hr]
      exact if_pos hb
    refine ⟨_, he, ?_⟩
    obtain ⟨hp, ho⟩ := setPort_spec (u := countBlock p errored second t) (p := p) rfl
    rw [hp]
    refine ⟨fun i => ?_, rfl, fun h1 => ?_, fun h1 => if_pos h1, rfl, ho⟩
    · refine (Raw.note_pend _ 11 i _).trans ?_
      rw [Raw.note_pend _ 10 i 1]
      by_cases h10 : i = 10
      · subst h10; rfl
      · rw [if_neg h10, if_neg h10]; rfl
    · rw [h1]
      exact ⟨rfl, rfl, rfl, rfl⟩
  · dsimp only [checkBlock]
    split
    · rename_i e x hr
      rcases h with h | h
      · exact if_neg (by rw [h]; exact Bool.noConfusion)
      · rw [hr] at h; exact Option.noConfusion rfl (heq_of_eq h)
    · rfl
  · generalize ht : atTick k s = t at *
    have hx : ∀ f, (t.setFramer p f).ports[p] = { t.ports[p] with framer := f t.ports[p].framer } :=
      fun f => State.setPort_port t p _
    have he : exec (.crc4WindowClose p k) s = .next
        (if 915 ≤ t.ports[p].framer.winErrors then
          loseAlignment p (t.setFramer p (fun f => { f with winBlocks := 0, winErrors := 0 }))
        else t.setFramer p (fun f => { f with winBlocks := 0, winErrors := 0 })) := by
      refine next_of_eq ?_
      rw [ht]
      exact if_pos (by rw [hc, decide_eq_true hw]; rfl)
    refine ⟨_, he, ?_⟩
    split
    · rename_i hlost
      rw [decide_eq_true hlost, Bool.and_true]
      by_cases hg : (t.ports[p].line.running && t.ports[p].framer.aligned) = true
      · obtain ⟨hrun, ha⟩ := (Bool.and_eq_true_iff).mp hg
        rw [loseAlignment_eq (by rw [hx]; exact hrun) (by rw [hx]; exact ha)]
        have hp := eventAfter_port p 3 (t.setFramer p (fun f => { f with winBlocks := 0, winErrors := 0 })) PortSt.misaligning
        rw [hp, hx, hrun, ha]
        exact ⟨rfl, rfl, rfl, rfl, (OnlyEvent.setPort p t _).trans (eventAfter_only p 3 _ _)⟩
      · have hg' := Bool.eq_false_iff.mpr hg
        rw [loseAlignment_of_not (by rw [hx]; exact hg'), hx]
        refine ⟨rfl, rfl, ?_, rfl, OnlyEvent.setPort p t _⟩
        revert hg'
        cases t.ports[p].line.running <;> cases t.ports[p].framer.aligned <;> decide
    · rename_i hkept
      rw [hx, decide_eq_false hkept, Bool.and_false, Bool.not_false, Bool.and_true]
      exact ⟨rfl, rfl, rfl, rfl, OnlyEvent.setPort p t _⟩
  · rcases h with h | h
    · rw [beq_eq_false_iff_ne.mpr h]; exact Bool.noConfusion
    · rw [decide_eq_false (Nat.not_le.mpr h), Bool.and_false]; exact Bool.noConfusion

/-! ### CAS and RAI -/

/-- Settles O17: each is one change of its port where the port has received what asks for it. -/
theorem casAndRai : Obligations.CasAndRai := by
  unfold Obligations.CasAndRai
  rintro p ts16 octets k s t rfl
  refine ⟨fun ha he hcas hm hf => ⟨_, next_of_eq (if_pos (by rw [ha, he, hcas, hm, hf]; rfl)), setPort_spec (p := p) rfl⟩,
    fun hm he => ⟨_, next_of_eq ((if_pos ?_).trans (State.setPort_setPort _ p _ _)), ?_⟩,
    fun hm hr => ⟨_, next_of_eq (if_pos (by rw [hm, hr]; rfl)), setPort_spec (State.setPort_setPort _ p _ _)⟩,
    fun hr ho => ⟨_, next_of_eq (if_pos (by rw [hr, ho]; rfl)), setPort_spec (p := p) rfl⟩,
    fun h => next_of_eq (if_neg (by rw [h, Bool.and_false]; exact Bool.noConfusion)),
    fun h1 h2 => next_of_eq (if_neg (by rw [h1, h2, Bool.or_self, Bool.and_false]; exact Bool.noConfusion)),
    fun h => next_of_eq (if_neg (by rw [h]; exact Bool.noConfusion)),
    fun h => next_of_eq (if_neg (by rw [h, Bool.and_false]; exact Bool.noConfusion))⟩
  · rcases he with he | he
    · rw [hm, he]; rfl
    · rw [hm, he, Bool.or_true]; rfl
  · rw [State.setPort_port]
    exact ⟨fun i => Raw.note_pend _ 13 i _, rfl, .setPort p _ _⟩

end Sys2Proof.Machine
end

section
/-! SUPPORT. Latches (R315, R316, R329, R331) and the frame written in line time (R137, R165, R201). -/

namespace Sys2Proof.Machine

/-! ### Latches -/

/-- While an alarm condition holds ALARM_N is called low. -/
theorem Alarm.low_of_on {a : Alarm} {b : AlarmBit} (h : a.on b = true) (now : Nat) : a.low now = true := by
  have hz : a.holds ≠ 0 := by
    intro hz
    rw [Alarm.on, hz] at h
    simp at h
  rw [Alarm.low, bne_iff_ne.mpr hz]
  rfl

/-- Changes of a port that come to the same on the port as it stands. -/
theorem State.setPort_congr {s : State} {p : Port} {f g : PortSt → PortSt} (h : f s.ports[p] = g s.ports[p]) :
    s.setPort p f = s.setPort p g := by
  have h' : f s.ports[p.val] = g s.ports[p.val] := h
  simp only [State.setPort, updV, Fin.getElem_fin, h']

/-- A port whose latch has turned its hold into AIS (R331). -/
def PortSt.latchedAis (x : PortSt) : PortSt :=
  { x with
    latch := { x.latch with ais := true }
    tx := if driving x then { x.tx with octets := some (aisOctets x.line.family), ais := true } else x.tx }

theorem latchAis_eq {p : Port} {s : State} (hused : latchUsed s.ports[p] = true) (hais : s.ports[p].latch.ais = false)
    (hheld : 64 ≤ s.ports[p].latch.held) : latchAis p s = (s.setPort p PortSt.latchedAis).raise .latch := by
  dsimp only [latchAis]
  rw [if_pos (by rw [hused, hais, decide_eq_true hheld]; rfl)]
  split
  · rename_i hd
    have hf : (s.setLatch p (fun l => { l with ais := true })).setPort p (fun x => { x with
        tx := { x.tx with octets := some (aisOctets x.line.family), ais := true } }) = s.setPort p PortSt.latchedAis := by
      rw [State.setLatch, State.setPort_setPort]
      refine State.setPort_congr ?_
      simp only [PortSt.latchedAis, if_pos hd]
    exact congrArg (State.raise · .latch) hf
  · rename_i hd
    refine congrArg (State.raise · .latch) (State.setPort_congr ?_)
    simp only [PortSt.latchedAis, if_neg hd]

theorem overlay_sendOnly (p : Port) (c : OutCell) (s : State) : SendOnly p s (overlay p c s) := by
  dsimp only [overlay]
  split
  · exact .refl p s
  · exact ⟨rfl, fun _ hr => State.setPort_get_ne s _ hr, by rw [State.setPort_port]⟩

/-- A latch that fails over to engine `e`: it accepts that engine and its cell, and its port may send the rest of its frame from it. -/
theorem failOver_spec {p : Port} {s : State} {e : Eng} (hp : preferred s p = some e) (he : e ≠ s.ports[p].latch.accepted) :
    SendOnly p (s.setLatch p (fun l => { l with accepted := e, last := l.last.map (fun c => (l.cell e c.seq).getD c) }))
      (failOver p s) := by
  unfold failOver
  simp only [hp]
  rw [if_neg he]
  split
  · split
    · exact overlay_sendOnly p _ _
    · exact .refl p _
  · exact .refl p _

theorem failOver_stays {p : Port} {s : State} (h : preferred s p = none ∨ preferred s p = some s.ports[p].latch.accepted) :
    failOver p s = s := by
  unfold failOver
  rcases h with h | h <;> rw [h]
  exact if_pos rfl

/-- A latch prefers no engine when neither is eligible (R316). -/
theorem preferred_none_iff (s : State) (p : Port) : preferred s p = none ↔ ∀ e, eligible s (dieOf p) e = false := by
  have hall : (∀ e, eligible s (dieOf p) e = false) ↔
      eligible s (dieOf p) s.ports[p].latch.accepted = false ∧ eligible s (dieOf p) s.ports[p].latch.accepted.other = false := by
    refine ⟨fun h => ⟨h _, h _⟩, fun ⟨h1, h2⟩ e => ?_⟩
    revert h1 h2
    cases s.ports[p].latch.accepted <;> cases e <;> intro h1 h2 <;> assumption
  rw [hall]
  dsimp only [preferred]
  split
  · rename_i h1 h2
    rw [h1]
    split <;> exact ⟨nofun, nofun⟩
  · rename_i h1 h2
    rw [h1]
    exact ⟨nofun, nofun⟩
  · rename_i h1 h2
    rw [h1, h2]
    exact ⟨nofun, nofun⟩
  · rename_i h1 h2
    exact ⟨fun _ => ⟨h1, h2⟩, fun _ => rfl⟩

/-- Settles O21: AIS is a change of the port and the alarm; a fail-over is one of the latch, and of what its port sends. -/
theorem latchEvents : Obligations.LatchEvents := by
  unfold Obligations.LatchEvents
  refine ⟨?_, ?_⟩
  · rintro p k s t rfl hused hais
    refine ⟨fun hheld => ⟨_, next_of_eq (latchAis_eq hused hais hheld), ?_⟩, fun hheld => next_of_eq (if_neg ?_)⟩
    · generalize atTick k s = t at *
      have hp : ((t.setPort p PortSt.latchedAis).raise .latch).ports[p] = t.ports[p].latchedAis := State.setPort_port t p _
      have hon : ((t.setPort p PortSt.latchedAis).raise .latch).alarm.on .latch = true := Alarm.raise_on _ _ _
      refine ⟨(congrArg PortSt.latch hp).trans rfl, hon, Alarm.low_of_on hon _, fun hd => ?_, (congrArg PortSt.hinge hp).trans rfl,
        (congrArg PortSt.line hp).trans rfl, fun q hq => State.setPort_get_ne t _ hq, rfl⟩
      rw [hp, PortSt.latchedAis]
      simp only [if_pos hd, and_self]
    · rw [decide_eq_false (Nat.not_le.mpr hheld), Bool.and_false]
      exact Bool.noConfusion
  · rintro p k s t rfl
    refine ⟨fun e hp he => ⟨_, rfl, ?_⟩, fun h => next_of_eq (failOver_stays h), preferred_none_iff _ p⟩
    generalize atTick k s = t at *
    obtain ⟨hrest, hother, hsend⟩ := failOver_spec hp he
    have hx : ∀ f, (t.setLatch p f).ports[p] = { t.ports[p] with latch := f t.ports[p].latch } := fun f => State.setPort_port t p _
    rw [hx] at hsend
    exact ⟨(congrArg PortSt.latch hsend).trans rfl, (congrArg PortSt.hinge hsend).trans rfl, (congrArg PortSt.line hsend).trans rfl,
      hrest.trans rfl, fun q hq => (hother q hq).trans (State.setPort_get_ne t _ hq)⟩

end Sys2Proof.Machine
end

section
/-! SUPPORT. The frame written in line time (R137, R165, R178, R201). -/

namespace Sys2Proof.Machine

/-! ### What a whole frame shows the framer -/

/-- Nothing changed but the framer and the counters of port `p`, which is as much aligned as it was; outside the CRC-4 search and
fallback its frame in receipt keeps its number. -/
def FramerOnly (p : Port) (s u : State) : Prop :=
  OnlyPort p s u ∧ u.ports[p] = { s.ports[p] with framer := u.ports[p].framer, raw := u.ports[p].raw } ∧
    u.ports[p].framer.aligned = s.ports[p].framer.aligned ∧
    (s.ports[p].framer.crcMf ≠ .searching → s.ports[p].framer.crcMf ≠ .fallback →
      u.ports[p].framer.frameNo = s.ports[p].framer.frameNo ∧ u.ports[p].framer.crcMf = s.ports[p].framer.crcMf)

theorem OnlyPort.refl (p : Port) (s : State) : OnlyPort p s s := ⟨rfl, fun _ _ => rfl⟩

theorem OnlyPort.trans {p : Port} {s t u : State} (a : OnlyPort p s t) (b : OnlyPort p t u) : OnlyPort p s u :=
  ⟨by rw [b.1, a.1], fun q hq => (b.2 q hq).trans (a.2 q hq)⟩

theorem FramerOnly.refl (p : Port) (s : State) : FramerOnly p s s := ⟨.refl p s, rfl, rfl, fun _ _ => ⟨rfl, rfl⟩⟩

theorem FramerOnly.trans {p : Port} {s t u : State} (a : FramerOnly p s t) (b : FramerOnly p t u) : FramerOnly p s u := by
  obtain ⟨a1, a2, a3, a4⟩ := a
  obtain ⟨b1, b2, b3, b4⟩ := b
  refine ⟨a1.trans b1, by rw [b2, a2], b3.trans a3, fun h1 h2 => ?_⟩
  obtain ⟨an, ac⟩ := a4 h1 h2
  obtain ⟨bn, bc⟩ := b4 (by rw [ac]; exact h1) (by rw [ac]; exact h2)
  exact ⟨bn.trans an, bc.trans ac⟩

/-- A change `f` of the framer and `g` of the counters is such a change, when `f` keeps what the framer keeps. -/
theorem FramerOnly.setBoth (p : Port) (s : State) (f : Framer → Framer) (g : Raw → Raw)
    (ha : (f s.ports[p].framer).aligned = s.ports[p].framer.aligned)
    (hn : s.ports[p].framer.crcMf ≠ .searching → s.ports[p].framer.crcMf ≠ .fallback →
      (f s.ports[p].framer).frameNo = s.ports[p].framer.frameNo ∧ (f s.ports[p].framer).crcMf = s.ports[p].framer.crcMf) :
    FramerOnly p s ((s.setFramer p f).setRaw p g) := by
  have he : (s.setFramer p f).setRaw p g = s.setPort p (fun x => { x with framer := f x.framer, raw := g x.raw }) :=
    State.setPort_setPort s p _ _
  obtain ⟨hp, ho⟩ := setPort_spec he
  refine ⟨ho, ?_, ?_, ?_⟩
  · rw [hp]
  · rw [hp]; exact ha
  · rw [hp]; exact hn

theorem FramerOnly.setFramer (p : Port) (s : State) (f : Framer → Framer)
    (ha : (f s.ports[p].framer).aligned = s.ports[p].framer.aligned)
    (hn : s.ports[p].framer.crcMf ≠ .searching → s.ports[p].framer.crcMf ≠ .fallback →
      (f s.ports[p].framer).frameNo = s.ports[p].framer.frameNo ∧ (f s.ports[p].framer).crcMf = s.ports[p].framer.crcMf) :
    FramerOnly p s (s.setFramer p f) := by
  have hp : (s.setFramer p f).ports[p] = { s.ports[p] with framer := f s.ports[p].framer } := State.setPort_port s p _
  exact ⟨.setPort p s _, by rw [hp], by rw [hp]; exact ha, by rw [hp]; exact hn⟩

theorem gainCrcMf_framerOnly (p : Port) (b : Bool) (s : State) : FramerOnly p s (gainCrcMf p b s) := by
  dsimp only [gainCrcMf]
  split
  · rename_i h
    refine .setFramer p s _ rfl (fun h1 h2 => ?_)
    rw [beq_eq_false_iff_ne.mpr h1, beq_eq_false_iff_ne.mpr h2] at h
    simp at h
  · exact .refl p s

theorem fallBack_framerOnly (p : Port) (s : State) : FramerOnly p s (fallBack p s) := by
  dsimp only [fallBack]
  split
  · rename_i h
    refine .setBoth p s _ _ rfl (fun h1 _ => ?_)
    rw [beq_eq_false_iff_ne.mpr h1] at h
    simp at h
  · exact .refl p s

theorem loseCas_framerOnly (p : Port) (o : Byte) (s : State) : FramerOnly p s (loseCas p o s) := by
  dsimp only [loseCas]
  split
  · exact .setBoth p s _ _ rfl (fun _ _ => ⟨rfl, rfl⟩)
  · exact .refl p s

theorem gainCas_framerOnly (p : Port) (o : Byte) (s : State) : FramerOnly p s (gainCas p o s) := by
  dsimp only [gainCas]
  split
  · exact .setFramer p s _ rfl (fun _ _ => ⟨rfl, rfl⟩)
  · exact .refl p s

theorem declareRai_framerOnly (p : Port) (o : List Byte) (s : State) : FramerOnly p s (declareRai p o s) := by
  dsimp only [declareRai]
  split
  · exact .setBoth p s _ _ rfl (fun _ _ => ⟨rfl, rfl⟩)
  · exact .refl p s

theorem clearRai_framerOnly (p : Port) (o : List Byte) (s : State) : FramerOnly p s (clearRai p o s) := by
  dsimp only [clearRai]
  split
  · exact .setFramer p s _ rfl (fun _ _ => ⟨rfl, rfl⟩)
  · exact .refl p s

/-- After the frame that may end alignment, a whole frame shows the framer of its port alone. -/
theorem frameShows_framerOnly (p : Port) (octets : List Byte) (s : State) :
    FramerOnly p (endAlignment p octets s) (frameShows p octets s) := by
  dsimp only [frameShows]
  generalize endAlignment p octets s = t
  refine .trans (t := fallBack p (gainCrcMf p (fBit octets) t)) ((gainCrcMf_framerOnly p _ t).trans (fallBack_framerOnly p _)) ?_
  generalize fallBack p (gainCrcMf p (fBit octets) t) = t
  refine .trans (t := gainCas p (ts16Of octets) (loseCas p (ts16Of octets) t))
    ((loseCas_framerOnly p _ t).trans (gainCas_framerOnly p _ _)) ?_
  generalize gainCas p (ts16Of octets) (loseCas p (ts16Of octets) t) = t
  exact (declareRai_framerOnly p octets t).trans (clearRai_framerOnly p octets _)

theorem FramerOnly.onlyEvent {p : Port} {s u : State} (h : FramerOnly p s u) : OnlyEvent p s u := by
  obtain ⟨⟨hrest, hother⟩, -⟩ := h
  exact ⟨hrest.trans (by rw [hrest]), fun q hq => .of_eq (hother q hq), fun i => by rw [hrest], by rw [hrest]⟩

theorem endAlignment_kept {p : Port} {octets : List Byte} {s : State} (h : framingLost s.ports[p] octets = false) :
    endAlignment p octets s = s :=
  if_neg (by rw [h, Bool.and_false]; exact Bool.noConfusion)

/-- A running port whose framing the frame ends: its framer, slip buffer and counters are those of a lost frame. -/
theorem endAlignment_lost {p : Port} {octets : List Byte} {s : State} (hrun : s.ports[p].line.running = true)
    (h : framingLost s.ports[p] octets = true) :
    (endAlignment p octets s).ports[p] = { PortSt.misaligning { s.ports[p] with raw := s.ports[p].raw.note 9 1 } with
      capture := (endAlignment p octets s).ports[p].capture } := by
  have hx : (s.setRaw p (fun r => r.note 9 1)).ports[p] = { s.ports[p] with raw := s.ports[p].raw.note 9 1 } :=
    State.setPort_port s p _
  have he : endAlignment p octets s = _ := if_pos (by rw [hrun, h]; rfl)
  rw [he, loseAlignment_eq (by rw [hx]; exact hrun) (by rw [hx]; exact framingLost_aligned h), eventAfter_port, hx]

theorem endAlignment_only (p : Port) (octets : List Byte) (s : State) : OnlyEvent p s (endAlignment p octets s) := by
  unfold endAlignment
  split
  · refine (OnlyEvent.setPort p s (fun x => { x with raw := x.raw.note 9 1 })).trans ?_
    dsimp only [loseAlignment]
    split
    · exact eventAfter_only p 3 _ _
    · exact .refl p _
  · exact .refl p s

/-- What a whole frame shows its running port: it leaves the line, the hinge and what the port sends; the port is aligned yet if the
frame has not ended its alignment, and the slip buffer is then as it was. -/
structure Shown (p : Port) (octets : List Byte) (s u : State) : Prop where
  only : OnlyEvent p s u
  line : u.ports[p].line = s.ports[p].line
  hinge : u.ports[p].hinge = s.ports[p].hinge
  tx : u.ports[p].tx = s.ports[p].tx
  aligned : u.ports[p].framer.aligned = (s.ports[p].framer.aligned && !framingLost s.ports[p] octets)
  slip : u.ports[p].slip = if framingLost s.ports[p] octets then s.ports[p].slip.suspend else s.ports[p].slip
  frameNo : framingLost s.ports[p] octets = false → s.ports[p].framer.crcMf ≠ .searching → s.ports[p].framer.crcMf ≠ .fallback →
    u.ports[p].framer.frameNo = s.ports[p].framer.frameNo

theorem frameShows_shown {p : Port} {octets : List Byte} {s : State} (hrun : s.ports[p].line.running = true) :
    Shown p octets s (frameShows p octets s) := by
  have hshow := frameShows_framerOnly p octets s
  have honly := (endAlignment_only p octets s).trans hshow.onlyEvent
  obtain ⟨-, hp, ha, hn⟩ := hshow
  generalize frameShows p octets s = u at *
  cases hl : framingLost s.ports[p] octets with
  | false =>
    rw [endAlignment_kept hl] at hp ha hn
    exact ⟨honly, (congrArg PortSt.line hp).trans rfl, (congrArg PortSt.hinge hp).trans rfl, (congrArg PortSt.tx hp).trans rfl,
      by rw [ha, hl, Bool.not_false, Bool.and_true], by rw [hl]; exact (congrArg PortSt.slip hp).trans rfl,
      fun _ h1 h2 => (hn h1 h2).1⟩
  | true =>
    have he := endAlignment_lost hrun hl
    rw [he] at hp ha
    exact ⟨honly, (congrArg PortSt.line hp).trans rfl, (congrArg PortSt.hinge hp).trans rfl, (congrArg PortSt.tx hp).trans rfl,
      by rw [ha, hl, Bool.not_true, Bool.and_false]; rfl, by rw [hl]; exact (congrArg PortSt.slip hp).trans rfl,
      fun h => absurd (hl.symm.trans h) Bool.noConfusion⟩

/-- A frame shows nothing to a port that is not aligned and has neither CAS nor RAI to lose. -/
theorem frameShows_unaligned {p : Port} {octets : List Byte} {s : State} (ha : s.ports[p].framer.aligned = false)
    (hcas : s.ports[p].framer.casMf = false) (hrai : s.ports[p].framer.rai = false) : frameShows p octets s = s := by
  have hend : endAlignment p octets s = s := endAlignment_kept (by rw [framingLost, ha]; rfl)
  have hcrc : ∀ b, gainCrcMf p b s = s := fun b => if_neg (by rw [ha]; exact Bool.noConfusion)
  have hfall : fallBack p s = s := if_neg (by rw [ha]; exact Bool.noConfusion)
  have hlose : ∀ o, loseCas p o s = s := fun o => if_neg (by rw [hcas]; exact Bool.noConfusion)
  have hgain : ∀ o, gainCas p o s = s := fun o => if_neg (by rw [ha]; exact Bool.noConfusion)
  have hdecl : declareRai p octets s = s := if_neg (by rw [raiMet, ha]; exact Bool.noConfusion)
  have hclear : clearRai p octets s = s := if_neg (by rw [hrai]; exact Bool.noConfusion)
  dsimp only [frameShows]
  rw [hend, hcrc, hfall, hlose, hgain, hdecl, hclear]

/-! ### The frame stored -/

/-- Nothing changed but the frame that is due next on the ports of the pair of `p`. -/
def DueOnly (p : Port) (s u : State) : Prop :=
  u = { s with ports := u.ports } ∧ (∀ q, q ≠ p → q ≠ partnerPort p → u.ports[q] = s.ports[q]) ∧
    ∀ q : Port, u.ports[q] = { s.ports[q] with slip := { s.ports[q].slip with nextOut := u.ports[q].slip.nextOut } }

theorem DueOnly.refl (p : Port) (s : State) : DueOnly p s s := ⟨rfl, fun _ _ _ => rfl, fun _ => rfl⟩

theorem DueOnly.trans {p : Port} {s t u : State} (a : DueOnly p s t) (b : DueOnly p t u) : DueOnly p s u :=
  ⟨by rw [b.1, a.1], fun q h1 h2 => (b.2.1 q h1 h2).trans (a.2.1 q h1 h2), fun q => by rw [b.2.2 q, a.2.2 q]⟩

theorem DueOnly.clear {p q : Port} (hq : q = p ∨ q = partnerPort p) (s : State) :
    DueOnly p s (s.setSlip q (fun y => { y with nextOut := none })) := by
  refine ⟨rfl, fun r h1 h2 => State.setPort_get_ne s _ ?_, fun r => ?_⟩
  · rcases hq with rfl | rfl
    · exact h1
    · exact h2
  · by_cases hr : r = q
    · rw [hr, State.setSlip, State.setPort_port]
    · rw [State.setSlip, State.setPort_get_ne s _ hr]

theorem rebase_dueOnly (p : Port) (s : State) : DueOnly p s (rebase p s) := by
  have hone : ∀ q, q = p ∨ q = partnerPort p → ∀ t : State, DueOnly p t
      (if t.ports[q].hinge.role = .lineTimed p then t.setSlip q (fun y => { y with nextOut := none }) else t) := by
    intro q hq t
    split
    · exact .clear hq t
    · exact .refl p t
  exact (hone p (.inl rfl) s).trans (hone (partnerPort p) (.inr rfl) _)

/-- What a received frame `f` stored on port `p` is and leaves. -/
structure Stored (p : Port) (octets : List Byte) (s u : State) (f : RxFrame) : Prop where
  head : u.ports[p].slip.history.head? = some f
  content : f.octets = fitTo 32 octets
  number : f.number = s.ports[p].slip.numberAt s.now
  doneAt : f.doneAt = s.now
  bad : f.bad = (s.ports[p].slip.badNow || receivesBad s.ports[p])
  nextNo : u.ports[p].slip.nextNo = f.number + 1
  waiting : s.ports[p].framer.aligned = true → s.ports[p].line.los = false →
    u.ports[p].slip.waiting = (s.ports[p].slip.waiting ++ [f]).drop (s.ports[p].slip.waiting.length + 1 - 5)
  frameNo : s.ports[p].framer.aligned = true →
    u.ports[p].framer.frameNo = nextFrameNo s.ports[p].line.family s.ports[p].framer.frameNo
  hunting : s.ports[p].framer.aligned = false → u.ports[p].framer = { s.ports[p].framer with
    hunt := (huntOn s.ports[p].line.family (frameBitList s.ports[p].line.family octets) s.ports[p].framer.hunt).1 } ∧
    u.ports[p].raw = s.ports[p].raw
  line : u.ports[p].line = { s.ports[p].line with
    win := s.ports[p].line.winAfter (frameBitList s.ports[p].line.family octets) }
  hinge : u.ports[p].hinge = s.ports[p].hinge
  tx : u.ports[p].tx = s.ports[p].tx
  others : ∀ q, q ≠ p → u.ports[q] =
    { s.ports[q] with slip := { s.ports[q].slip with nextOut := u.ports[q].slip.nextOut } }
  far : ∀ q, q ≠ p → q ≠ partnerPort p → u.ports[q] = s.ports[q]
  rest : u = { s with ports := u.ports }

/-- The frame is stored on the port as it was: taking the delay anew changes the frame due next alone. -/
theorem storeFrame_stored (p : Port) (octets : List Byte) (s : State) : ∃ f, Stored p octets s (storeFrame p octets s) f := by
  dsimp only [storeFrame]
  have hd : DueOnly p s (if s.ports[p].rebases s.now then rebase p s else s) := by
    split
    · exact rebase_dueOnly p s
    · exact .refl p s
  generalize (if s.ports[p].rebases s.now then rebase p s else s) = v at *
  obtain ⟨hrest, hfar, hport⟩ := hd
  have hnow : v.now = s.now := by rw [hrest]; rfl
  have hx := hport p
  generalize v.ports[p].slip.nextOut = n at hx
  apply Exists.intro
  apply Stored.mk
  case head => rw [State.setPort_port]; rfl
  case content => rfl
  case number => rw [hx, hnow]; rfl
  case doneAt => exact hnow
  case bad => rw [hx]; rfl
  case nextNo => rw [State.setPort_port]
  case waiting =>
    intro ha hl
    rw [State.setPort_port]
    simp only [hx, ha, hl, Bool.not_false, Bool.and_self, if_true]
  case frameNo =>
    intro ha
    rw [State.setPort_port]
    simp only [hx, ha, if_true]
  case hunting =>
    intro ha
    rw [State.setPort_port]
    simp only [hx, ha, Bool.false_eq_true, if_false, and_self]
  case line => rw [State.setPort_port, hx]
  case hinge => rw [State.setPort_port, hx]
  case tx => rw [State.setPort_port, hx]
  case others =>
    intro q hq
    rw [State.setPort_get_ne v _ hq]
    exact hport q
  case far =>
    intro q h1 h2
    rw [State.setPort_get_ne v _ h1]
    exact hfar q h1 h2
  case rest =>
    obtain ⟨w, rfl⟩ : ∃ w, v = { s with ports := w } := ⟨_, hrest⟩
    rfl

/-! ### The carriage bits gathered, and the frame as a whole -/

/-- Nothing changed but the carriage bits that the line dies have gathered. -/
def GatheredOnly (s u : State) : Prop :=
  (∀ d, u.die d = { s.die d with inBits := (u.die d).inBits, inFirst := (u.die d).inFirst }) ∧
    u = { s with lda := u.lda, ldb := u.ldb }

theorem GatheredOnly.refl (s : State) : GatheredOnly s s := ⟨fun _ => rfl, rfl⟩

theorem GatheredOnly.setDie (s : State) (d : LineDie) {f : DieSt → DieSt}
    (hf : f (s.die d) = { s.die d with inBits := (f (s.die d)).inBits, inFirst := (f (s.die d)).inFirst }) :
    GatheredOnly s (s.setDie d f) := by
  cases d
  · exact ⟨(fun | .lda => hf | .ldb => rfl), rfl⟩
  · exact ⟨(fun | .lda => rfl | .ldb => hf), rfl⟩

theorem takeBit_kept (a : Nat) (q : BitVec 8) (b : Bool) (d : DieSt) :
    d.takeBit a q b = { d with inBits := (d.takeBit a q b).inBits, inFirst := (d.takeBit a q b).inFirst } := by
  dsimp only [DieSt.takeBit]

theorem takeBits_kept {α : Type} (l : List α) (at_ : α → Nat) (q : BitVec 8) (bit : α → Bool) (d : DieSt) :
    l.foldl (fun d b => d.takeBit (at_ b) q (bit b)) d = { d with
      inBits := (l.foldl (fun d b => d.takeBit (at_ b) q (bit b)) d).inBits
      inFirst := (l.foldl (fun d b => d.takeBit (at_ b) q (bit b)) d).inFirst } := by
  induction l generalizing d with
  | nil => rfl
  | cons a l ih =>
    rw [List.foldl_cons, ih, takeBit_kept (at_ a) q (bit a) d]

theorem extractCarriage_gatheredOnly (p : Port) (s : State) : GatheredOnly s (extractCarriage p s) := by
  dsimp only [extractCarriage]
  split
  · split
    · split
      · exact .setDie s _ (f := fun d => { d with inBits := [], inFirst := none }) rfl
      · split
        · exact .setDie s _ (takeBits_kept _ _ _ _ _)
        · exact .refl s
    · exact .refl s
  · exact .refl s

theorem LoopKept.txOnly {p q : Port} {s u : State} (h : LoopKept p q s u) : u.ports[q] = { s.ports[q] with tx := u.ports[q].tx } := by
  unfold LoopKept at h
  split at h
  · rw [h]
  · rw [h]

theorem LoopKept.far {p q : Port} {s u : State} (h : LoopKept p q s u) (hq : q ≠ partnerPort p) : u.ports[q] = s.ports[q] := by
  unfold LoopKept at h
  rwa [if_neg (fun hc => hq hc.1)] at h

/-- What a port in follow drive sends is changed, and nothing else. -/
theorem followDrive_spec (p : Port) (l : List Pulse) (s : State) :
    SendOnly p s (followDrive p l s) ∧
      (s.ports[p].line.tx = .follow → (followDrive p l s).ports[p].tx = { s.ports[p].tx with follow := l }) := by
  unfold followDrive
  split
  · exact ⟨.setPort p s _, fun _ => by rw [State.setPort_port]⟩
  · rename_i h
    exact ⟨.refl p s, fun h' => absurd h' h⟩

/-- Slip buffer and counts of a lost frame number a frame as before. -/
theorem Slip.suspend_numberAt (x : Slip) (now : Nat) : x.suspend.numberAt now = x.numberAt now := rfl

/-- A frame was bad when its slip buffer or its receiver says so, or when it ended its alignment (R201). -/
theorem bad_of_shown {x y : PortSt} {lost : Bool} (hline : y.line = x.line) (ha : y.framer.aligned = (x.framer.aligned && !lost))
    (hs : y.slip = if lost then x.slip.suspend else x.slip) :
    (y.slip.badNow || receivesBad y) = (x.slip.badNow || x.line.los || x.line.ais || !x.framer.aligned || lost) := by
  rw [receivesBad, hline, ha, hs]
  cases lost with
  | true => simp [Slip.suspend]
  | false => simp [Bool.or_assoc]

theorem waiting_last {α : Type} (l : List α) (a : α) : ((l ++ [a]).drop (l.length + 1 - 5)).getLast? = some a := by
  rw [List.getLast?_drop, if_neg (by simp only [List.length_append, List.length_singleton]; omega), List.getLast?_concat]

theorem waiting_length {α : Type} (l : List α) (a : α) : ((l ++ [a]).drop (l.length + 1 - 5)).length = min 5 (l.length + 1) := by
  rw [List.length_drop, List.length_append, List.length_singleton]
  omega

/-- The changed pair, read by the index itself. -/
theorem State.setPair_pair (s : State) (g : PairId) (f : PairSt → PairSt) : (s.setPair g f).pairs[g] = f s.pairs[g] :=
  State.setPair_get_same s g f

/-- Nothing changed but the delay measured of the pairs, and whether it is confirmed. -/
def DelayOnly (s u : State) : Prop :=
  u = { s with pairs := u.pairs } ∧ ∀ g : PairId, u.pairs[g] = { s.pairs[g] with d := u.pairs[g].d, conf := u.pairs[g].conf }

theorem DelayOnly.setPair (s : State) (g : PairId) (d : PairSt → Int) (c : PairSt → Bool) :
    DelayOnly s (s.setPair g (fun x => { x with d := d x, conf := c x })) := by
  refine ⟨rfl, fun h => ?_⟩
  by_cases hg : h = g
  · rw [hg, State.setPair_pair]
  · rw [State.setPair_get_ne s _ hg]

theorem trackPair_delayOnly (p : Port) (s : State) : DelayOnly s (trackPair p s) := by
  dsimp only [trackPair]
  split
  · split
    · exact .setPair s _ PairSt.d _
    · exact .setPair s _ _ _
  · exact ⟨rfl, fun _ => rfl⟩

/-- Settles O23: the frame drives a port in follow drive, shows itself to the framer, is stored, gives its carriage bits, and is
returned by a line loop; the delay of its pair is measured. -/
theorem frameIsWritten : Obligations.FrameWritten := by
  unfold Obligations.FrameWritten
  rintro p w octets k s t rfl hrun rfl
  have heq : exec (.frameWrittenInLineTime p w k) s = .next (trackPair p (frameWritten p w (atTick k s))) := next_of_eq rfl
  refine ⟨trackPair p (frameWritten p w (atTick k s)), ?_⟩
  generalize ht : atTick k s = t at *
  obtain ⟨⟨hdrest, hdother, hdport⟩, hfollow⟩ := followDrive_spec p w.frame t
  generalize hd : followDrive p w.frame t = t0 at *
  generalize hoct : rxOctets t.ports[p] w = octets at *
  have hrun0 : t0.ports[p].line.running = true := by rw [hdport]; exact hrun
  have hshown := frameShows_shown (octets := octets) hrun0
  have hunaligned := frameShows_unaligned (p := p) (octets := octets) (s := t0)
  obtain ⟨f, hstored⟩ := storeFrame_stored p octets (frameShows p octets t0)
  have hgather := extractCarriage_gatheredOnly p (storeFrame p octets (frameShows p octets t0))
  have hsend := loopBack_sendOnly p (extractCarriage p (storeFrame p octets (frameShows p octets t0)))
  have htrack := trackPair_delayOnly p (frameWritten p w t)
  have hu : frameWritten p w t = loopBack p (extractCarriage p (storeFrame p octets (frameShows p octets t0))) := by
    unfold frameWritten writeFrame
    rw [hoct, hd, if_pos hrun0]
  rw [hu] at htrack heq ⊢
  generalize frameShows p octets t0 = t1 at *
  generalize storeFrame p octets t1 = t2 at *
  generalize extractCarriage p t2 = t3 at *
  generalize loopBack p t3 = t4 at *
  generalize trackPair p t4 = u at *
  have h5 : u.ports = t4.ports := by rw [htrack.1]
  have h3 : t3.ports = t2.ports := by rw [hgather.2]
  have hup : u.ports[p] = t2.ports[p] := by rw [h5, hsend.2.1 p (partnerPort_ne p).symm, h3]
  have hother : ∀ q, q ≠ p → u.ports[q] = { t.ports[q] with
      tx := u.ports[q].tx, slip := { t.ports[q].slip with nextOut := u.ports[q].slip.nextOut } } := by
    intro q hq
    rw [h5, hsend.port q, h3, hstored.others q hq, (hshown.only.2.1 q hq).txOnly, hdother q hq]
  have hnumber : f.number = t.ports[p].slip.numberAt t.now := by
    have hnow : t1.now = t.now := by rw [hshown.only.1, hdrest]; rfl
    rw [hstored.number, hnow, hshown.slip, hdport]
    split <;> rfl
  have hlost : framingLost t0.ports[p] octets = framingLost t.ports[p] octets := by rw [hdport]; rfl
  refine ⟨f, heq, by rw [hup]; exact hstored.head, hstored.content, hnumber, ?_, ?_, by rw [hup]; exact hstored.nextNo, ?_, ?_, ?_, ?_, ?_,
    hother, ?_, ?_, ?_, ?_⟩
  · rw [hstored.doneAt, hshown.only.1, hdrest]; rfl
  · rw [hstored.bad, bad_of_shown hshown.line hshown.aligned hshown.slip, hlost, hdport]
  · intro ha hl hf
    have ha1 : t1.ports[p].framer.aligned = true := by
      rw [hshown.aligned, hlost, hf, hdport, Bool.not_false, Bool.and_true]; exact ha
    have hs1 : t1.ports[p].slip = t.ports[p].slip := by
      rw [hshown.slip, hlost, hf, hdport]; rfl
    have hwait := hstored.waiting ha1 (by rw [hshown.line, hdport]; exact hl)
    rw [hs1] at hwait
    refine ⟨?_, ?_, fun h1 h2 => ?_⟩
    · rw [hup, hwait]; exact waiting_last _ f
    · rw [hup, hwait]; exact waiting_length _ f
    · rw [hup, hstored.frameNo ha1, hshown.line, hshown.frameNo (hlost.trans hf) (by rw [hdport]; exact h1) (by rw [hdport]; exact h2),
        hdport]
  · intro ha hcas hrai
    have he := hunaligned (by rw [hdport]; exact ha) (by rw [hdport]; exact hcas) (by rw [hdport]; exact hrai)
    rw [he] at hstored
    obtain ⟨hframer, hraw⟩ := hstored.hunting (by rw [hdport]; exact ha)
    rw [hup, hframer, hraw, hdport]
    exact ⟨rfl, rfl⟩
  · rw [hup, hstored.line, hshown.line, hdport]
  · intro hf
    rw [hup, hstored.tx, hshown.tx]
    exact hfollow hf
  · rw [hup, hstored.hinge, hshown.hinge, hdport]
  · intro q h1 h2
    rw [h5, hsend.2.1 q h2, h3, hstored.far q h1 h2, (hshown.only.2.1 q h1).far h2, hdother q h1]
  · intro g
    rw [htrack.2 g, hsend.1, hgather.2, hstored.rest, hshown.only.1, hdrest]
  · intro d
    have h0 : t2.die d = t.die d := by rw [hstored.rest, hshown.only.1, hdrest]; cases d <;> rfl
    have h4 : u.die d = t3.die d := by rw [htrack.1, hsend.1]; cases d <;> rfl
    rw [h4, hgather.1 d, h0]
  · rw [htrack.1, hsend.1, hgather.2, hstored.rest, hshown.only.1, hdrest]

end Sys2Proof.Machine
end

section
/-! SUPPORT. Analysers (R277 to R279), the links of a line die (R211, R214) and beats (R314, R318). -/

namespace Sys2Proof.Machine

/-! ### A definition in both engines -/

/-- A definition changed in both engines: that definition, the others, and the frame. -/
theorem mapPat_spec (i : PatId) (f : PatSt → PatSt) (s : State) :
    (∀ e, ((mapPat i f s).eng e).data.pats[i] = f (s.eng e).data.pats[i] ∧
      ∀ j, j ≠ i → ((mapPat i f s).eng e).data.pats[j] = (s.eng e).data.pats[j]) ∧
    mapPat i f s = { s with
      engX := { s.engX with data := { s.engX.data with pats := (mapPat i f s).engX.data.pats } }
      engY := { s.engY with data := { s.engY.data with pats := (mapPat i f s).engY.data.pats } } } := by
  refine ⟨fun e => ?_, rfl⟩
  cases e
  · exact ⟨updV_at s.engX.data.pats i f, fun j hj => updV_get_ne _ f hj⟩
  · exact ⟨updV_at s.engY.data.pats i f, fun j hj => updV_get_ne _ f hj⟩

/-- Settles O24: each transition acts on its definition in both engines, and where it is not due leaves it. -/
theorem analyserTransitions : Obligations.AnalyserTransitions := by
  unfold Obligations.AnalyserTransitions
  intro i s
  refine ⟨⟨_, rfl, ?_⟩, ⟨_, rfl, ?_⟩⟩
  · obtain ⟨hpat, hrest⟩ := mapPat_spec i (PatSt.enterSync (s.patDef i)) s
    refine ⟨fun e => ?_, hrest⟩
    obtain ⟨hi, hj⟩ := hpat e
    exact ⟨fun hd => hi.trans (if_pos hd), fun hd => hi.trans (if_neg hd), hj⟩
  · obtain ⟨hpat, hrest⟩ := mapPat_spec i (PatSt.loseSync (s.patDef i)) s
    refine ⟨fun e => ?_, hrest⟩
    obtain ⟨hi, hj⟩ := hpat e
    exact ⟨fun hd => hi.trans (if_pos hd), fun hd => hi.trans (if_neg hd), hj⟩

/-! ### The links of a line die -/

/-- Nothing changed but the links of line die `d` with engine `e`, of which link `l` is now `f` of what it was. -/
def LinkChanged (d : LineDie) (e : Eng) (l : LinkId) (f : Link → Link) (s u : State) : Prop :=
  ((u.die d).links e)[l] = f ((s.die d).links e)[l] ∧
    (∀ m, m ≠ l → ((u.die d).links e)[m] = ((s.die d).links e)[m]) ∧
    (u.die d).links e.other = (s.die d).links e.other ∧
    u = s.setDie d (fun x => { x with linkX := (u.die d).linkX, linkY := (u.die d).linkY })

theorem setLink_changed (d : LineDie) (e : Eng) (l : LinkId) (f : Link → Link) (s : State) :
    LinkChanged d e l f s (s.setDie d (fun x => x.setLink e l f)) := by
  cases d <;> cases e
  all_goals exact ⟨updV_at _ l f, fun m hm => updV_get_ne _ f hm, rfl, rfl⟩

/-- Settles O27: both are changes of one link. -/
theorem laneLock : Obligations.LaneLock := by
  unfold Obligations.LaneLock
  rintro d e l k s t rfl
  exact ⟨⟨_, rfl, setLink_changed d e l _ _⟩, ⟨_, rfl, setLink_changed d e l _ _⟩⟩

theorem cellArrives_badHeader {r : Receiver} {l : LinkId} {hdr : BitVec 64} {payload : List Byte} {s : State}
    (hr : s.receives r = true) (hh : hecGood hdr = false) : cellArrives r l hdr payload s = countHec r l s := by
  unfold cellArrives
  rw [if_neg (by rw [hr]; exact Bool.noConfusion), if_pos (by rw [hh]; rfl)]

/-- Settles O25: the header error is counted by its receiver. -/
theorem headerErrors : Obligations.HeaderErrors := by
  unfold Obligations.HeaderErrors
  rintro r l hdr payload k s t rfl hh hr
  refine ⟨_, next_of_eq (cellArrives_badHeader hr hh), ?_⟩
  generalize atTick k s = t at *
  cases r with
  | line d e => exact setLink_changed d e l _ t
  | engine e d =>
    have hdie : (countHec (.engine e d) l t).die d = (t.die d).setLink e l (fun k => { k with hecUp := k.hecUp + 1 }) := by
      cases e <;> cases d <;> rfl
    obtain ⟨h1, h2, h3, h4⟩ := setLink_changed d e l (fun k => { k with hecUp := k.hecUp + 1 }) t
    rw [State.setDie_get_same] at h1 h2 h3 h4
    dsimp only
    rw [hdie]
    refine ⟨h1, h2, h3, ?_⟩
    rw [← h4]
    rfl
  | engineKeeper e => rfl
  | keeper e => rfl

/-! ### Beats -/

theorem beatArrives_badHeader {d : LineDie} {e : Eng} {l : LinkId} {hdr : BitVec 64} {payload : List Byte} {s : State}
    (hr : s.receives (.line d e) = true) (hh : hecGood hdr = false) :
    beatArrives d e l hdr payload s = countHec (.line d e) l s := by
  unfold beatArrives
  rw [if_neg (by rw [hr]; exact Bool.noConfusion), if_pos (by rw [hh]; rfl)]

theorem beatArrives_beat {d : LineDie} {e : Eng} {l : LinkId} {hdr : BitVec 64} {payload : List Byte} {s : State}
    (hr : s.receives (.line d e) = true) (hh : hecGood hdr = true) (hc : (cellOf hdr payload).cls = .beat) :
    beatArrives d e l hdr payload s = takeBeat d e payload s := by
  unfold beatArrives
  rw [if_neg (by rw [hr]; exact Bool.noConfusion), if_neg (by rw [hh]; exact Bool.noConfusion), if_pos hc]

theorem State.setDie_get_ne {d d' : LineDie} (s : State) (h : d' ≠ d) (f : DieSt → DieSt) : (s.setDie d f).die d' = s.die d' := by
  cases d with
  | lda =>
    cases d' with
    | lda => exact absurd rfl h
    | ldb => rfl
  | ldb =>
    cases d' with
    | lda => rfl
    | ldb => exact absurd rfl h

/-- A claim of a line die's record of an engine, set with its tick. -/
theorem takeBeat_spec (d : LineDie) (e : Eng) (payload : List Byte) (s : State) :
    ((takeBeat d e payload s).die d).ofEng e = { (s.die d).ofEng e with
      beat := BitVec.ofNat 4 ((byteAt payload 0).toNat % 16), beatAt := s.now } ∧
    ((takeBeat d e payload s).die d).ofEng e.other = (s.die d).ofEng e.other ∧
    ((takeBeat d e payload s).eng e).tally = { (s.eng e).tally with
      disagreed := (s.eng e).tally.disagreed || (byteAt payload 0).toNat % 16 != (s.eng e).ctl.claim } ∧
    ((takeBeat d e payload s).eng e).ctl = (s.eng e).ctl ∧ ((takeBeat d e payload s).eng e).data = (s.eng e).data ∧
    (takeBeat d e payload s).eng e.other = s.eng e.other ∧ (∀ d', d' ≠ d → (takeBeat d e payload s).die d' = s.die d') ∧
    takeBeat d e payload s = { s with
      lda := (takeBeat d e payload s).lda, ldb := (takeBeat d e payload s).ldb
      engX := (takeBeat d e payload s).engX, engY := (takeBeat d e payload s).engY } := by
  have hb : (BitVec.ofNat 4 ((byteAt payload 0).toNat % 16)).toNat = (byteAt payload 0).toNat % 16 := by
    rw [BitVec.toNat_ofNat]; exact Nat.mod_mod _ _
  dsimp only [takeBeat]
  rw [hb]
  split
  · rename_i heq
    refine ⟨by cases d <;> cases e <;> rfl, by cases d <;> cases e <;> rfl, ?_, by cases d <;> cases e <;> rfl,
      by cases d <;> cases e <;> rfl, by cases d <;> cases e <;> rfl, fun d' hd => State.setDie_get_ne s hd _, by cases d <;> rfl⟩
    rw [heq, bne_self_eq_false, Bool.or_false]
    cases d <;> cases e <;> rfl
  · rename_i hne
    refine ⟨by cases d <;> cases e <;> rfl, by cases d <;> cases e <;> rfl, ?_, by cases d <;> cases e <;> rfl,
      by cases d <;> cases e <;> rfl, by cases d <;> cases e <;> rfl, fun d' hd => ?_, by cases d <;> cases e <;> rfl⟩
    · rw [bne_iff_ne.mpr hne, Bool.or_true]
      cases d <;> cases e <;> rfl
    · refine Eq.trans ?_ (State.setDie_get_ne s hd (fun x => x.setOfEng e (fun k => { k with
        beat := BitVec.ofNat 4 ((byteAt payload 0).toNat % 16), beatAt := s.now })))
      cases e <;> cases d' <;> rfl

/-- Settles O28: a beat sets what the die keeps of the engine, a bad header is counted, and a timeout clears the claim. -/
theorem beatsBringClaims : Obligations.Beats := by
  unfold Obligations.Beats
  rintro d e k s t rfl
  refine ⟨fun l hdr payload hr => ⟨fun hh hc => ⟨_, next_of_eq (beatArrives_beat hr hh hc), takeBeat_spec d e payload _⟩,
      fun hh => next_of_eq (beatArrives_badHeader hr hh)⟩,
    fun hdue => ⟨_, next_of_eq (if_pos hdue), ?_⟩, fun hnot => next_of_eq (if_neg (Nat.not_le.mpr hnot))⟩
  generalize atTick k s = t at *
  rw [State.setDie_get_same]
  refine ⟨by cases e <;> rfl, by cases e <;> rfl, ?_, ?_⟩
  · rw [effClaim]
    rw [State.setDie_get_same]
    split
    · rfl
    · cases e <;> exact Nat.min_zero _
  · exact ⟨(t.die d).setOfEng e (fun k => { k with beat := 0 }), by cases d <;> rfl⟩

end Sys2Proof.Machine
end

section
/-! SUPPORT. Resequencers: what is delivered leaves their flows alone (R215). -/

namespace Sys2Proof.Machine

/-! ### What leaves the flows of every receiver alone -/

/-- The resequencer flows of every receiver are as they were. -/
def FlowsKept (s u : State) : Prop := ∀ r, u.flowsAt r = s.flowsAt r

theorem FlowsKept.refl (s : State) : FlowsKept s s := fun _ => rfl

theorem FlowsKept.trans {s t u : State} (a : FlowsKept s t) (b : FlowsKept t u) : FlowsKept s u := fun r => (b r).trans (a r)

/-- The flows stand in the data of the engines, in the line dies and with the keeper. -/
theorem FlowsKept.of_parts {s u : State} (he : ∀ e, (u.eng e).data.flows = (s.eng e).data.flows)
    (hd : ∀ d, (u.die d).flowsX = (s.die d).flowsX ∧ (u.die d).flowsY = (s.die d).flowsY)
    (hk : u.duplex.flowsX = s.duplex.flowsX ∧ u.duplex.flowsY = s.duplex.flowsY) : FlowsKept s u := by
  intro r
  match r with
  | .engine e _ | .engineKeeper e => exact he e
  | .line d .ex => exact (hd d).1
  | .line d .ey => exact (hd d).2
  | .keeper .ex => exact hk.1
  | .keeper .ey => exact hk.2

theorem FlowsKept.setEng (s : State) (e : Eng) (f : EngSt → EngSt) (h : (f (s.eng e)).data.flows = (s.eng e).data.flows) :
    FlowsKept s (s.setEng e f) := by
  refine .of_parts (fun e' => ?_) (fun d => by cases e <;> exact ⟨rfl, rfl⟩) (by cases e <;> exact ⟨rfl, rfl⟩)
  cases e <;> cases e'
  · exact h
  · exact rfl
  · exact rfl
  · exact h

theorem FlowsKept.setData (s : State) (e : Eng) (f : EngData → EngData) (h : (f (s.eng e).data).flows = (s.eng e).data.flows) :
    FlowsKept s (s.setData e f) := .setEng s e _ h

theorem FlowsKept.setDie (s : State) (d : LineDie) (f : DieSt → DieSt)
    (h : (f (s.die d)).flowsX = (s.die d).flowsX ∧ (f (s.die d)).flowsY = (s.die d).flowsY) : FlowsKept s (s.setDie d f) := by
  refine .of_parts (fun e => by cases d <;> rfl) (fun d' => ?_) (by cases d <;> exact ⟨rfl, rfl⟩)
  cases d <;> cases d'
  · exact h
  · exact ⟨rfl, rfl⟩
  · exact ⟨rfl, rfl⟩
  · exact h

/-- A change of the state that reaches neither an engine nor a line die, and of the duplex part at most the mismatches. -/
theorem FlowsKept.of_outside {s u : State} (hx : u.engX = s.engX) (hy : u.engY = s.engY) (ha : u.lda = s.lda) (hb : u.ldb = s.ldb)
    (hk : u.duplex.flowsX = s.duplex.flowsX ∧ u.duplex.flowsY = s.duplex.flowsY) : FlowsKept s u :=
  .of_parts ((fun | .ex => congrArg (·.data.flows) hx | .ey => congrArg (·.data.flows) hy))
    ((fun | .lda => ⟨congrArg (·.flowsX) ha, congrArg (·.flowsY) ha⟩ | .ldb => ⟨congrArg (·.flowsX) hb, congrArg (·.flowsY) hb⟩)) hk

theorem countSelect_flows (e : Eng) (ev : SelEvent) (n : Nat) (c : Cell) (s : State) : FlowsKept s (countSelect e ev n c s) := by
  unfold countSelect countCell
  split
  · exact .refl s
  · exact .setData s e _ rfl

/-- Counting an event first leaves the flows alone when the rest does. -/
theorem FlowsKept.after_count {e : Eng} {ev : SelEvent} {n : Nat} {c : Cell} {s u : State} (h : FlowsKept (countSelect e ev n c s) u) :
    FlowsKept s u := (countSelect_flows e ev n c s).trans h

theorem enqueueCircuit_flows (w : Nat) (q : QCell) (d : EngData) : (enqueueCircuit w q d).flows = d.flows := by
  dsimp only [enqueueCircuit, markCircuit]
  split <;> rfl

theorem enqueuePacket_flows (w : Nat) (q : QCell) (d : EngData) : (enqueuePacket w q d).flows = d.flows := by
  dsimp only [enqueuePacket, markPacket]
  split <;> rfl

theorem endOpen_flows (w : Flow) (d : EngData) : (endOpen w d).flows = d.flows := by
  unfold endOpen
  split <;> rfl

theorem discardOpen_flows (w : Flow) (last : Bool) (d : EngData) : (discardOpen w last d).flows = d.flows := by
  unfold discardOpen
  split
  · exact endOpen_flows w d
  · rfl

/-! ### The input stage and the packet class of an engine -/

theorem inputStage_flows (e : Eng) (c : Cell) (s : State) : FlowsKept s (inputStage e c s) := by
  dsimp only [inputStage]
  split
  · dsimp only [compareProof]
    split
    · exact .setEng s e _ rfl
    · exact .refl s
  · split
    · exact forEach_rel (R := FlowsKept) .refl .trans _ _ (fun k t => .setData t e _ (enqueueCircuit_flows _ _ _)) s
    · exact .refl s

theorem cutFrame_flows (e : Eng) (w : Flow) (s : State) : FlowsKept s (cutFrame e w s) := by
  unfold cutFrame
  split
  · exact .refl s
  · split
    · exact .refl s
    · exact .setData s e _ rfl

theorem packetGap_flows (e : Eng) (w : Flow) (c : Cell) (s : State) : FlowsKept s (packetGap e w c s) := by
  unfold packetGap
  split
  · split
    · exact .refl s
    · exact (cutFrame_flows e w s).trans (countSelect_flows _ _ _ _ _)
  · exact .refl s

theorem takePacket_flows (e : Eng) (c : Cell) (s : State) : FlowsKept s (takePacket e c s) := by
  have count : ∀ (b : Bool) (ev : SelEvent) (x : Cell) (t : State), FlowsKept t (if b then countSelect e ev 1 x t else t) := by
    intro b ev x t
    split
    · exact countSelect_flows e ev 1 x t
    · exact .refl t
  dsimp only [takePacket]
  split
  · exact .refl s
  · rename_i f _
    split
    · have hgap : FlowsKept s (if f.gap then s else countSelect e .dropped 1 c s) := by
        split
        · exact .refl s
        · exact countSelect_flows e .dropped 1 c s
      generalize (if f.gap then s else countSelect e .dropped 1 c s) = t at hgap
      refine hgap.trans ?_
      split
      · exact .setData _ e _ (endOpen_flows _ _)
      · exact .refl _
    · split
      · split
        · exact .after_count (.setData _ e _ rfl)
        · exact (count _ _ _ s).trans ((count _ _ _ _).trans (.setData _ e _ (enqueuePacket_flows _ _ _)))
      · refine .after_count (e := e) (ev := .dropped) (n := 1) (c := c) ?_
        split
        · exact .setData _ e _ (discardOpen_flows _ _ _)
        · exact .after_count (.setData _ e _ (discardOpen_flows _ _ _))

theorem packetStage_flows (e : Eng) (c : Cell) (s : State) : FlowsKept s (packetStage e c s) := by
  dsimp only [packetStage]
  split
  · exact .refl s
  · split
    · refine FlowsKept.trans (t := match openFrame (s.eng e).data (flowOf c) with
        | some f => (if f.discard then s else countSelect e .badTail 1 c (cutFrame e (flowOf c) s)).setData e (endOpen (flowOf c))
        | none => s) ?_ ((FlowsKept.setData _ e _ rfl).trans (takePacket_flows e c _))
      split
      · refine FlowsKept.trans ?_ (.setData _ e _ (endOpen_flows _ _))
        split
        · exact .refl s
        · exact (cutFrame_flows e _ s).trans (countSelect_flows _ _ _ _ _)
      · exact .refl s
    · exact takePacket_flows e c s

/-! ### Latches, the access point and the keeper -/

theorem latchCell_flows (d : LineDie) (e : Eng) (c : Cell) (s : State) : FlowsKept s (latchCell d e c s) := by
  have hlatch : ∀ p f, FlowsKept s (s.setLatch p f) := fun p f => .of_outside rfl rfl rfl rfl ⟨rfl, rfl⟩
  dsimp only [latchCell]
  split
  · split
    · exact .after_count (.setEng _ e _ rfl)
    · split
      · split
        · exact (hlatch _ _).trans (.of_outside rfl rfl rfl rfl ⟨rfl, rfl⟩)
        · exact hlatch _ _
      · exact hlatch _ _
  · exact .refl s

theorem abortFrame_flows (x : DieSt) : x.abortFrame.flowsX = x.flowsX ∧ x.abortFrame.flowsY = x.flowsY := by
  unfold DieSt.abortFrame
  split <;> exact ⟨rfl, rfl⟩

theorem accessGap_flows (d : LineDie) (e : Eng) (c : Cell) (s : State) : FlowsKept s (accessGap d e c s) := by
  dsimp only [accessGap]
  split
  · exact (FlowsKept.setDie s d _ (abortFrame_flows _)).trans (countSelect_flows _ _ _ _ _)
  · exact .refl s

theorem accessPoint_flows (d : LineDie) (e : Eng) (c : Cell) (s : State) : FlowsKept s (accessPoint d e c s) := by
  dsimp only [accessPoint]
  split
  · exact .refl s
  · split
    · exact (FlowsKept.setDie s d _ (abortFrame_flows _)).trans (countSelect_flows _ _ _ _ _)
    · refine .setDie s d _ ?_
      have hy : (if c.isFirst then (s.die d).abortFrame.openFrame else s.die d).flowsX = (s.die d).flowsX ∧
          (if c.isFirst then (s.die d).abortFrame.openFrame else s.die d).flowsY = (s.die d).flowsY := by
        split
        · exact abortFrame_flows _
        · exact ⟨rfl, rfl⟩
      generalize (if c.isFirst then (s.die d).abortFrame.openFrame else s.die d) = y at hy
      split
      · exact hy
      · split
        · exact ⟨(abortFrame_flows _).1.trans hy.1, (abortFrame_flows _).2.trans hy.2⟩
        · split <;> exact hy

theorem keeperGap_flows (e : Eng) (c : Cell) (s : State) : FlowsKept s (keeperGap e c s) := by
  unfold keeperGap
  split
  · exact FlowsKept.trans (t := dropInbound s) (.of_outside rfl rfl rfl rfl ⟨rfl, rfl⟩) (countSelect_flows _ _ _ _ _)
  · exact .refl s

theorem keeperCell_flows (e : Eng) (c : Cell) (s : State) : FlowsKept s (keeperCell e c s) := by
  unfold keeperCell
  split
  · exact .refl s
  · split <;> exact .of_outside rfl rfl rfl rfl ⟨rfl, rfl⟩

/-! ### Delivery -/

theorem packetRelease_flows {gap take : Cell → State → State} (hg : ∀ c s, FlowsKept s (gap c s)) (ht : ∀ c s, FlowsKept s (take c s))
    (l : List Cell) (n : BitVec 16) (s : State) : FlowsKept s (packetRelease gap take l n s) := by
  induction l generalizing n s with
  | nil => exact .refl s
  | cons c l ih =>
    dsimp only [packetRelease]
    refine FlowsKept.trans ?_ ((ht c _).trans (ih _ _))
    split
    · exact .refl s
    · exact hg c s

theorem deliver_flows (r : Receiver) (w : Flow) (q : BitVec 16) (l : List Cell) (s : State) : FlowsKept s (deliver r w q l s) := by
  unfold deliver
  split
  · exact forEach_rel (R := FlowsKept) .refl .trans _ _ (inputStage_flows _) s
  · exact packetRelease_flows (packetGap_flows _ w) (packetStage_flows _) l q s
  · exact packetRelease_flows (packetGap_flows _ w) (packetStage_flows _) l q s
  · exact forEach_rel (R := FlowsKept) .refl .trans _ _ (latchCell_flows _ _) s
  · exact packetRelease_flows (accessGap_flows _ _) (accessPoint_flows _ _) l q s
  · exact packetRelease_flows (keeperGap_flows _) (keeperCell_flows _) l q s
  · exact .refl s

theorem deliver_nil (r : Receiver) (w : Flow) (q : BitVec 16) (s : State) : deliver r w q [] s = s := by
  unfold deliver
  split <;> rfl

/-! ### An arriving cell -/

theorem setFlows_flowsAt (s : State) (r : Receiver) (l : List FlowSt) : (s.setFlows r l).flowsAt r = l := by
  match r with
  | .engine e _ | .engineKeeper e => cases e <;> rfl
  | .line d .ex | .line d .ey => cases d <;> rfl
  | .keeper .ex | .keeper .ey => rfl

theorem found_flow {l : List FlowSt} {w : Flow} {f : FlowSt} (h : l.find? (fun x => x.flow == w) = some f) : f.flow = w := by
  have hf := List.find?_some h
  exact eq_of_beq hf

/-- The flow of a cell is the cell's own. -/
theorem flowFor_flow (l : List FlowSt) (c : Cell) : (flowFor l c).flow = flowOf c := by
  unfold flowFor
  cases h : l.find? (fun f => f.flow == flowOf c) with
  | none => rfl
  | some f => exact found_flow h

/-- A flow put back is the one found for it. -/
theorem putFlow_find (f : FlowSt) (l : List FlowSt) {w : Flow} (h : f.flow = w) : (putFlow f l).find? (fun g => g.flow == w) = some f := by
  unfold putFlow
  exact List.find?_cons_of_pos (by rw [h]; exact beq_self_eq_true w)

theorem flowFor_putFlow {f : FlowSt} (l : List FlowSt) {c : Cell} (h : f.flow = flowOf c) : flowFor (putFlow f l) c = f := by
  rw [flowFor, putFlow_find f l h]
  rfl

theorem cellArrives_circuit_packet {r : Receiver} {l : LinkId} {hdr : BitVec 64} {payload : List Byte} {s : State}
    (hr : s.receives r = true) (hh : hecGood hdr = true)
    (hc : (cellOf hdr payload).cls = .circuit ∨ (cellOf hdr payload).cls = .packet) :
    cellArrives r l hdr payload s = resequence r (cellOf hdr payload) s := by
  dsimp only [cellArrives]
  rw [if_neg (by rw [hr]; exact Bool.noConfusion), if_neg (by rw [hh]; exact Bool.noConfusion)]
  rcases hc with hc | hc <;> rw [hc]

/-- A number does not lie below itself. -/
theorem seqBelow_self (a : BitVec 16) : seqBelow a a = false := by
  rw [seqBelow, seqAbove, BitVec.sub_self]
  rfl

theorem FlowSt.arrive_late {c : Cell} {now : Nat} {f : FlowSt} (h : seqBelow c.seq f.next = true) :
    f.arrive c now = ⟨true, [], f⟩ := if_pos h

theorem FlowSt.arrive_ahead {c : Cell} {now : Nat} {f : FlowSt} (h : seqBelow c.seq f.next = false) (hn : c.seq ≠ f.next) :
    f.arrive c now = ⟨false, [], { f with held := insertHeld f.next ⟨c, now⟩ f.held }⟩ := by
  unfold FlowSt.arrive
  rw [if_neg (by rw [h]; exact Bool.noConfusion), if_neg hn]

theorem FlowSt.arrive_in_turn {c : Cell} {now : Nat} {f : FlowSt} (h : c.seq = f.next) :
    (f.arrive c now).late = false ∧
      (f.arrive c now).flow = { f with next := (drainHeld f.held (f.next + 1)).2.2, held := (drainHeld f.held (f.next + 1)).2.1 } := by
  unfold FlowSt.arrive
  rw [if_neg (by rw [h, seqBelow_self]; exact Bool.noConfusion), if_pos h]
  exact ⟨rfl, rfl⟩

theorem FlowSt.expire_flow (now : Nat) (f : FlowSt) : (f.expire now).flow.flow = f.flow := by
  unfold FlowSt.expire
  split <;> rfl

/-- Settles O26: by what the flow makes of the cell; what it releases is delivered, which leaves the flow alone. -/
theorem cellsResequenced : Obligations.CellsResequenced := by
  unfold Obligations.CellsResequenced
  refine ⟨?_, ?_⟩
  · rintro r l hdr payload k s t c f rfl hr hh rfl hc rfl
    have harr := cellArrives_circuit_packet (l := l) hr hh hc
    generalize cellOf hdr payload = c at *
    have hflow := flowFor_flow ((atTick k s).flowsAt r) c
    refine ⟨fun hl => next_of_eq (harr.trans ?_), fun hl hn => next_of_eq (harr.trans ?_), fun hn => ⟨_, next_of_eq harr, ?_⟩⟩
    · dsimp only [resequence]
      rw [FlowSt.arrive_late hl]
      rfl
    · dsimp only [resequence]
      rw [FlowSt.arrive_ahead hl hn]
      exact deliver_nil _ _ _ _
    · obtain ⟨hlate, hq⟩ := FlowSt.arrive_in_turn (now := (atTick k s).now) hn
      have he : resequence r c (atTick k s) = _ := if_neg (by rw [hlate]; exact Bool.noConfusion)
      refine ⟨?_, .of_kept (kept_resequence r c _), ?_, pos_of_clock (clock_resequence r c _)⟩
      · rw [he, deliver_flows, setFlows_flowsAt, hq]
        exact flowFor_putFlow _ hflow
      · obtain ⟨_, _, _, _, _, htap, _⟩ := kept_parts (kept_resequence r c (atTick k s))
        exact htap
  · rintro r w k s t rfl
    refine ⟨fun f hf => ⟨_, rfl, ?_, .of_kept (kept_resequencerExpires r w _), pos_of_clock (clock_resequencerExpires r w _)⟩,
      fun hf => next_of_eq ?_⟩
    · unfold resequencerExpires
      rw [hf]
      dsimp only
      rw [deliver_flows, setFlows_flowsAt]
      exact putFlow_find _ _ ((FlowSt.expire_flow _ f).trans (found_flow hf))
    · unfold resequencerExpires
      rw [hf]

end Sys2Proof.Machine
end

section
/-! SUPPORT. Rally cells (R309, R319 to R323) and frames lifted at the access point (R199, R237, R372). -/

namespace Sys2Proof.Machine

/-! ### Launch -/

/-- Rally cell `r` of frame `n` that line die `d` has sent to engine `e`, due there at tick `due`. -/
def sentRally (d : LineDie) (r : Fin 2) (n due : Nat) (e : Eng) : Rally :=
  { die := d, r := r, eng := e, number := n, stage := .atEngine, due := due }

/-- Line die `d` sends rally cell `r` of frame `n` to engine `e`, if the engine runs. -/
def sendRally (d : LineDie) (r : Fin 2) (n due : Nat) (e : Eng) (t : State) : State :=
  if (t.eng e).ctl.running then
    { pushUp d e r (rallyCell d r.val e n) t with duplex := { t.duplex with rallies := sentRally d r n due e :: t.duplex.rallies } }
  else t

theorem launchRally_eq {d : LineDie} (r : Fin 2) {s : State} (h : (s.die d).works = true) :
    launchRally d r s = sendRally d r s.pos.frames (s.now + 4) .ey (sendRally d r s.pos.frames (s.now + 4) .ex s) := by
  unfold launchRally
  rw [if_pos h]
  cases d <;> rfl

section
variable (d : LineDie) (r : Fin 2) (n due : Nat) (e : Eng) (t : State)

/-- An engine that runs is sent the cell on the link of its number, and no other link changes. -/
theorem sendRally_of_running (h : (t.eng e).ctl.running = true) :
    (sendRally d r n due e t).duplex.rallies = sentRally d r n due e :: t.duplex.rallies ∧
      (((sendRally d r n due e t).die d).links e)[r].up = ((t.die d).links e)[r].up.push linkSpan (rallyCell d r.val e n) := by
  unfold sendRally
  rw [if_pos h]
  refine ⟨rfl, ?_⟩
  have hu := (setLink_changed d e r (fun k => { k with up := k.up.push linkSpan (rallyCell d r.val e n) }) t).1
  exact (congrArg Link.up hu).trans rfl

theorem sendRally_of_idle (h : (t.eng e).ctl.running = false) : sendRally d r n due e t = t :=
  if_neg (by rw [h]; exact Bool.noConfusion)

theorem sendRally_eng (x : Eng) : (sendRally d r n due e t).eng x = t.eng x := by
  unfold sendRally
  split
  · cases d <;> cases x <;> rfl
  · rfl

theorem sendRally_links_other : ((sendRally d r n due e t).die d).links e.other = (t.die d).links e.other := by
  unfold sendRally
  split
  · exact (setLink_changed d e r (fun k => { k with up := k.up.push linkSpan (rallyCell d r.val e n) }) t).2.2.1
  · rfl

theorem sendRally_rallies : ∀ y, y ∈ (sendRally d r n due e t).duplex.rallies ↔
    y ∈ t.duplex.rallies ∨ ((t.eng e).ctl.running = true ∧ y = sentRally d r n due e) := by
  intro y
  cases h : (t.eng e).ctl.running with
  | false => simp [sendRally_of_idle d r n due e t h]
  | true => rw [(sendRally_of_running d r n due e t h).1, List.mem_cons, or_comm]; simp

/-- Sending rally cells changes the line die and the list of those on their way. -/
theorem sendRally_frame :
    sendRally d r n due e t = { t with
      lda := (sendRally d r n due e t).lda, ldb := (sendRally d r n due e t).ldb
      duplex := { t.duplex with rallies := (sendRally d r n due e t).duplex.rallies } } ∧
    OnlyDie d t { sendRally d r n due e t with duplex := t.duplex } := by
  unfold sendRally
  split
  · exact ⟨by cases d <;> rfl, (t.die d).setLink e r (fun k => { k with up := k.up.push linkSpan (rallyCell d r.val e n) }), by cases d <;> rfl⟩
  · exact ⟨by cases d <;> rfl, t.die d, by cases d <;> rfl⟩

end

theorem OnlyDie.trans {d : LineDie} {s t u : State} (a : OnlyDie d s t) (b : OnlyDie d t u) : OnlyDie d s u := by
  obtain ⟨x, rfl⟩ := a
  obtain ⟨y, rfl⟩ := b
  exact ⟨y, by cases d <;> rfl⟩

/-- Settles O30: the cell is sent to one engine and then to the other, each if it runs. -/
theorem rallyLaunched : Obligations.RallyLaunched := by
  unfold Obligations.RallyLaunched
  rintro d r s t rfl
  refine ⟨fun hw => ⟨_, next_of_eq (launchRally_eq r hw), ?_⟩, fun hw => next_of_eq (if_neg (by rw [hw]; exact Bool.noConfusion))⟩
  generalize atTick _ s = t at *
  generalize t.pos.frames = n
  generalize t.now + 4 = due
  obtain ⟨hf1, ho1⟩ := sendRally_frame d r n due .ex t
  have hm1 := sendRally_rallies d r n due .ex t
  have heng := sendRally_eng d r n due .ex t
  have hl1 := sendRally_links_other d r n due .ex t
  have hr1 := sendRally_of_running d r n due .ex t
  have hi1 := sendRally_of_idle d r n due .ex t
  generalize sendRally d r n due .ex t = v at *
  obtain ⟨hf2, ho2⟩ := sendRally_frame d r n due .ey v
  have hm2 := sendRally_rallies d r n due .ey v
  have hl2 := sendRally_links_other d r n due .ey v
  have hr2 := sendRally_of_running d r n due .ey v
  have hi2 := sendRally_of_idle d r n due .ey v
  rw [heng] at hr2 hi2 hm2
  generalize sendRally d r n due .ey v = u at *
  have hlx : (u.die d).links .ex = (v.die d).links .ex := hl2
  have hly : (v.die d).links .ey = (t.die d).links .ey := hl1
  refine ⟨fun e he => ?_, fun e he => ?_, fun y hy => (hm2 y).mpr (.inl ((hm1 y).mpr (.inl hy))), fun y hy => ?_, by rw [hf2, hf1], ?_⟩
  · cases e
    · exact ⟨(hm2 _).mpr (.inl ((hm1 _).mpr (.inr ⟨he, rfl⟩))), by rw [hlx]; exact (hr1 he).2⟩
    · exact ⟨(hm2 _).mpr (.inr ⟨he, rfl⟩), by rw [(hr2 he).2, hly]⟩
  · cases e
    · rw [hlx, hi1 he]
    · rw [hi2 he, hly]
  · rcases (hm2 y).mp hy with h | ⟨hrun, rfl⟩
    · rcases (hm1 y).mp h with h | ⟨hrun, rfl⟩
      · exact .inl h
      · exact .inr ⟨rfl, rfl, hrun⟩
    · exact .inr ⟨rfl, rfl, hrun⟩
  · refine OnlyDie.trans ho1 ?_
    obtain ⟨x, hx⟩ := ho2
    refine ⟨x, ?_⟩
    have : { u with duplex := t.duplex } = { ({ u with duplex := v.duplex } : State) with duplex := t.duplex } := rfl
    rw [this, hx]
    cases d <;> rfl

/-! ### Failure -/

theorem rallyFailsAtEngine_spec (e : Eng) (s : State) :
    ((rallyFailsAtEngine e s).eng e).ctl.health = 0 ∧ ((rallyFailsAtEngine e s).eng e).ctl.rallyFail = true ∧
      (0 < (s.eng e).ctl.health → ((rallyFailsAtEngine e s).eng e).ctl.cause = 1) ∧
      (rallyFailsAtEngine e s).eng e.other = s.eng e.other ∧ ((rallyFailsAtEngine e s).eng e).data = (s.eng e).data ∧
      (rallyFailsAtEngine e s).duplex.fell = (if s.holds e = true ∧ 0 < (s.eng e).ctl.health then 1 else s.duplex.fell) ∧
      rallyFailsAtEngine e s = { s with
        engX := (rallyFailsAtEngine e s).engX, engY := (rallyFailsAtEngine e s).engY
        duplex := { s.duplex with fell := (rallyFailsAtEngine e s).duplex.fell } } := by
  unfold rallyFailsAtEngine lowerHealth
  split
  · rename_i hpos
    have hfell : (if s.holds e = true ∧ 0 < (s.eng e).ctl.health then 1 else s.duplex.fell) =
        if s.holds e then Cause.rally.code else s.duplex.fell := by
      simp only [hpos, and_true]
      rfl
    rw [noteFall_eq, hfell]
    generalize (if s.holds e then Cause.rally.code else s.duplex.fell) = n
    cases e <;> exact ⟨rfl, rfl, fun _ => rfl, rfl, rfl, rfl, rfl⟩
  · rename_i hzero
    have h0 : (s.eng e).ctl.health = 0 := Nat.le_zero.mp (Nat.not_lt.mp hzero)
    refine ⟨?_, by cases e <;> rfl, fun h => absurd h hzero, by cases e <;> rfl, by cases e <;> rfl, ?_, by cases e <;> rfl⟩
    · cases e <;> exact h0
    · rw [if_neg (fun h => hzero h.2)]
      cases e <;> rfl

/-- A failure that a line die holds against an engine takes its claim there away (R323). -/
theorem rallyFailsAtDie_spec (d : LineDie) (e : Eng) (s : State) :
    (((rallyFailsAtDie d e s).die d).ofEng e).hold = true ∧ effClaim (rallyFailsAtDie d e s) d e = 0 ∧
      OnlyDie d s (rallyFailsAtDie d e s) := by
  have hhold : (((rallyFailsAtDie d e s).die d).ofEng e).hold = true := by cases d <;> cases e <;> rfl
  exact ⟨hhold, if_pos hhold, (s.die d).setOfEng e (fun k => { k with hold := true, failedNow := true, passRun := 0 }), by cases d <;> rfl⟩

/-- Settles O31: the cell found past its deadline fails at the stage it stands in, and a failure held is one of the engine. -/
theorem rallyFailures : Obligations.RallyFailures := by
  unfold Obligations.RallyFailures
  rintro d e k s t rfl
  refine ⟨fun r y hy => ⟨_, rfl, ?_⟩, fun r y hy => ⟨_, rfl, ?_⟩, fun hh => ⟨_, next_of_eq (if_pos hh), ?_⟩,
    fun hh => next_of_eq (if_neg (by rw [hh]; exact Bool.noConfusion))⟩
  · generalize atTick k s = t at *
    have he : rallyExpires d r e .atEngine t =
        rallyFailsAtEngine e { t with duplex := { t.duplex with rallies := y.onward :: t.duplex.rallies.erase y } } := by
      unfold rallyExpires
      rw [hy]
    rw [he]
    obtain ⟨h1, h2, h3, h4, h5, h6, h7⟩ := rallyFailsAtEngine_spec e
      { t with duplex := { t.duplex with rallies := y.onward :: t.duplex.rallies.erase y } }
    generalize rallyFailsAtEngine e _ = u at *
    have heng : ∀ x, ({ t with duplex := { t.duplex with rallies := y.onward :: t.duplex.rallies.erase y } } : State).eng x = t.eng x :=
      fun x => by cases x <;> rfl
    rw [heng] at h3 h4 h5 h6
    exact ⟨h1, h2, h3, by rw [h7]; rfl, h4, h5, h6, by rw [h7]⟩
  · generalize atTick k s = t at *
    have he : rallyExpires d r e .atDie t = rallyFailsAtDie (rallyReturn y.number y.r.val) e
        { t with duplex := { t.duplex with rallies := t.duplex.rallies.erase y } } := by
      unfold rallyExpires
      rw [hy]
    rw [he]
    generalize rallyReturn y.number y.r.val = d'
    obtain ⟨h1, h2, x, h3⟩ := rallyFailsAtDie_spec d' e { t with duplex := { t.duplex with rallies := t.duplex.rallies.erase y } }
    generalize rallyFailsAtDie d' e _ = u at *
    have hduplex : u.duplex = { t.duplex with rallies := t.duplex.rallies.erase y } := by rw [h3]; cases d' <;> rfl
    exact ⟨h1, h2, by rw [hduplex], ⟨x, by rw [h3]; cases d' <;> rfl⟩, by rw [hduplex]⟩
  · obtain ⟨h1, h2, h3, h4, h5, h6, h7⟩ := rallyFailsAtEngine_spec e (atTick k s)
    exact ⟨h1, h2, h3, h4, h5, h6, h7⟩

/-! ### Lifted frames -/

/-- Ports and the duplex part are as they were, and each line die's packet cell number and the tick kept of a TIME. -/
def CellsSent (s u : State) : Prop :=
  u.ports = s.ports ∧ u.duplex = s.duplex ∧ ∀ d, (u.die d).packetSeq = (s.die d).packetSeq ∧ (u.die d).inStamp = (s.die d).inStamp

theorem CellsSent.refl (s : State) : CellsSent s s := ⟨rfl, rfl, fun _ => ⟨rfl, rfl⟩⟩

theorem CellsSent.trans {s t u : State} (a : CellsSent s t) (b : CellsSent t u) : CellsSent s u :=
  ⟨b.1.trans a.1, b.2.1.trans a.2.1, fun d => ⟨(b.2.2 d).1.trans (a.2.2 d).1, (b.2.2 d).2.trans (a.2.2 d).2⟩⟩

theorem CellsSent.setData (s : State) (e : Eng) (f : EngData → EngData) : CellsSent s (s.setData e f) :=
  ⟨by cases e <;> rfl, by cases e <;> rfl, fun d => by cases e <;> cases d <;> exact ⟨rfl, rfl⟩⟩

theorem sprayUp_cellsSent (d : LineDie) (e : Eng) (c : Cell) (s : State) : CellsSent s (sprayUp d e c s) := by
  unfold sprayUp
  split
  · exact .refl s
  · exact ⟨by cases d <;> rfl, by cases d <;> rfl, fun d' => by cases d <;> cases d' <;> cases e <;> exact ⟨rfl, rfl⟩⟩

theorem countSelect_cellsSent (e : Eng) (ev : SelEvent) (n : Nat) (c : Cell) (s : State) : CellsSent s (countSelect e ev n c s) := by
  unfold countSelect countCell
  split
  · exact .refl s
  · exact .setData s e _

/-- What a lifted frame of these octets adds to the number of the die's packet cells. -/
def liftedCells (octets : List Byte) : BitVec 16 := if 256 < octets.length then 0 else BitVec.ofNat 16 (cellsOfOctets octets.length)

/-- A lifted frame's cells take their numbers, and are sent, or the frame is counted as bad. -/
theorem liftFrame_sent (p : Port) (octets : List Byte) (aborted : Bool) (s : State) :
    CellsSent (s.setDie (dieOf p) (fun x => { x with packetSeq := x.packetSeq + liftedCells octets })) (liftFrame p octets aborted s) := by
  have hzero : liftedCells octets = 0 → s.setDie (dieOf p) (fun x => { x with packetSeq := x.packetSeq + liftedCells octets }) = s := by
    intro h
    rw [h]
    simp only [BitVec.ofNat_eq_ofNat, BitVec.add_zero]
    cases dieOf p <;> rfl
  dsimp only [liftFrame]
  split
  · split
    · rename_i hlong
      rw [hzero (if_pos hlong)]
      refine forEach_rel (R := CellsSent) .refl .trans _ _ (fun e t => ?_) s
      split
      · split
        · exact countSelect_cellsSent _ _ _ _ t
        · exact .refl t
      · exact .refl t
    · rename_i hshort
      have hstart : s.setDie (dieOf p) (fun x => { x with packetSeq := x.packetSeq + liftedCells octets }) =
          s.setDie (dieOf p) (fun x => { x with
            packetSeq := (s.die (dieOf p)).packetSeq + BitVec.ofNat 16 (cellsOfOctets octets.length) }) := by
        rw [liftedCells, if_neg hshort]
        cases dieOf p <;> rfl
      rw [hstart]
      refine forEach_rel (R := CellsSent) .refl .trans _ _ (fun e t => ?_) _
      split
      · exact forEach_rel (R := CellsSent) .refl .trans _ _ (fun c u => sprayUp_cellsSent _ e _ u) t
      · exact .refl t
  · rename_i hnone
    have hempty : octets = [] := by simpa using hnone
    rw [hzero (by rw [hempty]; rfl)]
    exact .refl s

theorem frameLifted_of_none {p : Port} {bits : List Bool} {s : State} (h : deframe ((s.die (dieOf p)).inBits ++ bits) = none) :
    frameLifted p bits s = s := by
  unfold frameLifted
  split
  · rw [h]
  · rfl

/-- Settles O32: the frame that ends is stamped if it is a TIME, and its cells take the die's next numbers. -/
theorem liftedFrame : Obligations.LiftedFrame := by
  unfold Obligations.LiftedFrame
  rintro p bits k s t rfl
  refine ⟨fun hon hport hopen => ⟨fun octets aborted hd => ⟨_, rfl, ?_⟩, fun hd => next_of_eq (frameLifted_of_none hd)⟩,
    fun h => next_of_eq (if_neg ?_)⟩
  · have hkept := kept_frameLifted p bits (atTick k s)
    have he : frameLifted p bits (atTick k s) =
        liftFrame p octets aborted ((atTick k s).setDie (dieOf p) (DieSt.stampTime octets)) := by
      unfold frameLifted
      rw [if_pos (by rw [hon, hopen, ← hport, beq_self_eq_true]; rfl), hd]
    rw [he] at hkept ⊢
    generalize atTick k s = t at *
    obtain ⟨hports, hduplex, hdie⟩ := liftFrame_sent p octets aborted (t.setDie (dieOf p) (DieSt.stampTime octets))
    obtain ⟨hseq, hstamp⟩ := hdie (dieOf p)
    rw [State.setDie_get_same, State.setDie_get_same] at hseq hstamp
    refine ⟨hseq.trans ?_, fun h24 h3 => hstamp.trans ?_, hports.trans ?_, hduplex.trans ?_, .of_kept hkept⟩
    · unfold DieSt.stampTime
      split <;> rfl
    · unfold DieSt.stampTime
      rw [if_pos ⟨h24, h3⟩]
    · rw [State.setDie_ports, State.setDie_ports]
    · rw [State.setDie_duplex, State.setDie_duplex]
  · rcases h with h | h
    · rw [h]; exact Bool.noConfusion
    · rw [beq_eq_false_iff_ne.mpr h, Bool.and_false]; exact Bool.noConfusion

end Sys2Proof.Machine
end

section
/-! SUPPORT. Line protection: selection words, the differential delay, hold-off and wait-to-restore (R254 to R261). -/

namespace Sys2Proof.Machine

/-! ### Selection words and the differential delay -/

theorem mem_all16 (g : Fin 16) : g ∈ all16 := by revert g; decide

/-- The words of the running pairs that a die serves, as the engine of higher claim has them. -/
theorem selectionWords_eq {d : LineDie} {s : State} (h : s.selecting = true) :
    selectionWords d s = s.setDie d (fun x => { x with
      words := (all16.filter (fun g => s.pairs[g].running && dieOf (workPort g) == d)).map (fun g => (g, (s.req (wordEng s) g).word)) }) :=
  if_pos h

/-- A change of one pair: the pair, and the frame. -/
theorem setPair_spec {s u : State} {g : PairId} {f : PairSt → PairSt} (h : u = s.setPair g f) :
    u.pairs[g] = f s.pairs[g] ∧ OnlyPair g s u := by
  rw [h]
  exact ⟨State.setPair_pair s g f, rfl, fun _ hg => State.setPair_get_ne s f hg⟩

/-- Of two engines of different claim, the one of higher claim has its words passed on. -/
theorem wordEng_of_higher (s : State) :
    (s.engY.ctl.claim < s.engX.ctl.claim → returnsWords s .ex = true → wordEng s = .ex) ∧
      (s.engX.ctl.claim < s.engY.ctl.claim → returnsWords s .ey = true → wordEng s = .ey) := by
  unfold wordEng
  refine ⟨fun hlt hx => if_neg ?_, fun hlt hy => if_pos ?_⟩
  · rw [hx, decide_eq_false (Nat.lt_asymm hlt), Bool.not_true, Bool.or_self, Bool.and_false]
    exact Bool.noConfusion
  · rw [hy, decide_eq_true hlt, Bool.or_true]
    rfl

/-- Settles O33: the words are a list over the pairs; the delay and CONF are changes of one pair where the lines show them. -/
theorem selectionAndDelay : Obligations.SelectionAndDelay := by
  unfold Obligations.SelectionAndDelay
  refine ⟨?_, wordEng_of_higher, ?_⟩
  · rintro d k s t rfl
    refine ⟨fun h => ⟨_, next_of_eq (selectionWords_eq h), ?_⟩, fun h => next_of_eq (if_neg (by rw [h]; exact Bool.noConfusion))⟩
    generalize atTick k s = t
    rw [State.setDie_get_same]
    refine ⟨fun g b => ?_, rfl⟩
    simp only [List.mem_map, List.mem_filter, mem_all16, true_and, Bool.and_eq_true, beq_iff_eq, Prod.mk.injEq]
    constructor
    · rintro ⟨a, ⟨hrun, hdie⟩, rfl, hb⟩
      exact ⟨hrun, hdie, hb⟩
    · rintro ⟨hrun, hdie, hb⟩
      exact ⟨g, ⟨hrun, hdie⟩, rfl, hb⟩
  · rintro g d k s t rfl hrun
    refine ⟨fun hc hs => ⟨_, rfl, setPair_spec (if_pos (by rw [hrun, hc, hs]; rfl))⟩, fun h => next_of_eq (if_neg ?_),
      fun hl => ⟨_, rfl, setPair_spec (if_pos (by rw [hrun, hl]; rfl))⟩,
      fun hl => next_of_eq (if_neg (by rw [hl, Bool.and_false]; exact Bool.noConfusion))⟩
    rcases h with h | h
    · rw [h, Bool.and_false, Bool.false_and]; exact Bool.noConfusion
    · rw [h, Bool.and_false]; exact Bool.noConfusion

/-! ### Requests of a pair -/

/-- The requests of pair `g` changed by `f` in each engine of which `P` holds: those of that pair, those of others, and the frame. -/
theorem setReqs_spec (g : PairId) (P : Eng → Bool) (f : PairReq → PairReq) (s : State) :
    (∀ e, (P e = true → (forEach engines (fun e t => if P e then t.setReq e g f else t) s).req e g = f (s.req e g)) ∧
      (P e = false → (forEach engines (fun e t => if P e then t.setReq e g f else t) s).req e g = s.req e g) ∧
      ∀ h, h ≠ g → (forEach engines (fun e t => if P e then t.setReq e g f else t) s).req e h = s.req e h) ∧
    forEach engines (fun e t => if P e then t.setReq e g f else t) s = { s with
      engX := { s.engX with data := { s.engX.data with
        reqs := (forEach engines (fun e t => if P e then t.setReq e g f else t) s).engX.data.reqs } }
      engY := { s.engY with data := { s.engY.data with
        reqs := (forEach engines (fun e t => if P e then t.setReq e g f else t) s).engY.data.reqs } } } := by
  have hu : forEach engines (fun e t => if P e then t.setReq e g f else t) s = { s with
      engX := { s.engX with data := { s.engX.data with reqs := if P .ex then updV s.engX.data.reqs g f else s.engX.data.reqs } }
      engY := { s.engY with data := { s.engY.data with reqs := if P .ey then updV s.engY.data.reqs g f else s.engY.data.reqs } } } := by
    unfold forEach engines
    dsimp only [List.foldl]
    cases P .ex <;> cases P .ey <;> rfl
  rw [hu]
  refine ⟨fun e => ?_, rfl⟩
  cases e
  all_goals
    refine ⟨fun hp => ?_, fun hp => ?_, fun h hh => ?_⟩
    · simp only [State.req, State.eng, hp, if_true]
      exact updV_at _ g f
    · simp only [State.req, State.eng, hp, Bool.false_eq_true, if_false]
    · simp only [State.req, State.eng]
      split
      · exact updV_get_ne _ f hh
      · rfl

theorem PairReq.hold_setHold (x : PairReq) (l : PairLine) (c : FailCond) (h : HoldOff) : (x.setHold l c h).hold l c = h := by
  cases l <;> cases c <;> rfl

theorem PairReq.hold_setHold_ne (x : PairReq) {l l' : PairLine} {c c' : FailCond} (h : HoldOff) (hn : (l', c') ≠ (l, c)) :
    (x.setHold l c h).hold l' c' = x.hold l' c' := by
  revert hn
  cases l <;> cases c <;> cases l' <;> cases c' <;> simp [PairReq.hold, PairReq.setHold]

theorem PairReq.word_setHold (x : PairReq) (l : PairLine) (c : FailCond) (h : HoldOff) : (x.setHold l c h).word = x.word := by
  cases l <;> cases c <;> rfl

/-- The requests of a pair in which a hold-off has run out: the condition is a request, WTR is cancelled, and the request in force and
the word are settled (R254, R257, R261). -/
def PairReq.holdOffOver (l : PairLine) (c : FailCond) (cmd : Nat) (rev : Bool) (x : PairReq) : PairReq :=
  let y := x.setHold l c { x.hold l c with request := true }
  ({ y with wtr := none }).decide cmd rev

theorem PairReq.holdOffOver_hold (l : PairLine) (c : FailCond) (cmd : Nat) (rev : Bool) (x : PairReq) (l' : PairLine) (c' : FailCond) :
    (x.holdOffOver l c cmd rev).hold l' c' = (x.setHold l c { x.hold l c with request := true }).hold l' c' := by
  cases l' <;> cases c' <;> rfl

/-- SF on the protect line is a request of at least 9. -/
theorem PairReq.request_of_sfP (cmd : Nat) {x : PairReq} (h : x.hoSfP.request = true) : 9 ≤ x.request cmd := by
  dsimp only [PairReq.request]
  rw [h]
  exact Nat.le_max_left _ _

theorem holdOffExpires_eq {g : PairId} {s : State} (l : PairLine) (c : FailCond) (h : s.pairs[g].running = true) :
    holdOffExpires g l c s = forEach engines (fun e t => if holdOffDue s g l c e then
      t.setReq e g (PairReq.holdOffOver l c s.pairs[g].command (s.prot g).revertive) else t) s := if_pos h

/-- The requests of the other engine do not bear on whether an engine's WTR has run out. -/
theorem wtrExpires_eq {g : PairId} {s : State} (h : s.pairs[g].running = true) :
    wtrExpires g s = forEach engines (fun e t => if (s.req e g).wtr == some 0 then
      t.setReq e g (fun x => { x with wtr := none }) else t) s := by
  unfold wtrExpires
  rw [if_pos h]
  unfold forEach engines
  dsimp only [List.foldl]
  have hy : ∀ f, (s.setReq .ex g f).req .ey g = s.req .ey g := fun _ => rfl
  split
  · rw [hy]
  · rfl

/-- Settles O34: both act on the requests of one pair, in each engine where the time has run out. -/
theorem protectionTimers : Obligations.ProtectionTimers := by
  unfold Obligations.ProtectionTimers
  intro g s hrun
  refine ⟨fun l c => ⟨_, next_of_eq (holdOffExpires_eq l c hrun), ?_⟩, ⟨_, next_of_eq (wtrExpires_eq hrun), ?_⟩⟩
  · obtain ⟨hreq, hrest⟩ := setReqs_spec g (holdOffDue s g l c)
      (PairReq.holdOffOver l c s.pairs[g].command (s.prot g).revertive) s
    refine ⟨fun e => ?_, hrest⟩
    obtain ⟨hdue, hnot, hother⟩ := hreq e
    refine ⟨fun hd => ?_, hnot, hother⟩
    rw [hdue hd]
    generalize s.req e g = x
    generalize s.pairs[g].command = cmd
    generalize (s.prot g).revertive = rev
    have hhold : ((x.holdOffOver l c cmd rev).hold l c) = { x.hold l c with request := true } :=
      (PairReq.holdOffOver_hold l c cmd rev x l c).trans (PairReq.hold_setHold x l c _)
    refine ⟨by rw [hhold], by rw [hhold], fun l' c' hn => ?_, rfl, rfl, ?_, ?_⟩
    · rw [PairReq.holdOffOver_hold, PairReq.hold_setHold_ne _ _ hn]
    · exact congrArg (selects rev _) (PairReq.word_setHold x l c _)
    · rintro rfl rfl
      exact PairReq.request_of_sfP (x := x.holdOffOver .protect .sf cmd rev) cmd (congrArg HoldOff.request hhold)
  · obtain ⟨hreq, hrest⟩ := setReqs_spec g (fun e => (s.req e g).wtr == some 0) (fun x => { x with wtr := none }) s
    refine ⟨fun e => ?_, hrest⟩
    obtain ⟨hdue, hnot, hother⟩ := hreq e
    exact ⟨fun h => hdue (beq_iff_eq.mpr h), fun h => hnot (beq_eq_false_iff_ne.mpr h), hother⟩

end Sys2Proof.Machine
end

section
/-! SUPPORT. The partner channel: frames received and sent, the loss of the partner, meetings and listening windows (R367 to R386). -/

namespace Sys2Proof.Machine

/-! ### The partner status -/

theorem Partner.setState_state (p : Partner) {n : Nat} (h : n < 4) : (p.setState n).state = n := by
  simp only [Partner.state, Partner.setState, BitVec.toNat_ofNat]
  omega

theorem setBit_mod_four {w : Nat} (m : BitVec w) {i : Nat} (b : Bool) (h : 2 ≤ i) : (setBit m i b).toNat % 4 = m.toNat % 4 := by
  refine Nat.eq_of_testBit_eq (fun j => ?_)
  rw [show 4 = 2 ^ 2 from rfl, Nat.testBit_mod_two_pow, Nat.testBit_mod_two_pow]
  by_cases hj : j < 2
  · exact congrArg (decide (j < 2) && ·) (setBit_get_ne m i j b (by omega))
  · simp [hj]

/-- A flag of the partner status lies above its STATE field. -/
theorem flagPartner_state (s : State) (b : PartnerBit) : (s.flagPartner b).partner.state = s.partner.state :=
  setBit_mod_four _ true (by cases b <;> decide)

theorem flagPartner_bit (s : State) (b : PartnerBit) : (s.flagPartner b).partner.status.getLsbD b.num = true :=
  setBit_get _ _ _ (by cases b <;> decide)

/-! ### MIRROR and ACK -/

/-- A frame that is not valid is counted; a MIRROR may set a flag of the partner status. -/
theorem discardFrame_spec (m : Msg) (w : PartnerFrame) (s : State) :
    ∃ st, discardFrame m w s = { s with
      partner := { s.partner with status := st }, ptime := { s.ptime with discarded := satAdd 0xFFFF s.ptime.discarded 1 } } ∧
      (m ≠ .mirror → st = s.partner.status) := by
  unfold discardFrame
  dsimp only
  split
  · rename_i h
    exact ⟨_, rfl, fun hm => absurd h.1 hm⟩
  · exact ⟨_, rfl, fun _ => rfl⟩

theorem mirrorArrives_invalid {w : PartnerFrame} {s : State} (hh : s.partnerHears = true) (hv : frameValid s .mirror w = false) :
    mirrorArrives w s = discardFrame .mirror w s := by
  unfold mirrorArrives
  rw [if_neg (by rw [hh]; exact Bool.noConfusion), if_pos (by rw [hv]; rfl)]

/-- The partner after a valid MIRROR: FOUND, with the ACK of its SEQ due. -/
def Partner.heard (p : Partner) (sq : BitVec 4) (differs : Bool) : Partner :=
  { p.setState 2 with sinceValid := 0, ackDue := some (sq, differs) }

theorem mirrorArrives_own {w : PartnerFrame} {s : State} (hh : s.partnerHears = true) (hv : frameValid s .mirror w = true)
    (hs : leField w.octets 5 4 = s.serial) :
    mirrorArrives w s = { countValid s with
      partner := { s.partner.heard (seqField w) false with revert := false, toForce := some (mirrorLevels w) } } := by
  unfold mirrorArrives
  rw [if_neg (by rw [hh]; exact Bool.noConfusion), if_neg (by rw [hv]; exact Bool.noConfusion)]
  dsimp only
  rw [hs, beq_self_eq_true, if_pos rfl, if_pos rfl]
  rfl

theorem mirrorArrives_other {w : PartnerFrame} {s : State} (hh : s.partnerHears = true) (hv : frameValid s .mirror w = true)
    (hs : leField w.octets 5 4 ≠ s.serial) :
    mirrorArrives w s =
      ({ countValid s with partner := (s.partner.heard (seqField w) true).disregard } : State).flagPartner .serialMismatch := by
  unfold mirrorArrives
  rw [if_neg (by rw [hh]; exact Bool.noConfusion), if_neg (by rw [hv]; exact Bool.noConfusion)]
  dsimp only
  rw [beq_eq_false_iff_ne.mpr hs, if_neg Bool.noConfusion, if_neg Bool.noConfusion]
  rfl

theorem ackArrives_valid {w : PartnerFrame} {s : State} (hh : s.partnerHears = true) (hv : frameValid s .ack w = true) :
    ackArrives w s = if seqField w = s.partner.seq then
        { countValid s with partner := { s.partner.setState 2 with unacked := 0 } }
      else { countValid s with ptime := { (countValid s).ptime with stale := satAdd 0xFFFF s.ptime.stale 1 } } := by
  unfold ackArrives
  rw [if_neg (by rw [hh]; exact Bool.noConfusion), if_neg (by rw [hv]; exact Bool.noConfusion)]
  rfl

theorem ackArrives_invalid {w : PartnerFrame} {s : State} (hh : s.partnerHears = true) (hv : frameValid s .ack w = false) :
    ackArrives w s = discardFrame .ack w s := by
  unfold ackArrives
  rw [if_neg (by rw [hh]; exact Bool.noConfusion), if_pos (by rw [hv]; rfl)]

/-- Settles O35: by whether the frame is valid, and then by its SERIAL or its SEQ. -/
theorem mirrorAndAck : Obligations.MirrorAndAck := by
  unfold Obligations.MirrorAndAck
  rintro w k s t rfl hh
  generalize ht : atTick k s = t at *
  have hm : exec (.mirrorReceived w k) s = .next (mirrorArrives w t) := next_of_eq (by rw [ht])
  have ha : exec (.ackReceived w k) s = .next (ackArrives w t) := next_of_eq (by rw [ht])
  refine ⟨fun hv => ⟨_, hm, ?_⟩, fun hv => ⟨_, hm, ?_⟩, fun hv => ⟨_, ha, ?_⟩, fun hv => ⟨_, ha, ?_⟩⟩
  · by_cases hs : leField w.octets 5 4 = t.serial
    · rw [mirrorArrives_own hh hv hs]
      exact ⟨Partner.setState_state t.partner (by decide), rfl, fun _ => ⟨rfl, rfl, rfl⟩, fun h => absurd hs h, rfl, rfl, rfl⟩
    · rw [mirrorArrives_other hh hv hs]
      refine ⟨(flagPartner_state _ _).trans (Partner.setState_state t.partner (by decide)), rfl, fun h => absurd h hs,
        fun _ => ⟨rfl, rfl, rfl, flagPartner_bit _ .serialMismatch⟩, rfl, rfl, rfl⟩
  · obtain ⟨st, he, -⟩ := discardFrame_spec .mirror w t
    rw [mirrorArrives_invalid hh hv, he]
    exact ⟨rfl, rfl, rfl, rfl⟩
  · rw [ackArrives_valid hh hv]
    split
    · rename_i hq
      exact ⟨rfl, fun _ => ⟨rfl, Partner.setState_state t.partner (by decide), rfl⟩, fun h => absurd hq h, rfl⟩
    · rename_i hq
      exact ⟨rfl, fun h => absurd h hq, fun _ => ⟨rfl, rfl⟩, rfl⟩
  · obtain ⟨st, he, hst⟩ := discardFrame_spec .ack w t
    rw [ackArrives_invalid hh hv, he, hst (by decide)]
    exact ⟨rfl, rfl, rfl⟩

/-! ### TIME -/

/-- A valid TIME or MEET finds a peer's partner, and is nothing to another role. -/
theorem peerFound_spec (s : State) :
    ∃ q, peerFound s = { s with partner := q } ∧ (s.partner.role = .peer → q.state = 2 ∧ q.sinceValid = 0) ∧
      (s.partner.role ≠ .peer → q = s.partner) := by
  unfold peerFound
  split
  · rename_i h
    exact ⟨_, rfl, fun _ => ⟨Partner.setState_state s.partner (by decide), rfl⟩, fun hn => absurd h hn⟩
  · rename_i h
    exact ⟨_, rfl, fun hp => absurd hp h, fun _ => rfl⟩

theorem timeArrives_valid {w : PartnerFrame} {s : State} (hh : s.partnerHears = true) (hv : frameValid s .time w = true) :
    timeArrives w s = { peerFound (countValid s) with ptime := { (peerFound (countValid s)).ptime with
      gotTime := stampKept ((peerFound (countValid s)).die (dieOf (peerFound (countValid s)).fabric.port)).inStamp (seqField w)
      gotOctets := (w.octets.drop 3).take 19 } } := by
  unfold timeArrives
  rw [if_neg (by rw [hh]; exact Bool.noConfusion), if_neg (by rw [hv]; exact Bool.noConfusion)]

/-- Settles O36: TIME is kept with the stamp of the line die, and a sent frame frees it. -/
theorem timeExchange : Obligations.TimeExchange := by
  unfold Obligations.TimeExchange
  rintro k s t rfl
  generalize ht : atTick k s = t at *
  have hsent : exec (.partnerFrameSent k) s = .next (frameSent t) := next_of_eq (by rw [ht])
  refine ⟨fun w hh hv => ?_, fun o ho => ⟨_, hsent, ?_⟩, fun ho => hsent.trans (next_of_eq ?_)⟩
  · have he : exec (.timeReceived w k) s = .next (timeArrives w t) := next_of_eq (by rw [ht])
    refine ⟨_, he, ?_⟩
    obtain ⟨q, hp, hpeer, hother⟩ := peerFound_spec (countValid t)
    rw [timeArrives_valid hh hv, hp]
    have hfabric : ({ countValid t with partner := q } : State).fabric = t.fabric := rfl
    have hdie : ∀ d, ({ countValid t with partner := q } : State).die d = t.die d := fun d => by cases d <;> rfl
    rw [hfabric, hdie]
    exact ⟨rfl, hpeer, hother, rfl⟩
  · unfold frameSent
    rw [ho]
    dsimp only
    split
    · rename_i h
      exact ⟨rfl, fun _ => rfl, fun hn => absurd h hn, rfl⟩
    · rename_i h
      exact ⟨rfl, fun hy => absurd hy h, fun _ => rfl, rfl⟩
  · unfold frameSent
    rw [ho]

/-! ### Loss of the partner -/

/-- Settles O37: by the role of the party. -/
theorem partnerIsLost : Obligations.PartnerIsLost := by
  unfold Obligations.PartnerIsLost
  intro s
  refine ⟨fun b hr => ?_, fun hr => ?_, fun hr => next_of_eq ?_⟩
  · have he : partnerLost s = if s.partner.state = 2 ∧ 136 ≤ s.partner.sinceValid then
        { s with partner := { s.partner.setState 3 with revert := true, toForce := none } } else s := by
      unfold partnerLost
      dsimp only
      rw [hr]
    refine ⟨fun h2 hn => ⟨_, next_of_eq (he.trans (if_pos ⟨h2, hn⟩)), Partner.setState_state s.partner (by decide), rfl, rfl, rfl⟩,
      fun h => next_of_eq (he.trans (if_neg ?_))⟩
    exact fun hc => h.elim (fun h2 => h2 hc.1) (fun hn => Nat.not_le.mpr hn hc.2)
  · have he : partnerLost s = if (s.partner.state = 1 ∨ s.partner.state = 2) ∧ 750 ≤ s.partner.sinceValid then
        { s with partner := s.partner.setState 3 } else s := by
      unfold partnerLost
      dsimp only
      rw [hr]
    exact ⟨fun h12 hn => ⟨_, next_of_eq (he.trans (if_pos ⟨h12, hn⟩)), Partner.setState_state s.partner (by decide), rfl⟩,
      fun h => next_of_eq (he.trans (if_neg (fun hc => Nat.not_le.mpr h hc.2)))⟩
  · unfold partnerLost
    dsimp only
    rw [hr]

end Sys2Proof.Machine
end

section
/-! SUPPORT. Meetings and listening windows (R381 to R385, R473). -/

namespace Sys2Proof.Machine

/-! ### Frames launched -/

/-- Nothing changed but the partner channel, its free values, and what the keeper sends to the engines. -/
structure Launching (s u : State) : Prop where
  frame : u = { s with partner := u.partner, ptime := u.ptime, freeIdx := u.freeIdx, engX := u.engX, engY := u.engY }
  engs : ∀ e, u.eng e = { s.eng e with data := { (s.eng e).data with fromKeeper := (u.eng e).data.fromKeeper } }

theorem Launching.trans {s t u : State} (a : Launching s t) (b : Launching t u) : Launching s u :=
  ⟨by rw [b.frame, a.frame], fun e => by rw [b.engs, a.engs]⟩

/-- A change of the partner channel and its free values alone. -/
theorem Launching.of_partner {s u : State} (h : u = { s with partner := u.partner, ptime := u.ptime, freeIdx := u.freeIdx }) :
    Launching s u := by
  obtain ⟨p, q, n, rfl⟩ : ∃ p q n, u = { s with partner := p, ptime := q, freeIdx := n } := ⟨_, _, _, h⟩
  exact ⟨rfl, fun e => by cases e <;> rfl⟩

/-- What the keeper sends to an engine is changed. -/
theorem Launching.fromKeeper (s : State) (e : Eng) (f : Lane → Lane) :
    Launching s (s.setData e (fun d => { d with fromKeeper := f d.fromKeeper })) := by
  cases e
  · exact ⟨rfl, fun e => by cases e <;> rfl⟩
  · exact ⟨rfl, fun e => by cases e <;> rfl⟩

/-- Of the partner channel, nothing changed. -/
def ChannelKept (s u : State) : Prop := u.partner = s.partner ∧ u.ptime = s.ptime ∧ Launching s u

theorem ChannelKept.refl (s : State) : ChannelKept s s := ⟨rfl, rfl, .of_partner rfl⟩

theorem ChannelKept.trans {s t u : State} (a : ChannelKept s t) (b : ChannelKept t u) : ChannelKept s u :=
  ⟨b.1.trans a.1, b.2.1.trans a.2.1, a.2.2.trans b.2.2⟩

/-- The party with message `m` on its way: in transmission and counted. -/
def Partner.launched (m : Msg) (frame : List Byte) (p : Partner) : Partner :=
  { p with
    out := some ⟨m.code, frame⟩, packetSeq := p.packetSeq + BitVec.ofNat 16 (cellsOfOctets frame.length)
    unacked := if m = .mirror then p.unacked + 1 else p.unacked }

theorem launch_spec (m : Msg) (octets : List Byte) (s : State) :
    (launch m octets s).partner = s.partner.launched m (withFcs octets) ∧
      (launch m octets s).ptime = { s.ptime with
        launched := satAdd 0xFFFF s.ptime.launched 1, timeSeq := if m = .time then s.ptime.timeSeq + 1 else s.ptime.timeSeq } ∧
      Launching s (launch m octets s) := by
  unfold launch
  dsimp only
  split
  · exact ⟨rfl, rfl, .of_partner rfl⟩
  · have hk := fun (t : State) p => forEach_rel (R := ChannelKept) .refl .trans engines
      (fun e t => if (t.eng e).ctl.running then
        t.setData e (fun d => { d with
          fromKeeper := (packetCells 32 p false e s.partner.packetSeq (withFcs octets)).foldl (fun l c => l.push keeperSpan c) d.fromKeeper })
      else t) (fun e t => by
        split
        · exact ⟨by cases e <;> rfl, by cases e <;> rfl, .fromKeeper t e (fun l =>
            (packetCells 32 p false e s.partner.packetSeq (withFcs octets)).foldl (fun l c => l.push keeperSpan c) l)⟩
        · exact .refl t) t
    obtain ⟨h1, h2, h3⟩ := hk _ _
    refine ⟨h1.trans rfl, h2.trans rfl, Launching.trans (.of_partner ?_) h3⟩
    rfl

/-- Instants of the schedule: those that whole intervals separate from the next one. -/
theorem meetsAt_iff (s : State) (a : Nat) :
    s.meetsAt a = true ↔ ∃ n, a = s.ptime.nextMeet + n * s.meetPeriods := by
  unfold State.meetsAt
  rw [Bool.and_eq_true, decide_eq_true_eq, beq_iff_eq]
  constructor
  · rintro ⟨hle, hmod⟩
    refine ⟨(a - s.ptime.nextMeet) / s.meetPeriods, ?_⟩
    rw [Nat.div_mul_cancel (Nat.dvd_of_mod_eq_zero hmod)]
    omega
  · rintro ⟨n, rfl⟩
    rw [Nat.add_sub_cancel_left]
    exact ⟨Nat.le_add_right _ _, Nat.mul_mod_left _ _⟩

theorem meetPeriods_pos {s : State} (hm : s.fabric.meet ≠ 0) : 0 < s.meetPeriods :=
  Nat.mul_pos (Nat.pos_of_ne_zero hm) (by decide)

/-- A frame can be launched only by a port that transmits. -/
theorem canLaunch_transmits {s : State} (h : s.canLaunch = true) : s.partnerTx.isSome = true := by
  unfold State.canLaunch at h
  cases hp : s.partnerTx with
  | none => rw [hp, Bool.and_false] at h; exact Bool.noConfusion h
  | some p => rfl

/-- A MEET that falls due leaves the schedule, and is launched if a frame can be. -/
theorem sendMeet_spec (a : Nat) (s : State) :
    (sendMeet a s).ptime.meetCount = s.ptime.meetCount ∧ (sendMeet a s).ptime.nextMeet = s.ptime.nextMeet ∧
      (s.canLaunch = true → (∃ f, (sendMeet a s).partner.out = some ⟨Msg.meet.code, f⟩) ∧ (sendMeet a s).ptime.lastMeet = some a ∧
        (sendMeet a s).ptime.launched = satAdd 0xFFFF s.ptime.launched 1) ∧
      Launching s (sendMeet a s) := by
  have hlaunch : ({ s with freeIdx := s.freeIdx + 1 } : State).canLaunch = s.canLaunch := rfl
  unfold sendMeet meetFrame
  split
  · dsimp only
    rw [hlaunch]
    split
    · obtain ⟨h1, h2, h3⟩ := launch_spec .meet (messageOctets s .meet (BitVec.ofNat 4 ((Config.freeByte s.freeIdx).toNat % 16))
        (leBytes 4 s.ptime.meetCount.toNat)) { s with freeIdx := s.freeIdx + 1 }
      generalize launch .meet _ { s with freeIdx := s.freeIdx + 1 } = u at *
      refine ⟨(congrArg (·.meetCount) h2).trans rfl, (congrArg (·.nextMeet) h2).trans rfl,
        fun _ => ⟨⟨_, (congrArg (·.out) h1).trans rfl⟩, rfl, (congrArg (·.launched) h2).trans rfl⟩, ?_⟩
      exact (Launching.of_partner rfl).trans (h3.trans (.of_partner rfl))
    · rename_i hno
      exact ⟨rfl, rfl, fun h => absurd h hno, .of_partner rfl⟩
  · rename_i hno
    exact ⟨rfl, rfl, fun h => absurd (canLaunch_transmits h) hno, .of_partner rfl⟩

/-- The schedule moved past instant `a`, `n` instants on. -/
def State.pastMeeting (a n : Nat) (s : State) : State :=
  { s with ptime := { s.ptime with meetCount := s.ptime.meetCount + BitVec.ofNat 32 n, nextMeet := a + s.meetPeriods } }

theorem meetingInstant_eq {s : State} (hon : s.partnerOn = true) (hm : s.fabric.meet ≠ 0) {a n : Nat}
    (ha : a = s.ptime.nextMeet + n * s.meetPeriods) :
    meetingInstant a s =
      if s.keeper.power != .main then
        if s.ptime.skipping then
          { s.pastMeeting a (n + 1) with ptime := { (s.pastMeeting a (n + 1)).ptime with window := s.ptime.window.wider } }
        else s.pastMeeting a (n + 1)
      else if s.keeper.dozing || !s.time.counting then s.pastMeeting a (n + 1)
      else sendMeet a (s.pastMeeting a (n + 1)) := by
  have hn : (a - s.ptime.nextMeet) / s.meetPeriods = n := by
    rw [ha, Nat.add_sub_cancel_left, Nat.mul_div_cancel _ (meetPeriods_pos hm)]
  unfold meetingInstant
  rw [if_pos (by rw [hon, bne_iff_ne.mpr hm, (meetsAt_iff s a).mpr ⟨n, ha⟩]; rfl), hn]
  rfl

/-! ### A received MEET -/

theorem realign_spec (a : Nat) (s : State) :
    ∃ n o, realign a s = { s with ptime := { s.ptime with nextMeet := n, offset := o } } ∧
      (launchedLately s a = false → n = a + s.meetPeriods ∧ o = meetOffset s a) ∧
      (launchedLately s a = true → n = s.ptime.nextMeet ∧ o = s.ptime.offset) := by
  unfold realign
  split
  · rename_i h
    exact ⟨_, _, rfl, fun hf => absurd (hf.symm.trans h) Bool.noConfusion, fun _ => ⟨rfl, rfl⟩⟩
  · rename_i h
    exact ⟨_, _, rfl, fun _ => ⟨rfl, rfl⟩, fun ht => absurd ht h⟩

/-- A valid MEET: counted, a peer's partner found, and the schedule set from its arrival. -/
theorem meetTaken_spec (a : Nat) (s : State) :
    ∃ q n o, realign a (peerFound (countValid s)) = { s with
        partner := q, ptime := { s.ptime with valid := satAdd 0xFFFF s.ptime.valid 1, nextMeet := n, offset := o } } ∧
      (launchedLately s a = false → n = a + s.meetPeriods ∧ o = meetOffset s a) ∧
      (launchedLately s a = true → n = s.ptime.nextMeet ∧ o = s.ptime.offset) := by
  obtain ⟨q, hp, -⟩ := peerFound_spec (countValid s)
  obtain ⟨n, o, hr, h1, h2⟩ := realign_spec a (peerFound (countValid s))
  rw [hp] at hr h1 h2
  rw [hp]
  exact ⟨q, n, o, hr, h1, h2⟩

theorem meetArrives_awake {w : PartnerFrame} {a : Nat} {s : State} (hon : s.partnerOn = true) (hv : frameValid s .meet w = true)
    (hd : s.keeper.dozing = false) : meetArrives w a s = realign a (peerFound (countValid s)) := by
  unfold meetArrives
  rw [if_neg (by rw [hon]; exact Bool.noConfusion), if_neg (by rw [hd]; exact Bool.noConfusion),
    if_neg (by rw [hv]; exact Bool.noConfusion), if_neg (by rw [hd]; exact Bool.noConfusion)]

theorem meetArrives_found {w : PartnerFrame} {a : Nat} {s : State} (hon : s.partnerOn = true) (hv : frameValid s .meet w = true)
    (hd : s.keeper.dozing = true) (hw : s.inWindow a = true) : meetArrives w a s = meetFound a s := by
  unfold meetArrives
  rw [if_neg (by rw [hon]; exact Bool.noConfusion), if_neg (by rw [hw, Bool.not_true, Bool.and_false]; exact Bool.noConfusion),
    if_neg (by rw [hv]; exact Bool.noConfusion), if_pos hd]

theorem meetArrives_outside {w : PartnerFrame} {a : Nat} {s : State} (hd : s.keeper.dozing = true) (hw : s.inWindow a = false) :
    meetArrives w a s = s := by
  unfold meetArrives
  split
  · rfl
  · exact if_pos (by rw [hd, hw]; rfl)

/-- The line die of port `p` changed by `f`, the port by `g`, and the partner's time set: what each is, and the frame. -/
theorem setListener_spec (p : Port) (f : DieSt → DieSt) (g : PortSt → PortSt) (y : PartnerTime) (s : State) :
    let u : State := { (s.setDie (dieOf p) f).setPort p g with ptime := y }
    u.die (dieOf p) = f (s.die (dieOf p)) ∧ (∀ d, d ≠ dieOf p → u.die d = s.die d) ∧ u.ports[p] = g s.ports[p] ∧
      (∀ q, q ≠ p → u.ports[q] = s.ports[q]) ∧ u = { s with lda := u.lda, ldb := u.ldb, ports := u.ports, ptime := y } := by
  generalize dieOf p = d
  refine ⟨by cases d <;> rfl, fun d' hd' => ?_, ?_, fun q hq => ?_, by cases d <;> rfl⟩
  · refine Eq.trans ?_ (State.setDie_get_ne s hd' f)
    cases d' <;> rfl
  · refine (State.setPort_port (s.setDie d f) p g).trans ?_
    rw [State.setDie_ports]
  · refine (State.setPort_get_ne (s.setDie d f) g hq).trans ?_
    rw [State.setDie_ports]

/-- A listening window that ends: the line die and the receiver of the partner port stop. -/
theorem endListening_spec (s : State) :
    (endListening s).ptime = { s.ptime with listening := false } ∧
      (endListening s).die (dieOf s.fabric.port) = { s.die (dieOf s.fabric.port) with powered := false } ∧
      (∀ d, d ≠ dieOf s.fabric.port → (endListening s).die d = s.die d) ∧
      (endListening s).ports[s.fabric.port] = stopReceiver s.ports[s.fabric.port] ∧
      (∀ q, q ≠ s.fabric.port → (endListening s).ports[q] = s.ports[q]) ∧
      endListening s = { s with
        lda := (endListening s).lda, ldb := (endListening s).ldb, ports := (endListening s).ports, ptime := (endListening s).ptime } := by
  have hptime : ((s.setDie (dieOf s.fabric.port) (fun d => { d with powered := false })).setPort s.fabric.port stopReceiver).ptime =
      s.ptime := by rw [State.setPort_ptime, State.setDie_ptime]
  have he : endListening s = { (s.setDie (dieOf s.fabric.port) (fun d => { d with powered := false })).setPort s.fabric.port
      stopReceiver with ptime := { s.ptime with listening := false } } := by
    unfold endListening
    dsimp only
    rw [hptime]
  obtain ⟨h1, h2, h3, h4, h5⟩ := setListener_spec s.fabric.port (fun d => { d with powered := false }) stopReceiver
    { s.ptime with listening := false } s
  rw [he]
  exact ⟨rfl, h1, h2, h3, h4, h5⟩

/-- Settles O38: an instant of the schedule moves it on and may send a MEET; a received one sets it, and ends the window that found it. -/
theorem meetingSchedule : Obligations.MeetingSchedule := by
  unfold Obligations.MeetingSchedule
  intro a s
  refine ⟨fun hon hm => ⟨fun n ha => ⟨_, next_of_eq (meetingInstant_eq hon hm ha), ?_⟩, fun hno => next_of_eq (if_neg ?_)⟩, ?_⟩
  · have hpast : Launching s (s.pastMeeting a (n + 1)) := .of_partner rfl
    split
    · rename_i hp
      have hp' : s.keeper.power ≠ .main := bne_iff_ne.mp hp
      split
      · exact ⟨rfl, rfl, fun h => absurd h hp', fun h => absurd h hp', fun _ => ⟨rfl, rfl⟩,
          rfl, (Launching.of_partner rfl : Launching s _).engs⟩
      · exact ⟨rfl, rfl, fun h => absurd h hp', fun h => absurd h hp', fun _ => ⟨rfl, rfl⟩, hpast.frame, hpast.engs⟩
    · rename_i hp
      have hp' : s.keeper.power = .main := Decidable.not_not.mp (mt bne_iff_ne.mpr hp)
      split
      · rename_i hidle
        refine ⟨rfl, rfl, fun _ _ => rfl, fun _ hd hc => ?_, fun h => absurd hp' h, hpast.frame, hpast.engs⟩
        rw [hd, hc] at hidle
        exact Bool.noConfusion hidle
      · rename_i hawake
        obtain ⟨h1, h2, h3, h4⟩ := sendMeet_spec a (s.pastMeeting a (n + 1))
        have hframe := hpast.trans h4
        refine ⟨h1, h2, fun _ hd => ?_, fun _ _ _ hl => h3 hl, fun h => absurd hp' h, hframe.frame, hframe.engs⟩
        rw [hd] at hawake
        exact absurd rfl hawake
  · rw [Bool.and_eq_true]
    rintro ⟨-, h⟩
    obtain ⟨n, hn⟩ := (meetsAt_iff s a).mp h
    exact hno n hn
  · rintro w k t rfl hon hv
    generalize ht : atTick k s = t at *
    have he : exec (.meetReceived w a k) s = .next (meetArrives w a t) := next_of_eq (by rw [ht])
    refine ⟨fun hd => ⟨_, he, ?_⟩, fun hd hw => ⟨_, he, ?_⟩, fun hd hw => he.trans (next_of_eq (meetArrives_outside hd hw))⟩
    · obtain ⟨q, n, o, hr, h1, h2⟩ := meetTaken_spec a t
      rw [meetArrives_awake hon hv hd, hr]
      exact ⟨rfl, h1, h2, rfl⟩
    · obtain ⟨q, n, o, hr, h1, h2⟩ := meetTaken_spec a t
      rw [meetArrives_found hon hv hd hw]
      unfold meetFound
      dsimp only
      rw [hr]
      obtain ⟨e1, e2, e3, e4, e5, e6⟩ := endListening_spec { t with
        partner := q, ptime := { t.ptime with valid := satAdd 0xFFFF t.ptime.valid 1, nextMeet := n, offset := o } }
      generalize endListening _ = u at *
      rw [e1]
      exact ⟨rfl, rfl, rfl, h1, congrArg DieSt.powered e2, (congrArg (·.line.running) e4).trans rfl, e5⟩

/-! ### Listening windows -/

theorem State.die_congr {s u : State} (ha : u.lda = s.lda) (hb : u.ldb = s.ldb) (d : LineDie) : u.die d = s.die d := by
  cases d
  · exact ha
  · exact hb

theorem stopReceiver_running (x : PortSt) : (stopReceiver x).line.running = false := rfl

theorem windowOpens_eq {a : Nat} {s : State} (hon : s.partnerOn = true) (hm : s.fabric.meet ≠ 0) (hd : s.keeper.dozing = true)
    (hp : s.keeper.power = .main) (hdeaf : s.ptime.deaf = false) (hl : s.ptime.listening = false) (hw : s.windowDue a = true) :
    windowOpens a s = { (s.setDie (dieOf s.fabric.port) (fun d => { d with powered := true })).setPort s.fabric.port startReceiver with
      ptime := { s.ptime with listening := true, windowAt := s.ptime.nextMeet } } := by
  have hptime : ((s.setDie (dieOf s.fabric.port) (fun d => { d with powered := true })).setPort s.fabric.port startReceiver).ptime =
      s.ptime := by rw [State.setPort_ptime, State.setDie_ptime]
  unfold windowOpens
  rw [if_pos (by rw [hon, bne_iff_ne.mpr hm, hd, hp, hdeaf, hl, hw]; rfl)]
  dsimp only
  rw [hptime]

/-- The end of a window in which nothing was found widens the next, and after the widest the party gives up. -/
theorem windowEnds_eq {a : Nat} {s : State} (hl : s.ptime.listening = true) (hw : s.ptime.windowAt + s.ptime.window.half ≤ a) :
    windowEnds a s =
      let s2 : State := { endListening s with ptime := { s.ptime with
        listening := false, empty := satAdd 0xFFFF s.ptime.empty 1, window := s.ptime.window.wider } }
      if s.ptime.window = .wide then
        (({ s2 with partner := s.partner.setState 3, ptime := { s2.ptime with deaf := true } } : State).flagPartner .drift).raise .drift
      else s2 := by
  have hptime : (endListening s).ptime = { s.ptime with listening := false } := (endListening_spec s).1
  have hpartner : (endListening s).partner = s.partner := by rw [(endListening_spec s).2.2.2.2.2]
  unfold windowEnds
  rw [if_pos (by rw [hl, decide_eq_true hw]; rfl)]
  dsimp only
  rw [hptime, hpartner]

/-- Settles O39: a window opens with its line die and receiver, and ends with them. -/
theorem listeningWindows : Obligations.ListeningWindows := by
  unfold Obligations.ListeningWindows
  intro a s
  refine ⟨fun hon hm hd hp hdeaf hl hw => ⟨_, next_of_eq (windowOpens_eq hon hm hd hp hdeaf hl hw), ?_⟩,
    fun hw => next_of_eq (if_neg (by rw [hw, Bool.and_false]; exact Bool.noConfusion)),
    fun hl hw => ⟨_, next_of_eq (windowEnds_eq hl hw), ?_⟩, fun h => next_of_eq (if_neg ?_)⟩
  · obtain ⟨h1, h2, h3, h4, h5⟩ := setListener_spec s.fabric.port (fun d => { d with powered := true }) startReceiver
      { s.ptime with listening := true, windowAt := s.ptime.nextMeet } s
    exact ⟨rfl, h1, h2, (congrArg PortSt.line h3).trans rfl, (congrArg (·.framer.aligned) h3).trans rfl, h4, h5⟩
  · obtain ⟨-, h1, h2, h3, h4, h5⟩ := endListening_spec s
    generalize endListening s = v at *
    dsimp only
    have hrun := (congrArg (·.line.running) h3).trans (stopReceiver_running s.ports[s.fabric.port])
    have hhinge := (congrArg PortSt.hinge h3).trans (rfl : (stopReceiver s.ports[s.fabric.port]).hinge = _)
    split
    · rename_i hwide
      refine ⟨rfl, rfl, rfl, (State.die_congr rfl rfl _).trans h1, fun d hd => (State.die_congr rfl rfl _).trans (h2 d hd), hrun,
        hhinge, h4, fun _ => ⟨rfl, ?_, flagPartner_bit _ .drift, Alarm.raise_on _ _ _⟩, fun h => absurd hwide h, by rw [h5]; rfl⟩
      exact (flagPartner_state _ .drift).trans (Partner.setState_state s.partner (by decide))
    · rename_i hwide
      exact ⟨rfl, rfl, rfl, (State.die_congr rfl rfl _).trans h1, fun d hd => (State.die_congr rfl rfl _).trans (h2 d hd), hrun,
        hhinge, h4, fun h => absurd h hwide, fun _ => ⟨by rw [h5], by rw [h5]⟩, by rw [h5]⟩
  · rw [Bool.and_eq_true, decide_eq_true_eq]
    rintro ⟨h1, h2⟩
    rcases h with h | h
    · rw [h] at h1; exact Bool.noConfusion h1
    · exact absurd h2 (Nat.not_le.mpr h)

end Sys2Proof.Machine
end

section
/-! SUPPORT. Incumbency that moves between the engines (R311, R337), and the ends of page loads (R118 to R120, R223, R471). -/

namespace Sys2Proof.Machine

/-! ### What an engine that holds incumbency keeps -/

/-- Incumbency and the ports are as they were, and engine `b` has the claim bit and the power that it had. -/
structure HolderKept (b : Eng) (s u : State) : Prop where
  incumbency : u.duplex.incumbency = s.duplex.incumbency
  moved : u.duplex.moved = s.duplex.moved
  ports : u.ports = s.ports
  incumbent : (u.eng b).ctl.incumbent = (s.eng b).ctl.incumbent
  powered : (u.eng b).ctl.powered = (s.eng b).ctl.powered

theorem HolderKept.refl (b : Eng) (s : State) : HolderKept b s s := ⟨rfl, rfl, rfl, rfl, rfl⟩

theorem HolderKept.trans {b : Eng} {s t u : State} (x : HolderKept b s t) (y : HolderKept b t u) : HolderKept b s u :=
  ⟨y.incumbency.trans x.incumbency, y.moved.trans x.moved, y.ports.trans x.ports, y.incumbent.trans x.incumbent,
    y.powered.trans x.powered⟩

/-- The same, with the capture writer. -/
def WriterKept (b : Eng) (s u : State) : Prop := HolderKept b s u ∧ u.capture.writer = s.capture.writer

theorem WriterKept.refl (b : Eng) (s : State) : WriterKept b s s := ⟨.refl b s, rfl⟩

theorem WriterKept.trans {b : Eng} {s t u : State} (x : WriterKept b s t) (y : WriterKept b t u) : WriterKept b s u :=
  ⟨x.1.trans y.1, y.2.trans x.2⟩

/-- A change of an engine that keeps its claim bit and its power. -/
theorem WriterKept.setEng (b e : Eng) (s : State) (f : EngSt → EngSt) (hi : (f (s.eng e)).ctl.incumbent = (s.eng e).ctl.incumbent)
    (hp : (f (s.eng e)).ctl.powered = (s.eng e).ctl.powered) : WriterKept b s (s.setEng e f) := by
  cases e <;> cases b
  · exact ⟨⟨rfl, rfl, rfl, hi, hp⟩, rfl⟩
  · exact ⟨⟨rfl, rfl, rfl, rfl, rfl⟩, rfl⟩
  · exact ⟨⟨rfl, rfl, rfl, rfl, rfl⟩, rfl⟩
  · exact ⟨⟨rfl, rfl, rfl, hi, hp⟩, rfl⟩

theorem WriterKept.setData (b e : Eng) (s : State) (f : EngData → EngData) : WriterKept b s (s.setData e f) := .setEng b e s _ rfl rfl

theorem WriterKept.setTally (b e : Eng) (s : State) (f : EngTally → EngTally) : WriterKept b s (s.setEngTally e f) :=
  .setEng b e s _ rfl rfl

theorem WriterKept.setCtl (b e : Eng) (s : State) (f : EngCtl → EngCtl) (hi : ∀ c, (f c).incumbent = c.incumbent)
    (hp : ∀ c, (f c).powered = c.powered) : WriterKept b s (s.setCtl e f) := .setEng b e s _ (hi _) (hp _)

theorem WriterKept.setDie (b : Eng) (d : LineDie) (s : State) (f : DieSt → DieSt) : WriterKept b s (s.setDie d f) := by
  cases d <;> cases b <;> exact ⟨⟨rfl, rfl, rfl, rfl, rfl⟩, rfl⟩

theorem together_writerKept (b : Eng) (s : State) : WriterKept b s (together s) :=
  forEach_rel (R := WriterKept b) (.refl b) .trans _ _ (fun e t => .setCtl b e t _ (by intro c; rfl) (by intro c; rfl)) s

theorem abortDeliveries_writerKept (b : Eng) (s : State) : WriterKept b s (abortDeliveries s) := by
  have hdies := forEach_rel (R := WriterKept b) (.refl b) .trans lineDies (fun d t => t.setDie d DieSt.abortFrame)
    (fun d t => .setDie b d t _) s
  unfold abortDeliveries
  refine hdies.trans ?_
  cases b <;> exact ⟨⟨rfl, rfl, rfl, rfl, rfl⟩, rfl⟩

theorem startComputing_writerKept (b e : Eng) (s : State) : WriterKept b s (startComputing e s) := by
  dsimp only [startComputing, takePatterns]
  refine WriterKept.trans ?_ (.setData b e _ _)
  refine WriterKept.trans ?_ (abortDeliveries_writerKept b _)
  exact WriterKept.trans (.setData b e s _) (.setCtl b e _ _ (by intro c; rfl) (by intro c; rfl))

theorem makeTracking_writerKept (b e : Eng) (s : State) : WriterKept b s (makeTracking e s) := by
  unfold makeTracking
  split
  · exact WriterKept.trans (.setCtl b e s _ (by intro c; rfl) (by intro c; rfl)) (.setTally b e _ _)
  · exact .refl b s

theorem queueRecord_writerKept (b e : Eng) (r : List Byte) (s : State) : WriterKept b s (queueRecord e r s) := by
  unfold queueRecord
  split
  · cases b <;> exact ⟨⟨rfl, rfl, rfl, rfl, rfl⟩, rfl⟩
  · exact .refl b s

theorem seam_writer (b e : Eng) (prev : Option Eng) (cause : Nat) (cont : Bool) (q : BitVec 64) (s : State) :
    HolderKept b s (seam e prev cause cont q s) ∧ (seam e prev cause cont q s).capture.writer = some e := by
  dsimp only [seam]
  refine ⟨?_, rfl⟩
  generalize capRecord _ _ _ _ = r
  refine HolderKept.trans (queueRecord_writerKept b e r s).1 ?_
  cases b <;> exact ⟨rfl, rfl, rfl, rfl, rfl⟩

/-- The writer of the engine that takes over is the writer. -/
theorem takeWriter_writer (b e : Eng) (prev : Option Eng) (cause : Nat) (cont : Bool) (q : BitVec 64) (s : State) :
    HolderKept b s (takeWriter e prev cause cont q s) ∧ (takeWriter e prev cause cont q s).capture.writer = some e := by
  have hstart : ∀ s0 c m, WriterKept b s s0 → HolderKept b s { s0 with capture := c, matrix := m } := by
    intro s0 c m h
    obtain ⟨h1, h2, h3, h4, h5⟩ := h.1
    cases b <;> exact ⟨h1, h2, h3, h4, h5⟩
  have hclear : WriterKept b s (if cont then s else s.setData e (fun d => { d with streams := [], restarted := false })) := by
    split
    · exact .refl b s
    · exact .setEng b e s _ rfl rfl
  dsimp only [takeWriter]
  generalize (if cont then s else s.setData e (fun d => { d with streams := [], restarted := false })) = s0 at hclear
  have hfirst := hstart s0 { s0.capture with waiting := [], hand := none, made := 0 }
    { s.matrix.chargeWaits s.now with psram := (s.matrix.chargeWaits s.now).psram.dropCapture } hclear
  obtain ⟨hs, hw⟩ := seam_writer b e prev cause cont q { s0 with
    capture := { s0.capture with waiting := [], hand := none, made := 0 }
    matrix := { s.matrix.chargeWaits s.now with psram := (s.matrix.chargeWaits s.now).psram.dropCapture } }
  generalize seam e prev cause cont q _ = v at *
  split
  · have hq := forEach_rel (R := WriterKept b) (.refl b) .trans s.capture.chunks (queueRecord e) (queueRecord_writerKept b e) v
    exact ⟨(hfirst.trans hs).trans hq.1, hq.2.trans hw⟩
  · exact ⟨hfirst.trans hs, hw⟩

theorem giveIncumbency_spec (e : Eng) (s : State) :
    (giveIncumbency e s).duplex.incumbency = .held e ∧ (giveIncumbency e s).duplex.moved = true ∧
      (giveIncumbency e s).ports = s.ports ∧ ((giveIncumbency e s).eng e).ctl.incumbent = true ∧
      ((giveIncumbency e s).eng e).ctl.powered = (s.eng e).ctl.powered := by
  cases e <;> exact ⟨rfl, rfl, rfl, rfl, rfl⟩

/-- The engine granted incumbency holds it, with its claim bit set and its capture writer writing. -/
theorem grantTo_spec (e : Eng) (prev : Option Eng) (cause : Nat) (cont : Bool) (q : BitVec 64) (s : State) :
    (grantTo e prev cause cont q s).duplex.incumbency = .held e ∧ (grantTo e prev cause cont q s).duplex.moved = true ∧
      (grantTo e prev cause cont q s).ports = s.ports ∧ ((grantTo e prev cause cont q s).eng e).ctl.incumbent = true ∧
      ((grantTo e prev cause cont q s).eng e).ctl.powered = (s.eng e).ctl.powered ∧
      (grantTo e prev cause cont q s).capture.writer = some e := by
  obtain ⟨g1, g2, g3, g4, g5⟩ := giveIncumbency_spec e (together s)
  obtain ⟨⟨-, -, t3, -, t5⟩, -⟩ := together_writerKept e s
  obtain ⟨⟨w1, w2, w3, w4, w5⟩, w6⟩ := takeWriter_writer e e prev cause cont q (giveIncumbency e (together s))
  have hrest : WriterKept e (takeWriter e prev cause cont q (giveIncumbency e (together s))) (grantTo e prev cause cont q s) := by
    dsimp only [grantTo]
    generalize takeWriter e prev cause cont q (giveIncumbency e (together s)) = v
    have hcomp : WriterKept e v (if (v.eng e).ctl.computing then v else startComputing e v) := by
      split
      · exact .refl e v
      · exact startComputing_writerKept e e v
    generalize (if (v.eng e).ctl.computing then v else startComputing e v) = x at hcomp
    refine hcomp.trans ?_
    split
    · exact makeTracking_writerKept e e.other _
    · exact .refl e _
  obtain ⟨⟨r1, r2, r3, r4, r5⟩, r6⟩ := hrest
  exact ⟨(r1.trans w1).trans g1, (r2.trans w2).trans g2, ((r3.trans w3).trans g3).trans t3, (r4.trans w4).trans g4,
    ((r5.trans w5).trans g5).trans t5, r6.trans w6⟩

/-- A claim with the incumbency bit of a powered engine is odd. -/
theorem EngCtl.claim_odd {c : EngCtl} (hp : c.powered = true) (hi : c.incumbent = true) : c.claim % 2 = 1 := by
  rw [EngCtl.claim, if_pos hp, hi]
  show (2 * c.health + 1) % 2 = 1
  omega

theorem heartbeat_of_moving {e a : Eng} {since : Nat} (claim : BitVec 4) {s : State} (h : s.duplex.incumbency = .moving a since) :
    heartbeat e claim s = if a = e ∧ (s.eng e).ctl.running ∧ claim.toNat = (s.eng e).ctl.word ∧ claim.getLsbD 0 = false then
      { s with duplex := { s.duplex with clearSeen := true } } else s := by
  unfold heartbeat
  rw [h]

/-- KP grants once the bit has been seen clear or 1024 ticks have passed, but under HALT. -/
theorem incumbencyGrant_due {e : Eng} {since : Nat} {s : State} (h : s.duplex.incumbency = .moving e since) (hh : s.tap.halt = false)
    (hd : s.duplex.clearSeen = true ∨ since + 1024 ≤ s.now) :
    ((s.eng e.other).ctl.running = true → ∃ cause cont q, incumbencyGrant s = grantTo e.other (some e) cause cont q s) ∧
      ((s.eng e.other).ctl.running = false → incumbencyGrant s = { s with duplex := { s.duplex with incumbency := .nobody } }) := by
  have hdue : (s.duplex.clearSeen || decide (since + 1024 ≤ s.now)) = true := by
    rcases hd with hd | hd
    · rw [hd]; rfl
    · rw [decide_eq_true hd, Bool.or_true]
  unfold incumbencyGrant
  rw [h]
  dsimp only
  rw [hdue, hh, if_pos (show (true && !false) = true from rfl)]
  exact ⟨fun hr => ⟨_, _, _, if_pos hr⟩, fun hr => if_neg (by rw [hr]; exact Bool.noConfusion)⟩

theorem incumbencyGrant_not_due {e : Eng} {since : Nat} {s : State} (h : s.duplex.incumbency = .moving e since)
    (hn : s.tap.halt = true ∨ (s.duplex.clearSeen = false ∧ s.now < since + 1024)) : incumbencyGrant s = s := by
  unfold incumbencyGrant
  rw [h]
  refine if_neg ?_
  rcases hn with hn | ⟨h1, h2⟩
  · rw [hn, Bool.not_true, Bool.and_false]; exact Bool.noConfusion
  · rw [h1, decide_eq_false (Nat.not_le.mpr h2)]; exact Bool.noConfusion

/-- Settles O40: a clear bit is noted, and the grant goes to the other engine if it runs. -/
theorem incumbencyMoves : Obligations.IncumbencyMoves := by
  unfold Obligations.IncumbencyMoves
  rintro e since k s t rfl hm
  refine ⟨fun claim hr hc hb => next_of_eq ((heartbeat_of_moving claim hm).trans (if_pos ⟨rfl, hr, hc, hb⟩)),
    fun claim h => next_of_eq ((heartbeat_of_moving claim hm).trans (if_neg ?_)), fun hh hd hr => ⟨_, rfl, ?_⟩,
    fun hh hd hr => next_of_eq ((incumbencyGrant_due hm hh hd).2 hr), fun h => next_of_eq (incumbencyGrant_not_due hm h)⟩
  · rintro ⟨-, hr, hc, hb⟩
    rcases h with h | h | h
    · rw [h] at hb; exact Bool.noConfusion hb
    · exact h hc
    · rw [h] at hr; exact Bool.noConfusion hr
  · have hkept := kept_incumbencyGrant (atTick k s)
    obtain ⟨cause, cont, q, hg⟩ := (incumbencyGrant_due hm hh hd).1 hr
    rw [hg] at hkept ⊢
    obtain ⟨g1, g2, g3, g4, g5, g6⟩ := grantTo_spec e.other (some e) cause cont q (atTick k s)
    have hpow : ((atTick k s).eng e.other).ctl.powered = true := by
      rw [EngCtl.running, Bool.and_eq_true] at hr
      exact hr.1
    exact ⟨g1, g4, EngCtl.claim_odd (g5.trans hpow) g4, g2, g6, g3, .of_kept hkept⟩

end Sys2Proof.Machine
end

section
/-! SUPPORT. The ends of page loads (R118 to R120, R223, R471). -/

namespace Sys2Proof.Machine

/-- The data part of each engine that takes the load is changed. -/
def toTakers (f : Eng → EngData → EngData) (s : State) : State :=
  forEach engines (fun e t => if takesLoad t e then t.setData e (f e) else t) s

/-- Each engine that takes the load is changed by its own `f`, and nothing else is. -/
theorem toTakers_spec (f : Eng → EngData → EngData) (s : State) :
    (∀ e, (takesLoad s e = true → (toTakers f s).eng e = { s.eng e with data := f e (s.eng e).data }) ∧
      (takesLoad s e = false → (toTakers f s).eng e = s.eng e)) ∧
    toTakers f s = { s with engX := (toTakers f s).engX, engY := (toTakers f s).engY } := by
  have hu : toTakers f s = { s with
      engX := if takesLoad s .ex then { s.engX with data := f .ex s.engX.data } else s.engX
      engY := if takesLoad s .ey then { s.engY with data := f .ey s.engY.data } else s.engY } := by
    have hy : ∀ g, takesLoad (s.setData .ex g) .ey = takesLoad s .ey := fun _ => rfl
    unfold toTakers forEach engines
    dsimp only [List.foldl]
    split
    · rw [hy]
      split <;> rfl
    · split <;> rfl
  rw [hu]
  refine ⟨fun e => ?_, rfl⟩
  cases e
  · exact ⟨fun h => if_pos h, fun h => if_neg (by rw [h]; exact Bool.noConfusion)⟩
  · exact ⟨fun h => if_pos h, fun h => if_neg (by rw [h]; exact Bool.noConfusion)⟩

theorem imageAlarm_eq (s : State) : ∃ a, imageAlarm s = { s with alarm := a } := by
  unfold imageAlarm State.setAlarm
  split
  · exact ⟨_, rfl⟩
  · exact ⟨_, rfl⟩

theorem imageAlarm_on {s : State} (h : s.image.refusedOn = true) : (imageAlarm s).alarm.on .image = true := by
  unfold imageAlarm State.setAlarm
  rw [h, Bool.true_or, Bool.true_or, if_pos rfl]
  exact Alarm.raise_on _ _ _

/-- The V bits of a load that ended stand in every line die that works, and nothing else changed. -/
theorem writeV_spec (l : Load) (s : State) :
    (∀ d, (s.die d).works = true → (l.page, l.copy) ∈ ((writeV l s).die d).vPages) ∧
      writeV l s = { s with lda := (writeV l s).lda, ldb := (writeV l s).ldb } := by
  refine ⟨fun d h => ?_, rfl⟩
  cases d
  · have h' : s.lda.works = true := h
    simp [writeV, forEach, lineDies, State.setDie, State.die, h']
  · have h' : s.ldb.works = true := h
    simp [writeV, forEach, lineDies, State.setDie, State.die, h']

/-- What an engine that takes the load holds after it. -/
def EngData.loaded (l : Load) (good : Bool) (d : EngData) : EngData :=
  if l.toActive then { d with active := l.page, activeCopy := l.copy, activeOk := true, govern := l.page, governCopy := l.copy }
  else { d with shadow := .complete l.page l.copy good }

/-- What a load that the engines report good has brought into the engines that take it: `w` after `s`. -/
structure LoadTaken (l : Load) (x y : Option LoadReport) (s w : State) : Prop where
  takes : ∀ e, takesLoad s e = true → (w.eng e).data = (s.eng e).data.loaded l (reportGood s l (reportOf x y e))
  others : ∀ e, takesLoad s e = false → w.eng e = s.eng e
  rest : w = { s with engX := w.engX, engY := w.engY, image := { s.image with inForce := w.image.inForce } }

theorem loadTaken (l : Load) (x y : Option LoadReport) (s : State) :
    LoadTaken l x y s (if l.toActive then activate l s else shadowed l x y s) := by
  cases ha : l.toActive with
  | true =>
    rw [if_pos rfl]
    obtain ⟨heng, hrest⟩ := toTakers_spec (fun _ d =>
      { d with active := l.page, activeCopy := l.copy, activeOk := true, govern := l.page, governCopy := l.copy }) s
    have hu : activate l s = setForce l.page l.copy (toTakers (fun _ d =>
      { d with active := l.page, activeCopy := l.copy, activeOk := true, govern := l.page, governCopy := l.copy }) s) := rfl
    generalize toTakers _ s = v at *
    rw [hu]
    have hsame : ∀ e, (setForce l.page l.copy v).eng e = v.eng e := fun e => by cases e <;> rfl
    refine ⟨fun e he => ?_, fun e he => (hsame e).trans ((heng e).2 he), ?_⟩
    · rw [hsame, (heng e).1 he, EngData.loaded, ha, if_pos rfl]
    · rw [hrest]; rfl
  | false =>
    rw [if_neg Bool.noConfusion]
    obtain ⟨heng, hrest⟩ := toTakers_spec (fun e d => { d with shadow := .complete l.page l.copy (reportGood s l (reportOf x y e)) }) s
    have hu : shadowed l x y s =
      toTakers (fun e d => { d with shadow := .complete l.page l.copy (reportGood s l (reportOf x y e)) }) s := rfl
    generalize toTakers _ s = v at *
    rw [hu]
    refine ⟨fun e he => ?_, fun e he => (heng e).2 he, ?_⟩
    · rw [(heng e).1 he, EngData.loaded, ha, if_neg Bool.noConfusion]
    · rw [hrest]

/-- A load that ends good: the engines that take it hold the page, the line dies its V bits, and no load is in hand. -/
theorem loadEnds_good {x y : Option LoadReport} {l : Load} {s : State} (hl : s.image.load = some l) (hg : allGood s l x y = true) :
    (∀ e, takesLoad s e = true →
        ((loadEnds x y s).eng e).data = (s.eng e).data.loaded l (reportGood s l (reportOf x y e))) ∧
    (∀ e, takesLoad s e = false → (loadEnds x y s).eng e = s.eng e) ∧
    (∀ d, (s.die d).works = true → (l.page, l.copy) ∈ ((loadEnds x y s).die d).vPages) ∧
    (loadEnds x y s).image.load = none ∧ (loadEnds x y s).image.flash = s.image.flash ∧
    (s.image.refused = some l.page → (loadEnds x y s).image.refused = none) ∧
    (loadEnds x y s).keeper.reloading = (s.keeper.reloading && !l.toActive) ∧ (loadEnds x y s).ports = s.ports := by
  obtain ⟨htakes, hothers, hrest⟩ := loadTaken l x y s
  unfold loadEnds
  rw [hl]
  dsimp only
  rw [if_pos hg]
  generalize (if l.toActive then activate l s else shadowed l x y s) = w at *
  obtain ⟨hV, hVrest⟩ := writeV_spec l w
  generalize writeV l w = v at *
  generalize (v.image.refusedOn && _ && _) = on
  obtain ⟨a, ha⟩ := imageAlarm_eq { v with image := { v.image with
    load := none, refused := if v.image.refused = some l.page then none else v.image.refused, refusedOn := on } }
  rw [ha]
  have hrefused : v.image.refused = s.image.refused := by rw [hVrest, hrest]
  refine ⟨fun e he => ?_, fun e he => ?_, fun d hd => ?_, rfl, ?_, fun hr => ?_, ?_, ?_⟩
  · rw [← htakes e he, hVrest]
    cases e <;> rfl
  · rw [← hothers e he, hVrest]
    cases e <;> rfl
  · have hw : (w.die d).works = true := by rw [hrest]; cases d <;> exact hd
    have hv := hV d hw
    cases d <;> exact hv
  · show v.image.flash = _
    rw [hVrest, hrest]
  · exact if_pos (hrefused.trans hr)
  · show (v.keeper.reloading && !l.toActive) = _
    rw [hVrest, hrest]
  · show v.ports = _
    rw [hVrest, hrest]

theorem flagImage_bit (s : State) (b : ImageBit) : (s.flagImage b).image.status.getLsbD b.num = true :=
  setBit_get _ _ _ (by cases b <;> decide)

/-- A load that fails and can be read from the other copy. -/
theorem loadEnds_again {x y : Option LoadReport} {l : Load} {s : State} (hl : s.image.load = some l) (hg : allGood s l x y = false)
    (h2 : l.second = false) (hv : s.image.valid l.copy.other = true) :
    loadEnds x y s = { s.flagImage .reload with image := { (s.flagImage .reload).image with
      load := some { l with copy := l.copy.other, second := true } } } := by
  unfold loadEnds
  rw [hl]
  dsimp only
  rw [if_neg (by rw [hg]; exact Bool.noConfusion), if_pos (by rw [h2, hv]; rfl)]

theorem loadEnds_refused {x y : Option LoadReport} {l : Load} {s : State} (hl : s.image.load = some l) (hg : allGood s l x y = false)
    (h : l.second = true ∨ s.image.valid l.copy.other = false) : loadEnds x y s = refuse l s := by
  unfold loadEnds
  rw [hl]
  dsimp only
  rw [if_neg (by rw [hg]; exact Bool.noConfusion), if_neg]
  rcases h with h | h
  · rw [h]; exact Bool.noConfusion
  · rw [h, Bool.and_false]; exact Bool.noConfusion

/-- A refused load out of a wake: the page is kept as refused, with its alarm, and the shadows are empty. -/
theorem refuse_spec {l : Load} {s : State} (hr : s.keeper.reloading = false) :
    (refuse l s).image.load = none ∧ (refuse l s).image.refused = some l.page ∧ (refuse l s).image.status.getLsbD 5 = true ∧
      (refuse l s).alarm.on .image = true ∧
      (∀ e, ((refuse l s).eng e).data.active = (s.eng e).data.active ∧
        (takesLoad s e = true → ((refuse l s).eng e).data.shadow = .empty)) ∧
      (refuse l s).ports = s.ports := by
  obtain ⟨heng, hrest⟩ := toTakers_spec (fun _ d => { d with shadow := .empty }) (s.flagImage .refused)
  have hshadows : setShadows .empty (s.flagImage .refused) = toTakers (fun _ d => { d with shadow := .empty }) (s.flagImage .refused) := rfl
  have hkeeper : (toTakers (fun _ d => { d with shadow := .empty }) (s.flagImage .refused)).keeper = s.keeper := by rw [hrest]; rfl
  have hstatus : (toTakers (fun _ d => { d with shadow := .empty }) (s.flagImage .refused)).image.status.getLsbD 5 = true := by
    rw [hrest]; exact flagImage_bit s .refused
  have hports : (toTakers (fun _ d => { d with shadow := .empty }) (s.flagImage .refused)).ports = s.ports := by rw [hrest]; rfl
  have hstand : (toTakers (fun _ d => { d with shadow := .empty }) (s.flagImage .refused)).standIn l = false := by
    rw [State.standIn, hkeeper, hr, Bool.and_false, Bool.false_and]
  unfold refuse
  rw [hshadows, hr]
  generalize toTakers _ (s.flagImage .refused) = v at *
  dsimp only
  rw [hstand, Bool.and_false, Bool.false_and, if_neg Bool.noConfusion, if_neg Bool.noConfusion]
  generalize (if v.image.awaited = some l.page then none else v.image.awaited) = aw
  have hon := imageAlarm_on (s := { v with image := { v.image with load := none, refused := some l.page, refusedOn := true, awaited := aw } }) rfl
  obtain ⟨a, ha⟩ := imageAlarm_eq { v with image := { v.image with
    load := none, refused := some l.page, refusedOn := true, awaited := aw } }
  rw [ha] at hon ⊢
  have hflag : ∀ e, takesLoad (s.flagImage .refused) e = takesLoad s e ∧ (s.flagImage .refused).eng e = s.eng e := by
    intro e
    cases e <;> exact ⟨rfl, rfl⟩
  refine ⟨rfl, rfl, hstatus, hon, fun e => ?_, hports⟩
  obtain ⟨htakes, hnot⟩ := heng e
  rw [(hflag e).1, (hflag e).2] at htakes
  rw [(hflag e).1, (hflag e).2] at hnot
  have hv : ({ v with image := { v.image with load := none, refused := some l.page, refusedOn := true, awaited := aw }, alarm := a } : State).eng e =
      v.eng e := by cases e <;> rfl
  refine ⟨?_, fun ht => ?_⟩
  · cases ht : takesLoad s e with
    | true => rw [hv, htakes ht]
    | false => rw [hv, hnot ht]
  · rw [hv, htakes ht]

/-- What an engine that takes a good load reports is good. -/
theorem reportGood_of_allGood {x y : Option LoadReport} {l : Load} {s : State} (h : allGood s l x y = true) {e : Eng}
    (ht : takesLoad s e = true) : reportGood s l (reportOf x y e) = true := by
  have he := List.all_eq_true.mp h e (by cases e <;> decide)
  rwa [ht, Bool.not_true, Bool.false_or] at he

/-- Settles O42: by whether a load is in hand, whether the engines report it good, and whether another copy can be read. -/
theorem pageLoads : Obligations.PageLoads := by
  unfold Obligations.PageLoads
  intro x y k l
  refine ⟨?_, ?_, ?_, ?_, ?_⟩
  · rintro s t rfl hl hg
    obtain ⟨htakes, hothers, hV, hload, hflash, href, -, hports⟩ := loadEnds_good hl hg
    refine ⟨_, rfl, hload, hflash, href, fun e he => ?_, hothers, hV, hports⟩
    rw [htakes e he, reportGood_of_allGood hg he, EngData.loaded]
    exact ⟨fun ha => by rw [if_pos ha]; exact ⟨rfl, rfl, rfl⟩,
      fun ha => by rw [if_neg (by rw [ha]; exact Bool.noConfusion)]; exact ⟨rfl, rfl⟩⟩
  · rintro s t rfl hl hg
    refine ⟨fun h2 hv => ⟨_, next_of_eq (loadEnds_again hl hg h2 hv), rfl, flagImage_bit _ .reload, rfl⟩,
      fun h hr => ⟨_, next_of_eq (loadEnds_refused hl hg h), refuse_spec hr⟩⟩
  · rintro s t rfl hl
    refine next_of_eq ?_
    unfold loadEnds
    rw [hl]
  · intro s hr hl ha hg
    obtain ⟨htakes, -, -, hload, -, -, hrel, -⟩ := loadEnds_good hl hg
    refine ⟨_, next_of_eq (if_pos hr), by rw [hrel, hr, ha]; rfl, hload, fun e he => ?_⟩
    rw [htakes e he, EngData.loaded, if_pos ha]
    exact ⟨rfl, rfl⟩
  · exact fun s hr => next_of_eq (if_neg (by rw [hr]; exact Bool.noConfusion))

end Sys2Proof.Machine
end

section
/-! SUPPORT. Samples of the live keys (R58 to R69), events of timers (R393 to R396), and ALARM_N (R398). -/

namespace Sys2Proof.Machine

/-! ### Live keys -/

theorem LiveKey.sample_eq (m : Range) (r : KeyRaw) (k : LiveKey) :
    k.sample m r = { k with newer := levelOfSample m r, ambNext := (levelOfSample m r).isNone } := by
  unfold LiveKey.sample
  cases levelOfSample m r <;> rfl

/-- The four readers of the live keys follow their pins, and those of the boot keys stay. -/
theorem followPins_live (v : Vector Range 12) (a b c d : KeyRaw) :
    (∀ i : Fin 4, (followPins 8 [a, b, c, d] v)[i.val + 8] =
      rangeAfter v[i.val + 8] (if i = 0 then a else if i = 1 then b else if i = 2 then c else d)) ∧
      ∀ j : Fin 12, j.val < 8 → (followPins 8 [a, b, c, d] v)[j] = v[j] := by
  refine ⟨fun i => ?_, fun j hj => ?_⟩
  · match i with
    | 0 | 1 | 2 | 3 => exact (Vector.getElem_ofFn _).trans rfl
  · have hn : ¬8 ≤ j.val := Nat.not_le.mpr hj
    simp [followPins, hn]

theorem sampleKeys_off {a b c d : KeyRaw} {s : State} (h : s.time.counting = false ∨ s.keeper.dozing = true ∨ s.pos.f ≠ 31) :
    sampleKeys a b c d s = s := by
  refine if_neg ?_
  rcases h with h | h | h
  · rw [h, Bool.false_and, Bool.false_and]; exact Bool.noConfusion
  · rw [h, Bool.not_true, Bool.and_false, Bool.false_and]; exact Bool.noConfusion
  · rw [beq_eq_false_iff_ne.mpr h, Bool.and_false]; exact Bool.noConfusion

/-- Settles O43: in frame 31 the readers follow, and the samples are kept where they count. -/
theorem liveKeysSampled : Obligations.LiveKeysSampled := by
  unfold Obligations.LiveKeysSampled
  intro a b c d s
  refine ⟨fun hc hd hf => ?_, fun h => next_of_eq (sampleKeys_off h)⟩
  have he : sampleKeys a b c d s = _ := if_pos (by rw [hc, hd, hf]; rfl)
  dsimp only at he
  refine ⟨fun hr hp ht => ⟨_, next_of_eq (he.trans (if_pos ?_)), fun i m r hm hraw => ?_, fun j hj => (followPins_live _ a b c d).2 j hj, rfl⟩,
    fun h => ⟨_, next_of_eq (he.trans (if_neg ?_)), rfl⟩⟩
  · rw [hr, bne_iff_ne.mpr hp, decide_eq_true ht]; rfl
  · subst hm hraw
    refine ⟨?_, (followPins_live _ a b c d).1 i⟩
    rw [← LiveKey.sample_eq]
    match i with
    | 0 | 1 | 2 | 3 => rfl
  · rcases h with h | h | h
    · rw [h]; exact Bool.noConfusion
    · rw [h, bne_self_eq_false, Bool.and_false]; exact Bool.noConfusion
    · rw [decide_eq_false (Nat.not_le.mpr h), Bool.and_false]; exact Bool.noConfusion

/-! ### What a timer has counted -/

theorem Timer.hold_value (v : Nat) (t : Timer) : (t.hold v).value = v := by
  have h : min v 0xFFFFFFFF < 2 ^ 32 := Nat.lt_of_le_of_lt (Nat.min_le_right _ _) (by decide)
  rw [Timer.value, Timer.hold]
  dsimp only
  rw [BitVec.toNat_ofNat, Nat.mod_eq_of_lt h]
  exact Nat.add_sub_cancel' (Nat.min_le_left _ _)

/-- A value that the counter can hold stands in it. -/
theorem Timer.hold_counter {v : Nat} (t : Timer) (h : v ≤ 0xFFFFFFFF) : (t.hold v).counter = BitVec.ofNat 32 v :=
  congrArg (BitVec.ofNat 32) (Nat.min_eq_left h)

/-- A full counter that takes a unit wraps, but in an armed reloading timer. -/
theorem Timer.add_wraps {t : Timer} {reload : Bool} (h : t.counter = 0xFFFFFFFF) (hr : reload = false ∨ t.armed = false) :
    (t.add reload 1).counter = 0 ∧ (t.add reload 1).wrapped = true := by
  have hn : (reload && t.armed) = false := by
    rcases hr with hr | hr
    · rw [hr]; rfl
    · rw [hr, Bool.and_false]
  unfold Timer.add
  rw [if_neg (by rw [hn]; exact Bool.noConfusion), h]
  exact ⟨rfl, Bool.or_true _⟩

theorem Timer.add_reloading {t : Timer} (n : Nat) (h : t.armed = true) :
    (t.add true n).value = t.value + n ∧ (t.add true n).wrapped = t.wrapped := by
  unfold Timer.add
  rw [if_pos (by rw [h]; rfl)]
  exact ⟨Timer.hold_value _ t, rfl⟩

/-! ### Events of a timer -/

/-- The changed timer, read by the index itself. -/
theorem State.setTimer_timer (s : State) (i : TimerId) (f : Timer → Timer) : (s.setTimer i f).timers[i] = f s.timers[i] :=
  State.setTimer_get_same s i f

/-- Timer `i` is not clocked by its own events. -/
def clockedByOthers (s : State) (i : TimerId) : Prop := (s.preset i).src ≠ 3 ∨ (s.preset i).arg ≠ i.val

/-- Nothing changed but timers, and of those not `i`, unless its own events clock it. -/
def OthersCount (i : TimerId) (s u : State) : Prop :=
  u = { s with timers := u.timers } ∧ (clockedByOthers s i → u.timers[i] = s.timers[i])

theorem OthersCount.refl (i : TimerId) (s : State) : OthersCount i s s := ⟨rfl, fun _ => rfl⟩

theorem OthersCount.trans {i : TimerId} {s t u : State} (a : OthersCount i s t) (b : OthersCount i t u) : OthersCount i s u := by
  obtain ⟨a1, a2⟩ := a
  obtain ⟨b1, b2⟩ := b
  refine ⟨by rw [b1, a1], fun h => (b2 ?_).trans (a2 h)⟩
  rw [a1]
  exact h

theorem OthersCount.setTimer {i j : TimerId} {s : State} (h : clockedByOthers s i → i ≠ j) (f : Timer → Timer) :
    OthersCount i s (s.setTimer j f) := ⟨rfl, fun hc => State.setTimer_get_ne s f (h hc)⟩

theorem passEvent_othersCount (i : TimerId) (n : Nat) (s : State) : OthersCount i s (passEvent i n s) := by
  refine forEach_rel (R := OthersCount i) (.refl i) .trans _ _ (fun j t => ?_) s
  split
  · rename_i hj
    have hne : clockedByOthers t i → i ≠ j := by
      rintro hc rfl
      rw [Bool.and_eq_true, beq_iff_eq, beq_iff_eq] at hj
      exact hc.elim (fun h => h hj.1) (fun h => h hj.2)
    split
    · unfold State.unit
      dsimp only
      split
      · exact .setTimer hne _
      · exact .refl i t
    · split
      · exact .setTimer hne _
      · exact .refl i t
  · exact .refl i t

/-- A timer with the marks of `n` events, matches or overflows (R396). -/
def Timer.marked (s : State) (i : TimerId) (isMatch : Bool) (n : Nat) (t : Timer) : Timer :=
  { t with
    stamp := s.stamp, qual := s.qual
    match_ := t.match_ || isMatch, ovf := t.ovf || !isMatch
    events := sat16 t.events n
    pending := t.pending || (s.preset i).action != 0 }

/-- What the events of a timer that others clock mark and leave. -/
theorem timerEvents_spec {i : TimerId} {s : State} (isMatch : Bool) (n : Nat) (hc : clockedByOthers s i) :
    (timerEvents i isMatch n s).timers[i] = s.timers[i].marked s i isMatch n ∧
      (timerEvents i isMatch n s).alarm = (if (s.preset i).pulse then s.alarm.pulse s.now else s.alarm) ∧
      timerEvents i isMatch n s = { s with
        timers := (timerEvents i isMatch n s).timers, alarm := (timerEvents i isMatch n s).alarm
        tally := { s.tally with timerTurn := true } } := by
  have hstart : ∃ v, v = s.setTimer i (Timer.marked s i isMatch n) ∧ timerEvents i isMatch n s = passEvent i n
      { v with tally := { s.tally with timerTurn := true }, alarm := if (s.preset i).pulse then s.alarm.pulse s.now else s.alarm } := by
    refine ⟨_, rfl, ?_⟩
    unfold timerEvents
    dsimp only
    split <;> rfl
  obtain ⟨v, hv, he⟩ := hstart
  have hi : v.timers[i] = s.timers[i].marked s i isMatch n := by rw [hv]; exact State.setTimer_timer s i _
  obtain ⟨h1, h2⟩ := passEvent_othersCount i n
    { v with tally := { s.tally with timerTurn := true }, alarm := if (s.preset i).pulse then s.alarm.pulse s.now else s.alarm }
  rw [← he] at h1 h2
  generalize timerEvents i isMatch n s = u at *
  refine ⟨(h2 (by rw [hv]; exact hc)).trans hi, by rw [h1], ?_⟩
  rw [h1, hv]
  rfl

/-- The frame of a timer event, with the alarm's pulse named. -/
theorem timerEvents_frame {i : TimerId} {s : State} (isMatch : Bool) (n : Nat) (hc : clockedByOthers s i) :
    timerEvents i isMatch n s = { s with
      timers := (timerEvents i isMatch n s).timers
      alarm := { s.alarm with pulseEnd := (timerEvents i isMatch n s).alarm.pulseEnd }
      tally := { s.tally with timerTurn := true } } := by
  obtain ⟨-, ha, hu⟩ := timerEvents_spec isMatch n hc
  have hp : (timerEvents i isMatch n s).alarm = { s.alarm with pulseEnd := (timerEvents i isMatch n s).alarm.pulseEnd } := by
    rw [ha]
    split <;> rfl
  rw [← hp]
  exact hu

/-! ### Matches and overflows -/

/-- A timer at its match: it reloads, or disarms with OUT at 1 (R393). -/
def Timer.matched (reload : Bool) (c : Nat) (t : Timer) : Timer :=
  if reload then { t.hold (t.value - c) with out := !t.out } else { t with armed := false, out := true }

theorem doMatch_eq (i : TimerId) (s : State) :
    doMatch i s = timerEvents i true 1 (s.setTimer i (Timer.matched (s.preset i).reload (s.compareOf i))) := rfl

/-- Settles O44: the timer matches, is marked, and its event is passed on to others. -/
theorem timerMatchesOnce : Obligations.TimerMatches := by
  unfold Obligations.TimerMatches
  rintro i k s t rfl
  refine ⟨fun hm hc => ⟨_, next_of_eq ((if_pos hm).trans (doMatch_eq i _)), ?_⟩,
    fun hm => next_of_eq (if_neg (by rw [hm]; exact Bool.noConfusion))⟩
  generalize atTick k s = t at *
  have hc' : clockedByOthers (t.setTimer i (Timer.matched (t.preset i).reload (t.compareOf i))) i := hc
  obtain ⟨h1, h2, -⟩ := timerEvents_spec true 1 hc'
  have h3 := timerEvents_frame true 1 hc'
  rw [State.setTimer_timer] at h1
  have hpreset : (t.setTimer i (Timer.matched (t.preset i).reload (t.compareOf i))).preset i = t.preset i := rfl
  rw [hpreset] at h2
  generalize timerEvents i true 1 (t.setTimer i _) = u at *
  have hsame : ∀ b, ((Timer.matched b (t.compareOf i) t.timers[i]).match_ = t.timers[i].match_ ∧
      (Timer.matched b (t.compareOf i) t.timers[i]).ovf = t.timers[i].ovf ∧
      (Timer.matched b (t.compareOf i) t.timers[i]).events = t.timers[i].events ∧
      (Timer.matched b (t.compareOf i) t.timers[i]).pending = t.timers[i].pending) := by
    intro b
    cases b <;> exact ⟨rfl, rfl, rfl, rfl⟩
  obtain ⟨-, s2, s3, s4⟩ := hsame (t.preset i).reload
  rw [h1]
  refine ⟨Bool.or_true _, ?_, rfl, rfl, ?_, ?_, fun hr => ?_, fun hr => ?_, fun hp => ?_, fun hp => ?_, h3.trans rfl⟩
  · exact (Bool.or_false _).trans s2
  · exact congrArg (sat16 · 1) s3
  · exact congrArg (· || (t.preset i).action != 0) s4
  · rw [hr]
    exact ⟨rfl, rfl, rfl⟩
  · rw [hr]
    refine ⟨rfl, rfl, Timer.hold_value _ t.timers[i], fun hd => ?_⟩
    have hv : t.timers[i].value = t.timers[i].counter.toNat := by rw [Timer.value, hd]; rfl
    refine (Timer.hold_counter t.timers[i] (v := t.timers[i].value - t.compareOf i) ?_).trans (by rw [hv])
    have := t.timers[i].counter.isLt
    omega
  · rw [h2, if_pos hp]; rfl
  · rw [h2, if_neg (by rw [hp]; exact Bool.noConfusion)]; rfl

/-- Settles O45: a full counter wraps, and the overflow owed is an event of its timer. -/
theorem timerOverflowsOnce : Obligations.TimerOverflows := by
  unfold Obligations.TimerOverflows
  refine ⟨fun t reload h hr => Timer.add_wraps h hr, fun t n h => Timer.add_reloading n h, ?_⟩
  rintro i k s t rfl
  refine ⟨fun hw hf hc => ⟨_, next_of_eq (if_pos (by rw [hw, hf]; rfl)), ?_⟩,
    fun hw => next_of_eq (if_neg (by rw [hw]; exact Bool.noConfusion))⟩
  generalize atTick k s = t at *
  have hc' : clockedByOthers (t.setTimer i (fun t => { t with wrapped := false, armed := true })) i := hc
  obtain ⟨h1, -, -⟩ := timerEvents_spec false 1 hc'
  have h3 := timerEvents_frame false 1 hc'
  rw [State.setTimer_timer] at h1
  unfold doOverflow
  generalize timerEvents i false 1 (t.setTimer i _) = u at *
  rw [h1]
  exact ⟨rfl, rfl, rfl, rfl, Bool.or_true _, Bool.or_false _, rfl, rfl, h3.trans rfl⟩

/-! ### ALARM_N -/

/-- Settles O46: a pulse or a minimum time ends at its tick, and until then ALARM_N is called low. -/
theorem alarmEnds : Obligations.AlarmEnds := by
  unfold Obligations.AlarmEnds
  rintro k s t rfl
  have hpulse : exec (.alarmPulseEnd k) s = .next (pulseEnds (atTick k s)) := rfl
  have hmin : exec (.alarmConditionMinimumEnd k) s = .next (minimumEnds (atTick k s)) := rfl
  generalize atTick k s = t at *
  refine ⟨fun n hn => ?_, fun n hn => ?_, fun hn => hpulse.trans (next_of_eq ?_), fun hn => hmin.trans (next_of_eq ?_)⟩
  · have he : pulseEnds t = if n ≤ t.now then { t with alarm := { t.alarm with pulseEnd := none } } else t := by
      unfold pulseEnds
      rw [hn]
    refine ⟨fun hle => ⟨_, hpulse.trans (next_of_eq (he.trans (if_pos hle))), ?_, rfl⟩,
      fun hlt => ⟨?_, hpulse.trans (next_of_eq (he.trans (if_neg (Nat.not_le.mpr hlt))))⟩⟩
    · show (t.alarm.holds != 0 || false || _) = _
      rw [Bool.or_false]
      rfl
    · rw [Alarm.low, hn, Option.any_some, decide_eq_true hlt, Bool.or_true, Bool.true_or]
  · have he : minimumEnds t = if n ≤ t.now then { t with alarm := { t.alarm with minEnd := none } } else t := by
      unfold minimumEnds
      rw [hn]
    refine ⟨fun hle => ⟨_, hmin.trans (next_of_eq (he.trans (if_pos hle))), ?_, rfl⟩,
      fun hlt => ⟨?_, hmin.trans (next_of_eq (he.trans (if_neg (Nat.not_le.mpr hlt))))⟩⟩
    · show (t.alarm.holds != 0 || _ || false) = _
      rw [Bool.or_false]
      rfl
    · rw [Alarm.low, hn, Option.any_some, decide_eq_true hlt, Bool.or_true]
  · unfold pulseEnds
    rw [hn]
  · unfold minimumEnds
    rw [hn]

end Sys2Proof.Machine
end

section
/-! SUPPORT. The parts of the bus matrix under its updates, the bytes of its memories, and lending (R416, R417, R420, R508). -/

namespace Sys2Proof.Machine

/-! ### Targets and lends under the updates of the matrix -/

@[simp] theorem Matrix.target_setTarget_same (m : Matrix) (t : Target) (f : TargetSt → TargetSt) :
    (m.setTarget t f).target t = f (m.target t) := by cases t <;> rfl

theorem Matrix.target_setTarget_other (m : Matrix) {t x : Target} (f : TargetSt → TargetSt) (h : x ≠ t) :
    (m.setTarget t f).target x = m.target x := by cases t <;> cases x <;> simp_all [Matrix.target, Matrix.setTarget]

@[simp] theorem Matrix.lend_setTarget (m : Matrix) (t : Target) (f : TargetSt → TargetSt) (l : LendTarget) :
    (m.setTarget t f).lend l = m.lend l := by cases t <;> rfl

@[simp] theorem Matrix.lend_setLend_same (m : Matrix) (l : LendTarget) (f : Lend → Lend) :
    (m.setLend l f).lend l = f (m.lend l) := by cases l <;> rfl

theorem Matrix.lend_setLend_other (m : Matrix) {l x : LendTarget} (f : Lend → Lend) (h : x ≠ l) :
    (m.setLend l f).lend x = m.lend x := by cases l <;> cases x <;> simp_all [Matrix.lend, Matrix.setLend]

@[simp] theorem Matrix.target_setLend (m : Matrix) (l : LendTarget) (f : Lend → Lend) (t : Target) :
    (m.setLend l f).target t = m.target t := by cases l <;> rfl

@[simp] theorem Matrix.disturbed_setLend (m : Matrix) (l : LendTarget) (f : Lend → Lend) :
    (m.setLend l f).disturbed = m.disturbed := by cases l <;> rfl

@[simp] theorem Matrix.target_floats (m : Matrix) (n : Nat) (t : Target) : (m.floats n).target t = m.target t := by
  cases t <;> rfl

@[simp] theorem Matrix.target_writeMem (m : Matrix) (t : Target) (a : Nat) (l : List Byte) (x : Target) :
    (m.writeMem t a l).target x = m.target x := by cases t <;> rfl

@[simp] theorem Matrix.lend_writeMem (m : Matrix) (t : Target) (a : Nat) (l : List Byte) (x : LendTarget) :
    (m.writeMem t a l).lend x = m.lend x := by cases t <;> rfl

/-- A memory that is to be lent has its balls released where no burst is in progress on it. -/
theorem Matrix.floats_lend (m : Matrix) (n : Nat) (l : LendTarget) :
    (m.floats n).lend l = { m.lend l with
      hiZ := if (m.lend l).requested = true ∧ (m.lend l).granted = false ∧ (m.lend l).hiZ = none ∧
        (m.target (lendTarget l)).busy = none then some n else (m.lend l).hiZ } := by
  have hf : ∀ (x : Lend) (b : TargetSt),
      (if x.requested && !x.granted && x.hiZ.isNone && b.busy.isNone then { x with hiZ := some n } else x) =
        { x with hiZ := if x.requested = true ∧ x.granted = false ∧ x.hiZ = none ∧ b.busy = none then some n else x.hiZ } := by
    intro x b
    simp only [Bool.and_eq_true, Bool.not_eq_true', Option.isNone_iff_eq_none, and_assoc]
    split <;> rfl
  cases l
  · exact hf m.lendT m.fram
  · exact hf m.lendC m.psram

/-- A target is lent as its lend says. -/
theorem Matrix.lent_lendTarget (m : Matrix) (l : LendTarget) :
    m.lent (lendTarget l) = ((m.lend l).requested || (m.lend l).granted) := by cases l <;> rfl

/-! ### Bytes of the memories -/

/-- The bytes of the matrix's memories; none of them is the flash's. -/
def Matrix.byteOf (m : Matrix) (t : Target) (a : Nat) : Byte :=
  match m.mem t with
  | some x => Mem.read ramFill x a
  | none => flashFill

/-- A byte of a target is the flash's own or the matrix's. -/
theorem State.byteOf_eq (s : State) (t : Target) (a : Nat) :
    s.byteOf t a = if t = .flash then Mem.read flashFill s.image.flash a else s.matrix.byteOf t a := by cases t <;> rfl

theorem State.byteOf_congr {s u : State} (hf : u.image.flash = s.image.flash) (t : Target) (a : Nat)
    (h : t ≠ .flash → u.matrix.byteOf t a = s.matrix.byteOf t a) : u.byteOf t a = s.byteOf t a := by
  rw [State.byteOf_eq, State.byteOf_eq, hf]
  split
  · rfl
  next ht => exact h ht

theorem SameBytes.trans {s t u : State} (h : SameBytes s t) (h' : SameBytes t u) : SameBytes s u := fun a => by
  obtain ⟨hfl, hfr, hps, hsr⟩ := h a
  obtain ⟨hfl', hfr', hps', hsr'⟩ := h' a
  exact ⟨hfl'.trans hfl, hfr'.trans hfr, hps'.trans hps, hsr'.trans hsr⟩

/-- States that keep the same have the same bytes. -/
theorem State.byteOf_of_kept {s u : State} (h : kept u = kept s) (t : Target) (a : Nat) : u.byteOf t a = s.byteOf t a := by
  obtain ⟨hfl, hfr, hps, hsr⟩ := SameBytes.of_kept h a
  cases t
  · exact hfl
  · exact hps
  · exact hfr
  · exact hsr

theorem Matrix.byteOf_writeMem_other (m : Matrix) {t x : Target} (a : Nat) (l : List Byte) (h : x ≠ t) (b : Nat) :
    (m.writeMem t a l).byteOf x b = m.byteOf x b := by cases t <;> cases x <;> first | rfl | exact absurd rfl h

theorem Matrix.byteOf_writeMem_outside (m : Matrix) (t : Target) (a : Nat) (l : List Byte) (b : Nat)
    (h : b < a ∨ a + l.length ≤ b) : (m.writeMem t a l).byteOf t b = m.byteOf t b := by
  cases t
  · rfl
  all_goals exact Mem.read_writeAll_other _ _ _ _ _ h

/-- What is written in a memory of canonical form is read back. -/
theorem Mem.read_writeAll_same (d : Byte) (l : List Byte) (m : Mem) (x i : Nat) (h : Mem.wf d m = true) (hi : i < l.length) :
    Mem.read d (Mem.writeAll d m x l) (x + i) = byteAt l i := by
  induction l generalizing m x i with
  | nil => cases hi
  | cons v l ih =>
    have hw := Mem.wf_write d m x v h
    cases i with
    | zero =>
      show Mem.read d (Mem.writeAll d (Mem.write d m x v) (x + 1) l) x = v
      rw [Mem.read_writeAll_other _ _ _ _ _ (Or.inl (Nat.lt_succ_self x))]
      exact Mem.read_write_same d m x 0 v h
    | succ i =>
      have := ih (Mem.write d m x v) (x + 1) i hw (Nat.lt_of_succ_lt_succ hi)
      rwa [Nat.add_right_comm, Nat.add_assoc] at this

theorem Matrix.byteOf_writeMem_same (m : Matrix) (t : Target) (a : Nat) (l : List Byte) (i : Nat) (hm : m.wf = true)
    (ht : t ≠ .flash) (hi : i < l.length) : (m.writeMem t a l).byteOf t (a + i) = byteAt l i := by
  simp only [Matrix.wf, Bool.and_eq_true] at hm
  obtain ⟨⟨hfr, hps⟩, hsr⟩ := hm
  cases t
  · exact absurd rfl ht
  · exact Mem.read_writeAll_same _ _ _ _ _ hps hi
  · exact Mem.read_writeAll_same _ _ _ _ _ hfr hi
  · exact Mem.read_writeAll_same _ _ _ _ _ hsr hi

theorem Matrix.byteOf_setLend (m : Matrix) (l : LendTarget) (f : Lend → Lend) (t : Target) (a : Nat) :
    (m.setLend l f).byteOf t a = m.byteOf t a := by cases l <;> rfl

/-! ### What a host writes -/

/-- Nothing of the matrix changed but the bytes of memory `t`. -/
def MemOnly (t : Target) (m n : Matrix) : Prop :=
  n.masters = m.masters ∧ (∀ x, n.target x = m.target x) ∧ (∀ l, n.lend l = m.lend l) ∧
    ∀ x a, x ≠ t → n.byteOf x a = m.byteOf x a

theorem MemOnly.refl (t : Target) (m : Matrix) : MemOnly t m m := ⟨rfl, fun _ => rfl, fun _ => rfl, fun _ _ _ => rfl⟩

theorem MemOnly.trans {t : Target} {m n k : Matrix} : MemOnly t m n → MemOnly t n k → MemOnly t m k := by
  rintro ⟨hm, ht, hl, hb⟩ ⟨hm', ht', hl', hb'⟩
  exact ⟨hm'.trans hm, fun x => (ht' x).trans (ht x), fun l => (hl' l).trans (hl l), fun x a h => (hb' x a h).trans (hb x a h)⟩

theorem MemOnly.writeMem (t : Target) (a : Nat) (l : List Byte) (m : Matrix) : MemOnly t m (m.writeMem t a l) :=
  ⟨by cases t <;> rfl, fun x => Matrix.target_writeMem m t a l x, fun x => Matrix.lend_writeMem m t a l x,
    fun _ b h => Matrix.byteOf_writeMem_other m a l h b⟩

/-- The writes of a host, one after another. -/
def writeEach (t : Target) (l : List (Nat × Byte)) (m : Matrix) : Matrix := l.foldl (fun m w => m.writeMem t w.1 [w.2]) m

theorem writeEach_only (t : Target) (l : List (Nat × Byte)) (m : Matrix) : MemOnly t m (writeEach t l m) := by
  induction l generalizing m with
  | nil => exact MemOnly.refl t m
  | cons w l ih => exact (MemOnly.writeMem t w.1 [w.2] m).trans (ih _)

/-- A byte that the host did not write is as it was. -/
theorem writeEach_untouched (t : Target) (a : Nat) (l : List (Nat × Byte)) (h : ∀ w ∈ l, w.1 ≠ a) (m : Matrix) :
    (writeEach t l m).byteOf t a = m.byteOf t a := by
  induction l generalizing m with
  | nil => rfl
  | cons w l ih =>
    refine (ih (fun v hv => h v (List.mem_cons_of_mem w hv)) _).trans ?_
    have hne := h w List.mem_cons_self
    exact Matrix.byteOf_writeMem_outside m t w.1 [w.2] a (by rw [List.length_singleton]; omega)

/-- A byte that the host wrote once is what it wrote. -/
theorem writeEach_written (t : Target) (ht : t ≠ .flash) (l : List (Nat × Byte)) (hn : (l.map (fun w => w.1)).Nodup) (m : Matrix)
    (hm : m.wf = true) {w : Nat × Byte} (hw : w ∈ l) : (writeEach t l m).byteOf t w.1 = w.2 := by
  induction l generalizing m with
  | nil => cases hw
  | cons v l ih =>
    obtain ⟨hv, hl⟩ := List.nodup_cons.mp hn
    rcases List.mem_cons.mp hw with rfl | hmem
    · refine (writeEach_untouched t w.1 l (fun x hx he => hv (List.mem_map.mpr ⟨x, hx, he⟩)) _).trans ?_
      exact Matrix.byteOf_writeMem_same m t w.1 [w.2] 0 hm ht Nat.zero_lt_one
    · exact ih hl _ (Matrix.wf_writeMem m t v.1 [v.2] hm) hmem

theorem hostWrites_eq (t : Target) (l : List (Nat × Byte)) (m : Matrix) :
    hostWrites t l m = writeEach t (l.filter (fun w => decide (w.1 < deviceBytes t))) m := rfl

/-! ### Grants leave everything but the matrix, and of it the lends and the memories -/

/-- Nothing changed but what the targets do and the counts of the masters. -/
def GrantOnly (s u : State) : Prop :=
  u = { s with matrix := u.matrix } ∧ (∀ l, u.matrix.lend l = s.matrix.lend l) ∧ u.matrix.readBack = s.matrix.readBack

theorem GrantOnly.refl (s : State) : GrantOnly s s := ⟨rfl, fun _ => rfl, rfl⟩

theorem GrantOnly.trans {s t u : State} : GrantOnly s t → GrantOnly t u → GrantOnly s u := by
  rintro ⟨ha, hl, hr⟩ ⟨hb, hl', hr'⟩
  exact ⟨by rw [hb, ha], fun l => (hl' l).trans (hl l), hr'.trans hr⟩

theorem doGrant_lend (now cost : Nat) (t : Target) (w : BurstReq × Nat) (m : Matrix) (l : LendTarget) :
    (doGrant now cost t w m).lend l = m.lend l := by cases t <;> rfl

theorem doGrant_readBack (now cost : Nat) (t : Target) (w : BurstReq × Nat) (m : Matrix) :
    (doGrant now cost t w m).readBack = m.readBack := by cases t <;> rfl

theorem grantAll_only (s : State) : GrantOnly s (grantAll s) := by
  refine forEach_rel GrantOnly.refl GrantOnly.trans targets _ (fun t s => ?_) s
  split
  · exact ⟨rfl, doGrant_lend s.now 2 t _ s.matrix, doGrant_readBack s.now 2 t _ s.matrix⟩
  · exact GrantOnly.refl s

/-- Nothing changed but the tally where a record is taken up. -/
theorem writeNext_only (s : State) : writeNext s = { s with tally := (writeNext s).tally } := by
  unfold writeNext
  (repeat' split) <;> rfl

/-! ### O50: a lend begins -/

/-- A lend request that is recognised. -/
theorem lendRequested_of_lendable {l : LendTarget} {s : State} (hhigh : (s.matrix.lend l).high = false)
    (h : s.drivesBalls = false ∨ lendable s.image l = true) :
    lendRequested l s =
      { s with matrix := (s.matrix.setLend l (fun x => { x with high := true, requested := true })).floats s.now } := by
  unfold lendRequested
  rw [if_neg (by rw [hhigh]; exact Bool.noConfusion), if_pos]
  rcases h with h | h <;> rw [h]
  · rfl
  · exact Bool.or_true _

theorem lendGranted_of_not {l : LendTarget} {s : State}
    (h : ((s.matrix.lend l).requested && !(s.matrix.lend l).granted && s.floated l &&
      (s.matrix.target (lendTarget l)).busy.isNone) = false) : lendGranted l s = s := by
  unfold lendGranted
  exact if_neg (by rw [h]; exact Bool.noConfusion)

/-- Settles O50: a lend is requested and granted. -/
theorem lendBegins : Obligations.LendBegins := by
  rintro l k s t rfl
  generalize ht : atTick k s = t
  have hreq : exec (.lendRequest l k) s = .next (lendRequested l t) := next_of_eq (by rw [ht])
  have hgrant : exec (.lendGrant l k) s = .next (lendGranted l t) := next_of_eq (by rw [ht])
  refine ⟨fun hhigh => ⟨fun h => ?_, fun hd hl => ?_⟩, fun hhigh => ?_, fun hr hg => ⟨fun hb hf => ?_, fun h => ?_⟩, fun h => ?_⟩
  · refine ⟨_, hreq, ?_⟩
    rw [lendRequested_of_lendable hhigh h]
    refine ⟨?_, ?_, fun x hx => ?_, ?_⟩
    · dsimp only
      rw [Matrix.floats_lend, Matrix.target_setLend, Matrix.lend_setLend_same]
      simp only [true_and, and_comm]
    · dsimp only
      rw [Matrix.lent_lendTarget, Matrix.floats_lend, Matrix.lend_setLend_same]
      rfl
    · dsimp only
      rw [Matrix.floats_lend, Matrix.lend_setLend_other _ _ hx]
    · cases l <;> rfl
  · rw [hreq]
    unfold lendRequested
    rw [if_neg (by rw [hhigh]; exact Bool.noConfusion), if_neg (by rw [hd, hl]; exact Bool.noConfusion)]
    cases l <;> rfl
  · rw [hreq]; unfold lendRequested; rw [if_pos hhigh]
  · refine ⟨_, hgrant, ?_⟩
    have hon : lendGranted l t = { t with matrix := t.matrix.setLend l (fun x => { x with granted := true, lentNow := true }) } := by
      unfold lendGranted
      exact if_pos (by rw [hr, hg, hf, hb]; rfl)
    rw [hon]
    exact ⟨Matrix.lend_setLend_same _ _ _, by cases l <;> rfl⟩
  · rw [hgrant, lendGranted_of_not]
    rcases h with h | h
    · rw [Option.isNone_eq_false_iff.mpr (Option.isSome_iff_ne_none.mpr h), Bool.and_false]
    · rw [h, Bool.and_false, Bool.false_and]
  · rw [hgrant, lendGranted_of_not]
    rcases h with h | h <;> rw [h]
    · rfl
    · rw [Bool.not_true, Bool.and_false, Bool.false_and, Bool.false_and]

/-! ### O51: a lend ends -/

/-- What the end of a lend of memory `l` does, where the host's writes give the matrix `m`. -/
def lendOver (l : LendTarget) (m : Matrix) (s : State) : State :=
  { s with matrix := m.setLend l (fun x =>
      { x with high := false, requested := false, granted := false, checkDue := true, hiZ := none, openAt := s.now + 32 }) }

theorem lendReleased_of_granted {l : LendTarget} {s : State} (wrote : List (Nat × Byte)) (h : (s.matrix.lend l).granted = true) :
    lendReleased l wrote s = lendOver l (hostWrites (lendTarget l) wrote s.matrix) s := if_pos h

theorem lendReleased_of_not_granted {l : LendTarget} {s : State} (wrote : List (Nat × Byte))
    (h : (s.matrix.lend l).granted = false) :
    lendReleased l wrote s =
      grantAll { s with matrix := s.matrix.setLend l (fun x => { x with high := false, requested := false, hiZ := none }) } :=
  if_neg (by rw [h]; exact Bool.noConfusion)

/-- What the end of a lend leaves of the memories. -/
theorem lendOver_spec (l : LendTarget) (wrote : List (Nat × Byte)) (t u : State)
    (hu : u = lendOver l (hostWrites (lendTarget l) wrote t.matrix) t) :
    u.matrix.lend l = { t.matrix.lend l with
        high := false, requested := false, granted := false, checkDue := true, hiZ := none, openAt := t.now + 32 } ∧
      (∀ x, u.matrix.target x = t.matrix.target x) ∧
      (∀ a, (∀ w ∈ wrote, w.1 ≠ a) → u.byteOf (lendTarget l) a = t.byteOf (lendTarget l) a) ∧
      (Canonical t → (wrote.map (fun w => w.1)).Nodup → ∀ w ∈ wrote, w.1 < deviceBytes (lendTarget l) →
        u.byteOf (lendTarget l) w.1 = w.2) ∧
      (∀ x a, x ≠ lendTarget l → u.byteOf x a = t.byteOf x a) ∧ u = { t with matrix := u.matrix } := by
  subst hu
  rw [hostWrites_eq]
  obtain ⟨-, htg, hl, hother⟩ := writeEach_only (lendTarget l) (wrote.filter (fun w => decide (w.1 < deviceBytes (lendTarget l)))) t.matrix
  have hnf : lendTarget l ≠ .flash := by cases l <;> exact fun h => Target.noConfusion h
  refine ⟨?_, fun x => ?_, fun a ha => ?_, fun hc hn w hw hlt => ?_, fun x a hx => ?_, rfl⟩
  · show (Matrix.setLend _ _ _).lend l = _
    rw [Matrix.lend_setLend_same, hl]
  · exact (Matrix.target_setLend _ _ _ x).trans (htg x)
  · refine State.byteOf_congr (s := t) ?_ _ _ (fun _ => ?_)
    · rfl
    · exact (Matrix.byteOf_setLend _ _ _ _ _).trans
        (writeEach_untouched _ a _ (fun w hw => ha w (List.mem_filter.mp hw).1) _)
  · rw [State.byteOf_eq, if_neg hnf]
    refine (Matrix.byteOf_setLend _ _ _ _ _).trans ?_
    exact writeEach_written _ hnf _ (hn.sublist (List.filter_sublist.map _)) _ ((canonical_iff t).mp hc).2
      (List.mem_filter.mpr ⟨hw, decide_eq_true hlt⟩)
  · refine State.byteOf_congr (s := t) ?_ _ _ (fun _ => ?_)
    · rfl
    · exact (Matrix.byteOf_setLend _ _ _ _ _).trans (hother x a hx)

/-- What a lend check leaves of the state, where its comparison gives the bits `d`. -/
def lendCheckedWith (l : LendTarget) (d : BitVec 2) (s : State) : State :=
  { s with matrix := { s.matrix.setLend l (fun x => { x with checkDue := false }) with disturbed := d } }

theorem lendCheckedWith_spec (l : LendTarget) (d : BitVec 2) (s u : State) (hu : u = lendCheckedWith l d s) :
    u.matrix.lend l = { s.matrix.lend l with checkDue := false } ∧ u.matrix.disturbed = d ∧ SameBytes s u ∧
      u = { s with matrix := u.matrix } := by
  subst hu
  exact ⟨by cases l <;> rfl, rfl, by cases l <;> exact fun _ => ⟨rfl, rfl, rfl, rfl⟩, rfl⟩

theorem lendBit_lt (l : LendTarget) : lendBit l < 2 := by cases l <;> decide

/-- The check of a lend compares the last commit word with KP's copy. -/
theorem lendChecked_of_due {l : LendTarget} {t : State} (hdue : (t.matrix.lend l).checkDue = true)
    (hfree : t.matrix.lent (lendTarget l) = false) :
    ∃ d, lendChecked l t = lendCheckedWith l d t ∧
      (∀ win a w, t.lendWindow l = some win → t.lastCommit l = some (a, w) →
        d.getLsbD (lendBit l) =
          (t.matrix.disturbed.getLsbD (lendBit l) || leNat (t.readTarget (lendTarget l) a 4) != w.toNat)) ∧
      (t.lendWindow l = none → d = t.matrix.disturbed) := by
  have hun : ({ t with matrix := t.matrix.setLend l (fun x => { x with checkDue := false }) } : State) =
      lendCheckedWith l t.matrix.disturbed t := by cases l <;> rfl
  unfold lendChecked
  rw [if_pos (by rw [hdue, hfree]; rfl)]
  dsimp only
  split
  next a w hwin hlast =>
    split
    next heq =>
      refine ⟨_, hun, fun win a' w' _ hl => ?_, fun h => absurd (hwin.symm.trans h) (Option.some_ne_none _)⟩
      cases hlast.symm.trans hl
      rw [heq, bne_self_eq_false, Bool.or_false]
    next hne =>
      refine ⟨_, rfl, fun win a' w' _ hl => ?_, fun h => absurd (hwin.symm.trans h) (Option.some_ne_none _)⟩
      cases hlast.symm.trans hl
      rw [bne_iff_ne.mpr hne, Bool.or_true]
      exact setBit_get _ _ true (lendBit_lt l)
  next hno =>
    refine ⟨_, hun, fun win a w hwin hl => absurd hl (hno win a w hwin), fun _ => rfl⟩

/-- Settles O51: a lend is released and checked. -/
theorem lendEnds : Obligations.LendEnds := by
  rintro l k s t rfl
  generalize ht : atTick k s = t
  have hrel : ∀ w, exec (.lendRelease l w k) s = .next (writeNext (lendReleased l w t)) := fun w => next_of_eq (by rw [ht])
  have hchk : exec (.lendCheck l k) s = .next (lendChecked l t) := next_of_eq (by rw [ht])
  refine ⟨fun wrote => ⟨fun hg => ?_, fun hg => ?_⟩, fun hdue hfree => ?_, fun h => ?_⟩
  · refine ⟨_, hrel wrote, ?_⟩
    rw [lendReleased_of_granted wrote hg]
    obtain ⟨hl, htg, hun, hwr, hoth, honly⟩ := lendOver_spec l wrote t _ rfl
    have hb := State.byteOf_of_kept (kept_writeNext (lendOver l (hostWrites (lendTarget l) wrote t.matrix) t))
    have hn := writeNext_only (lendOver l (hostWrites (lendTarget l) wrote t.matrix) t)
    generalize lendOver l (hostWrites (lendTarget l) wrote t.matrix) t = v at *
    have hm : (writeNext v).matrix = v.matrix := (congrArg State.matrix hn).trans rfl
    rw [hm]
    exact ⟨hl, htg, fun a ha => (hb _ _).trans (hun a ha), fun hc hd w hw hlt => (hb _ _).trans (hwr hc hd w hw hlt),
      fun x a hx => (hb _ _).trans (hoth x a hx), by rw [hn, honly]⟩
  · refine ⟨_, hrel wrote, ?_⟩
    rw [lendReleased_of_not_granted wrote hg]
    have hsame : SameBytes t { t with matrix := t.matrix.setLend l (fun x => { x with high := false, requested := false, hiZ := none }) } := by
      cases l <;> exact fun _ => ⟨rfl, rfl, rfl, rfl⟩
    have hl0 : (t.matrix.setLend l (fun x => { x with high := false, requested := false, hiZ := none })).lend l =
      { t.matrix.lend l with high := false, requested := false, hiZ := none } := Matrix.lend_setLend_same _ _ _
    generalize t.matrix.setLend l (fun x => { x with high := false, requested := false, hiZ := none }) = m at *
    obtain ⟨hgo, hgl, -⟩ := grantAll_only { t with matrix := m }
    have hg2 := SameBytes.of_kept (kept_grantAll { t with matrix := m })
    generalize grantAll { t with matrix := m } = v at *
    have hw2 := SameBytes.of_kept (kept_writeNext v)
    have hn := writeNext_only v
    have hm : (writeNext v).matrix = v.matrix := (congrArg State.matrix hn).trans rfl
    rw [hm]
    exact ⟨(hgl l).trans hl0, (SameBytes.trans hsame hg2).trans hw2, by rw [hn, hgo]⟩
  · obtain ⟨d, hd, hcmp, hno⟩ := lendChecked_of_due hdue hfree
    obtain ⟨hl, hdist, hb, honly⟩ := lendCheckedWith_spec l d t _ hd
    refine ⟨_, hchk, hl, fun win a w h1 h2 => ?_, fun h => hdist.trans (hno h), hb, honly⟩
    rw [hdist]; exact hcmp win a w h1 h2
  · rw [hchk]
    unfold lendChecked
    rw [if_neg]
    rcases h with h | h <;> rw [h]
    · exact Bool.noConfusion
    · rw [Bool.not_true, Bool.and_false]; exact Bool.noConfusion

end Sys2Proof.Machine
end

section
/-! SUPPORT. Requests, grants and bursts of the bus matrix (R409 to R413). -/

namespace Sys2Proof.Machine

/-! ### The end of a burst -/

/-- The matrix as the end of the burst on target `t` leaves it. -/
def freed (t : Target) (s : State) : Matrix := (s.matrix.setTarget t (fun x => { x with busy := none })).floats s.now

theorem freed_byteOf (t : Target) (s : State) (x : Target) (a : Nat) : (freed t s).byteOf x a = s.matrix.byteOf x a := by
  cases t <;> rfl

theorem freed_readBack (t : Target) (s : State) : (freed t s).readBack = s.matrix.readBack := by cases t <;> rfl

theorem freed_wf (t : Target) (s : State) (h : s.matrix.wf = true) : (freed t s).wf = true := by
  rw [← h]; cases t <;> rfl

theorem burstEnds_idle {t : Target} {s : State} (h : (s.matrix.target t).busy = none) : burstEnds t s = s := by
  unfold burstEnds; rw [h]

theorem burstEnds_refused {t : Target} {s : State} {q : BurstReq} (h : (s.matrix.target t).busy = some q)
    (hd : decodes s q = none) : burstEnds t s = grantAll { s with matrix := freed t s } := by
  unfold burstEnds; rw [h]; dsimp only; rw [hd]; rfl

theorem burstEnds_write {t x : Target} {s : State} {q : BurstReq} {a : Nat} (h : (s.matrix.target t).busy = some q)
    (hd : decodes s q = some (x, a)) (hw : q.write = true) :
    burstEnds t s = grantAll (wordWritten q a { s with matrix := (freed t s).writeMem t a q.bytes }) := by
  unfold burstEnds; rw [h]; dsimp only; rw [hd]; dsimp only; rw [if_pos hw]; rfl

theorem burstEnds_read {t x : Target} {s : State} {q : BurstReq} {a : Nat} (h : (s.matrix.target t).busy = some q)
    (hd : decodes s q = some (x, a)) (hw : q.write = false) :
    burstEnds t s = grantAll { s with matrix := { freed t s with readBack := s.readTarget t a q.len } } := by
  unfold burstEnds; rw [h]; dsimp only; rw [hd]; dsimp only
  rw [if_neg (by rw [hw]; exact Bool.noConfusion)]; rfl

/-- The commit word of a record leaves everything but the record's own part. -/
theorem wordWritten_spec (q : BurstReq) (a : Nat) (s : State) :
    wordWritten q a s = { s with capture := (wordWritten q a s).capture, tally := (wordWritten q a s).tally } ∧
      (q.commit = false → wordWritten q a s = s) ∧ (q.fn ≠ .captureRing → (wordWritten q a s).capture = s.capture) ∧
      (q.commit = true → q.fn = .captureRing →
        wordWritten q a s = captureCommitted (BitVec.ofNat 32 (leNat q.bytes)) a s) := by
  refine ⟨?_, fun h => ?_, fun h => ?_, fun h hf => ?_⟩
  · unfold wordWritten captureCommitted tallyCommitted
    (repeat' split) <;> rfl
  · unfold wordWritten; rw [h]; rfl
  · unfold wordWritten
    dsimp only
    (repeat' split)
    · rfl
    next hfn => exact absurd hfn h
    · rfl
    · rfl
  · unfold wordWritten; rw [h, hf]; rfl

/-- What the commit word of a capture record leaves. -/
theorem captureCommitted_spec (word : BitVec 32) (a : Nat) (s u : State) (hu : u = captureCommitted word a s) :
    u.tally = s.tally ∧ (s.capture.hand = none → u.capture = s.capture) ∧
      ∀ o r, s.capture.hand = some (o, r) →
        u.capture.seq = word ∧ u.capture.hand = none ∧ u.capture.made = 0 ∧
        u.capture.offset = (if recordKind r = 3 then 0 else o + r.length) ∧
        u.capture.lastCommit = some (a, word) ∧ u.capture.waiting = s.capture.waiting := by
  subst hu
  refine ⟨?_, fun h => ?_, fun o r h => ?_⟩
  · unfold captureCommitted; split <;> rfl
  · unfold captureCommitted; rw [h]
  · unfold captureCommitted; rw [h]; exact ⟨rfl, rfl, rfl, rfl, rfl, rfl⟩

/-- Settles O48: a burst stores its bytes. -/
theorem burstStores : Obligations.BurstStores := by
  rintro tg k s t rfl
  generalize ht : atTick k s = t
  have he : exec (.burstComplete tg k) s = .next (burstEnds tg t) := next_of_eq (by rw [ht])
  refine ⟨fun q x b hq hd => ⟨_, he, ?_⟩, fun q hq hd => ⟨_, he, ?_⟩, fun hq => by rw [he, burstEnds_idle hq]⟩
  · cases hw : q.write with
    | true =>
      rw [burstEnds_write hq hd hw]
      have hin : ∀ i, tg ≠ .flash → Canonical t → i < q.bytes.length →
          ((freed tg t).writeMem tg b q.bytes).byteOf tg (b + i) = byteAt q.bytes i := fun i hf hc hi =>
        Matrix.byteOf_writeMem_same _ tg b _ i (freed_wf tg t ((canonical_iff t).mp hc).2) hf hi
      have hout : ∀ a, (a < b ∨ b + q.bytes.length ≤ a) →
          ((freed tg t).writeMem tg b q.bytes).byteOf tg a = t.matrix.byteOf tg a := fun a h =>
        (Matrix.byteOf_writeMem_outside _ tg b _ a h).trans (freed_byteOf tg t tg a)
      have hoth : ∀ x a, x ≠ tg → ((freed tg t).writeMem tg b q.bytes).byteOf x a = t.matrix.byteOf x a := fun x a h =>
        (Matrix.byteOf_writeMem_other _ b _ h a).trans (freed_byteOf tg t x a)
      generalize (freed tg t).writeMem tg b q.bytes = m at *
      obtain ⟨hwo, hplain, hcap, hword⟩ := wordWritten_spec q b { t with matrix := m }
      have hkw := State.byteOf_of_kept (kept_wordWritten q b { t with matrix := m })
      generalize hv : wordWritten q b { t with matrix := m } = v at *
      have hkg := State.byteOf_of_kept (kept_grantAll v)
      obtain ⟨hg, -, -⟩ := grantAll_only v
      generalize grantAll v = u at *
      have hb : ∀ x a, u.byteOf x a = ({ t with matrix := m } : State).byteOf x a := fun x a => (hkg x a).trans (hkw x a)
      have huc : u.capture = v.capture := (congrArg State.capture hg).trans rfl
      have hut : u.tally = v.tally := (congrArg State.tally hg).trans rfl
      refine ⟨fun _ hf hc i hi => ?_, fun a h => ?_, fun x a hx => ?_, (fun h => nomatch h), fun h => ?_, fun _ hcm hfn => ?_,
        fun hfn => huc.trans (hcap hfn), by rw [hg, hwo]⟩
      · rw [hb, State.byteOf_eq, if_neg hf]; exact hin i hf hc hi
      · exact (hb _ _).trans (State.byteOf_congr (s := t) (u := { t with matrix := m }) rfl _ _
          (fun _ => hout a (h.resolve_left Bool.noConfusion)))
      · exact (hb _ _).trans (State.byteOf_congr (s := t) (u := { t with matrix := m }) rfl _ _ (fun _ => hoth x a hx))
      · rw [huc, hut, hplain (h.resolve_left Bool.noConfusion)]; exact ⟨rfl, rfl⟩
      · rw [huc, hut]; exact captureCommitted_spec _ b { t with matrix := m } v (hword hcm hfn)
    | false =>
      rw [burstEnds_read hq hd hw]
      have hoth : ∀ x a, (freed tg t).byteOf x a = t.matrix.byteOf x a := freed_byteOf tg t
      generalize freed tg t = m at *
      obtain ⟨hg, -, hrb⟩ := grantAll_only { t with matrix := { m with readBack := t.readTarget tg b q.len } }
      have hkg := State.byteOf_of_kept (kept_grantAll { t with matrix := { m with readBack := t.readTarget tg b q.len } })
      generalize grantAll { t with matrix := { m with readBack := t.readTarget tg b q.len } } = u at *
      have hb : ∀ x a, u.byteOf x a = t.byteOf x a := fun x a => (hkg x a).trans
        (State.byteOf_congr (s := t) (u := { t with matrix := { m with readBack := t.readTarget tg b q.len } }) rfl x a
          (fun _ => hoth x a))
      have huc : u.capture = t.capture := (congrArg State.capture hg).trans rfl
      have hut : u.tally = t.tally := (congrArg State.tally hg).trans rfl
      exact ⟨(fun h => nomatch h), fun a _ => hb tg a, fun x a _ => hb x a, fun _ => hrb, fun _ => ⟨huc, hut⟩,
        (fun h => nomatch h), fun _ => huc, by rw [hg]⟩
  · rw [burstEnds_refused hq hd]
    have hrb0 := freed_readBack tg t
    have hs : SameBytes t { t with matrix := freed tg t } := by cases tg <;> exact fun _ => ⟨rfl, rfl, rfl, rfl⟩
    generalize freed tg t = m at *
    obtain ⟨hg, -, hrb⟩ := grantAll_only { t with matrix := m }
    have hk := SameBytes.of_kept (kept_grantAll { t with matrix := m })
    generalize grantAll { t with matrix := m } = u at *
    exact ⟨hs.trans hk, hrb.trans hrb0, by rw [hg]⟩

/-! ### The order in which a target grants -/

theorem best_mem {α : Type} {f : α → α → Bool} {l : List α} {a : α} (h : best f l = some a) : a ∈ l := by
  induction l generalizing a with
  | nil => cases h
  | cons b l ih =>
    simp only [best] at h
    split at h
    · exact Option.some.inj h ▸ List.mem_cons_self
    next c hc =>
      split at h
      · exact Option.some.inj h ▸ List.mem_cons_of_mem b (ih hc)
      · exact Option.some.inj h ▸ List.mem_cons_self

theorem best_isSome {α : Type} (f : α → α → Bool) {l : List α} (h : l ≠ []) : (best f l).isSome = true := by
  cases l with
  | nil => exact absurd rfl h
  | cons b l =>
    simp only [best]
    split
    · rfl
    · split <;> rfl

/-- The best by a lower number has the lowest. -/
theorem best_le {α : Type} (g : α → Nat) {l : List α} {a : α} (h : best (fun a b => decide (g a < g b)) l = some a) :
    ∀ b ∈ l, g a ≤ g b := by
  induction l generalizing a with
  | nil => cases h
  | cons c l ih =>
    simp only [best] at h
    split at h
    next hn =>
      cases Option.some.inj h
      have hl : l = [] := Classical.byContradiction fun hl => by
        have := best_isSome (fun a b => decide (g a < g b)) hl
        rw [hn] at this; cases this
      intro b hb
      rw [hl, List.mem_singleton] at hb
      exact hb ▸ Nat.le_refl _
    next d hd =>
      have hle := ih hd
      split at h
      next hlt =>
        cases Option.some.inj h
        intro b hb
        rcases List.mem_cons.mp hb with rfl | hb
        · exact Nat.le_of_lt (of_decide_eq_true hlt)
        · exact hle b hb
      next hge =>
        cases Option.some.inj h
        intro b hb
        rcases List.mem_cons.mp hb with rfl | hb
        · exact Nat.le_refl _
        · exact Nat.le_trans (Nat.not_lt.mp fun hlt => hge (decide_eq_true hlt)) (hle b hb)

/-- The requests that a target may grant: those of masters that hold no burst. -/
def claimants (m : Matrix) (t : Target) : List (BurstReq × Nat) := (m.target t).waiting.filter (fun w => !m.holding w.1.master)

theorem mem_claimants {m : Matrix} {t : Target} {w : BurstReq × Nat} :
    w ∈ claimants m t ↔ w ∈ (m.target t).waiting ∧ m.holding w.1.master = false := by
  rw [claimants, List.mem_filter, Bool.not_eq_true']

/-- A target is free to grant. -/
def TargetFree (now : Nat) (m : Matrix) (t : Target) : Prop :=
  (m.target t).busy = none ∧ m.lent t = false ∧ m.openAt t ≤ now

theorem nextGrant_of_free {now : Nat} {m : Matrix} {t : Target} (h : TargetFree now m t) :
    nextGrant now m t = best (fun a b => decide (rank a.1.master < rank b.1.master)) (claimants m t) := by
  obtain ⟨hb, hl, ho⟩ := h
  unfold nextGrant
  rw [hb, hl, decide_eq_false (Nat.not_lt.mpr ho)]
  rfl

theorem nextGrant_of_not_free {now : Nat} {m : Matrix} {t : Target} (h : ¬ TargetFree now m t) : nextGrant now m t = none := by
  unfold nextGrant
  split
  · rfl
  next hc =>
    simp only [Bool.or_eq_true, decide_eq_true_eq, not_or, Bool.not_eq_true, Nat.not_lt, Option.isSome_eq_false_iff,
      Option.isNone_iff_eq_none] at hc
    exact absurd ⟨hc.1.1, hc.1.2, hc.2⟩ h

theorem nextGrant_none_of_claimants {now : Nat} {m : Matrix} {t : Target} (h : claimants m t = []) : nextGrant now m t = none := by
  by_cases hf : TargetFree now m t
  · rw [nextGrant_of_free hf, h]; rfl
  · exact nextGrant_of_not_free hf

theorem nextGrant_some {now : Nat} {m : Matrix} {t : Target} {w : BurstReq × Nat} (h : nextGrant now m t = some w) :
    TargetFree now m t ∧ best (fun a b => decide (rank a.1.master < rank b.1.master)) (claimants m t) = some w := by
  by_cases hf : TargetFree now m t
  · exact ⟨hf, (nextGrant_of_free hf).symm.trans h⟩
  · rw [nextGrant_of_not_free hf] at h; cases h

/-- A target with nothing waiting grants nothing. -/
theorem nextGrant_of_no_waiting {now : Nat} {m : Matrix} {t : Target} (h : (m.target t).waiting = []) : nextGrant now m t = none :=
  nextGrant_none_of_claimants (by rw [claimants, h]; rfl)

/-! ### A grant -/

theorem doGrant_target (now cost : Nat) (t : Target) (w : BurstReq × Nat) (m : Matrix) :
    (doGrant now cost t w m).target t =
      { busy := some w.1, waiting := (m.target t).waiting.erase w
        parked := if t = .psram then w.1.master else (m.target t).parked } := by cases t <;> rfl

theorem doGrant_target_other (now cost : Nat) {t x : Target} (w : BurstReq × Nat) (m : Matrix) (h : x ≠ t) :
    (doGrant now cost t w m).target x = m.target x := by
  refine Eq.trans ?_ (Matrix.target_setTarget_other m (fun x =>
    { x with busy := some w.1, waiting := x.waiting.erase w, parked := if t = .psram then w.1.master else x.parked }) h)
  cases x <;> rfl

theorem doGrant_masters (now cost : Nat) (t : Target) (w : BurstReq × Nat) (m : Matrix) :
    (doGrant now cost t w m).masters = updV m.masters (masterNum w.1.master) (fun c =>
      { c with
        grants := satAdd 0xFFFF c.grants 1
        wait := satAdd 0xFFFFFFFF c.wait ((now - w.2) * cclkPerTick + cost) }) := by cases t <;> rfl

/-- One target of `grantAll`. -/
def grantOne (t : Target) (s : State) : State :=
  match nextGrant s.now s.matrix t with
  | some w => { s with matrix := doGrant s.now 2 t w s.matrix }
  | none => s

theorem grantAll_eq (s : State) : grantAll s = grantOne .sram (grantOne .fram (grantOne .psram (grantOne .flash s))) := by
  have h : grantAll s = forEach targets grantOne s := by unfold grantAll grantOne; rfl
  rw [h]
  unfold forEach targets
  simp only [List.foldl_cons, List.foldl_nil]

theorem grantOne_none {t : Target} {s : State} (h : nextGrant s.now s.matrix t = none) : grantOne t s = s := by
  unfold grantOne; rw [h]

theorem grantOne_some {t : Target} {s : State} {w : BurstReq × Nat} (h : nextGrant s.now s.matrix t = some w) :
    grantOne t s = { s with matrix := doGrant s.now 2 t w s.matrix } := by
  unfold grantOne; rw [h]

/-- Where requests wait on one target alone, the others grant none. -/
theorem grantAll_of_one {tg : Target} {s : State} (h : ∀ x, x ≠ tg → (s.matrix.target x).waiting = []) :
    grantAll s = grantOne tg s := by
  have hbefore : ∀ x, x ≠ tg → grantOne x s = s := fun x hx => grantOne_none (nextGrant_of_no_waiting (h x hx))
  have hafter : ∀ x, x ≠ tg → grantOne x (grantOne tg s) = grantOne tg s := fun x hx => by
    refine grantOne_none (nextGrant_of_no_waiting ?_)
    cases hn : nextGrant s.now s.matrix tg with
    | none => rw [grantOne_none hn]; exact h x hx
    | some w =>
      rw [grantOne_some hn]
      exact (congrArg TargetSt.waiting (doGrant_target_other s.now 2 w s.matrix hx)).trans (h x hx)
  rw [grantAll_eq]
  cases tg
  · rw [hafter .psram Target.noConfusion, hafter .fram Target.noConfusion, hafter .sram Target.noConfusion]
  · rw [hbefore .flash Target.noConfusion, hafter .fram Target.noConfusion, hafter .sram Target.noConfusion]
  · rw [hbefore .flash Target.noConfusion, hbefore .psram Target.noConfusion, hafter .sram Target.noConfusion]
  · rw [hbefore .flash Target.noConfusion, hbefore .psram Target.noConfusion, hbefore .fram Target.noConfusion]

/-! ### Requests -/

theorem decodes_congr {s u : State} (h : u.image = s.image) (q : BurstReq) : decodes u q = decodes s q := by
  unfold decodes matrixAddr
  rw [h]

theorem recordBurst_master {o made : Nat} {l : List Byte} {q r : BurstReq} (h : recordBurst o made l q = some r) :
    r.master = q.master := by
  unfold recordBurst at h
  dsimp only at h
  split at h
  · cases h; rfl
  · cases h

theorem asMade_master {s : State} {q r : BurstReq} (h : asMade s q = some r) : r.master = q.master := by
  unfold asMade at h
  split at h
  · cases h; rfl
  split at h
  · unfold captureBytes at h
    split at h
    · exact recordBurst_master h
    · cases h
  · obtain ⟨h, -⟩ := Option.filter_eq_some_iff.mp h
    unfold ringBytes at h
    split at h
    · exact recordBurst_master h
    · cases h
  · cases h; rfl

/-- A record is taken in hand: nothing changes but the capture path and the count of free values. -/
theorem inHand_only (q : BurstReq) (s : State) :
    inHand q s = { s with capture := (inHand q s).capture, freeIdx := (inHand q s).freeIdx } := by
  unfold inHand takeRecord
  dsimp only
  (repeat' split) <;> rfl

theorem countMade_only (q : BurstReq) (s : State) :
    countMade q s = { s with capture := (countMade q s).capture, tally := (countMade q s).tally } := by
  unfold countMade
  (repeat' split) <;> rfl

theorem requestArrives_stopped {q : BurstReq} {s : State} (h : s.runsBursts = false) : requestArrives q s = s := by
  unfold requestArrives
  rw [h]; rfl

theorem requestArrives_of_asMade {q r : BurstReq} {s : State} (h : s.runsBursts = true) (hr : asMade (inHand q s) q = some r) :
    requestArrives q s = matrixRequest r (inHand q s) := by
  unfold requestArrives
  rw [h]; dsimp only [Bool.not_true]; rw [hr]; rfl

/-- A request is within the bounds of its master, and its master requests now. -/
def InBounds (r : BurstReq) (s : State) : Prop :=
  (∀ e, writerOf r.master = some e → s.activeEng = some e) ∧ fnMaster r.fn r.master = true ∧ 0 < r.len ∧ r.len ≤ longest r.master

theorem matrixRequest_of_bounds {r : BurstReq} {s : State} (h : InBounds r s) :
    matrixRequest r s = match decodes s r with
      | none =>
        let m := s.matrix.count r.master (fun c => { c with refused := satAdd 0xFFFF c.refused 1 })
        { s with matrix := if r.write then m else { m with readBack := zeros r.len } }
      | some (tg, _) =>
        let s1 := countMade r s
        let w := ({ r with bytes := fitTo r.len r.bytes }, s.now)
        grantNew tg w { s1 with matrix := s1.matrix.setTarget tg (fun t => { t with waiting := t.waiting ++ [w] }) } := by
  obtain ⟨ha, hf, hp, hl⟩ := h
  unfold matrixRequest
  dsimp only
  refine (if_neg fun h => ?_).trans rfl
  simp only [Bool.or_eq_true, decide_eq_true_eq, hf, Bool.not_true, Bool.false_eq_true, or_false] at h
  rcases h with (h | h) | h
  · split at h
    next e he => rw [ha e he, bne_self_eq_false] at h; cases h
    · cases h
  · omega
  · omega

/-- The standby's capture writer does not request. -/
theorem matrixRequest_of_standby {r : BurstReq} {s : State} {e : Eng} (h : writerOf r.master = some e) (ha : s.activeEng ≠ some e) :
    matrixRequest r s = s := by
  unfold matrixRequest
  dsimp only
  rw [h, if_pos]
  dsimp only
  rw [bne_iff_ne.mpr ha]
  rfl

theorem matrixRequest_refused {r : BurstReq} {s : State} (h : InBounds r s) (hd : decodes s r = none) :
    matrixRequest r s = { s with matrix := { s.matrix.count r.master (fun c => { c with refused := satAdd 0xFFFF c.refused 1 }) with
      readBack := if r.write then s.matrix.readBack else zeros r.len } } := by
  rw [matrixRequest_of_bounds h, hd]
  dsimp only
  cases r.write <;> rfl

/-- The request that waits on its target. -/
def waits (r : BurstReq) (s : State) : BurstReq × Nat := ({ r with bytes := fitTo r.len r.bytes }, s.now)

/-- The matrix with a request that has arrived at target `tg`. -/
def joined (tg : Target) (r : BurstReq) (s : State) : Matrix :=
  s.matrix.setTarget tg (fun x => { x with waiting := x.waiting ++ [waits r s] })

theorem matrixRequest_decoded {r : BurstReq} {s : State} {tg : Target} {a : Nat} (h : InBounds r s)
    (hd : decodes s r = some (tg, a)) :
    matrixRequest r s = grantNew tg (waits r s) { countMade r s with matrix := joined tg r s } := by
  rw [matrixRequest_of_bounds h, hd]
  have hc := countMade_only r s
  dsimp only
  generalize countMade r s = u at *
  rw [hc]
  rfl

theorem countMade_now (q : BurstReq) (s : State) : (countMade q s).now = s.now :=
  (congrArg State.now (countMade_only q s)).trans rfl

/-- A request that finds its target parked on its master and free to grant it takes no grant cycle. -/
theorem grantNew_parked {tg : Target} {w : BurstReq × Nat} {s : State} (hn : nextGrant s.now s.matrix tg = some w)
    (hp : (s.matrix.target tg).parked = w.1.master) : grantNew tg w s = { s with matrix := doGrant s.now 0 tg w s.matrix } :=
  if_pos ⟨hn, hp⟩

theorem grantNew_other {tg : Target} {w : BurstReq × Nat} {s : State}
    (h : ¬ (nextGrant s.now s.matrix tg = some w ∧ (s.matrix.target tg).parked = w.1.master)) : grantNew tg w s = grantAll s :=
  if_neg h

/-- The target that a request has joined is parked where it was, and the others are as they were. -/
theorem joined_spec (tg : Target) (r : BurstReq) (s : State) :
    ((joined tg r s).target tg).parked = (s.matrix.target tg).parked ∧
      ∀ x, x ≠ tg → (joined tg r s).target x = s.matrix.target x :=
  ⟨(congrArg TargetSt.parked (Matrix.target_setTarget_same s.matrix tg _)).trans rfl, fun _ hx => Matrix.target_setTarget_other _ _ hx⟩

/-- What becomes of a request that has joined those that wait on its target. -/
theorem grantNew_spec {tg : Target} {r : BurstReq} {s : State} {c : State} (hc : c.now = s.now) :
    (nextGrant s.now (joined tg r s) tg = some (waits r s) → (s.matrix.target tg).parked = r.master →
      grantNew tg (waits r s) { c with matrix := joined tg r s } =
        { c with matrix := doGrant s.now 0 tg (waits r s) (joined tg r s) }) ∧
    ((∀ x, x ≠ tg → (s.matrix.target x).waiting = []) →
      (∀ v, nextGrant s.now (joined tg r s) tg = some v → (v ≠ waits r s ∨ (s.matrix.target tg).parked ≠ r.master) →
        grantNew tg (waits r s) { c with matrix := joined tg r s } =
          { c with matrix := doGrant s.now 2 tg v (joined tg r s) }) ∧
      (nextGrant s.now (joined tg r s) tg = none →
        grantNew tg (waits r s) { c with matrix := joined tg r s } = { c with matrix := joined tg r s })) := by
  obtain ⟨hpark, hoth⟩ := joined_spec tg r s
  have hm : (waits r s).1.master = r.master := rfl
  generalize joined tg r s = m at *
  generalize waits r s = w at *
  rw [← hc, ← hpark, ← hm]
  have hnow : ({ c with matrix := m } : State).now = c.now := rfl
  refine ⟨fun hn hp => ?_, fun hw => ⟨fun v hn hv => ?_, fun hn => ?_⟩⟩
  · exact grantNew_parked (s := { c with matrix := m }) hn hp
  · rw [grantNew_other (s := { c with matrix := m }), grantAll_of_one (tg := tg)]
    · exact grantOne_some (s := { c with matrix := m }) hn
    · exact fun x hx => (congrArg TargetSt.waiting (hoth x hx)).trans (hw x hx)
    · rintro ⟨h1, h2⟩
      rcases hv with hv | hv
      · exact hv (Option.some.inj (hn.symm.trans h1))
      · exact hv h2
  · rw [grantNew_other (s := { c with matrix := m }), grantAll_of_one (tg := tg)]
    · exact grantOne_none (s := { c with matrix := m }) hn
    · exact fun x hx => (congrArg TargetSt.waiting (hoth x hx)).trans (hw x hx)
    · rintro ⟨h1, -⟩
      cases hn.symm.trans h1

/-- A request within its master's bounds, while the matrix runs. -/
theorem requestArrives_spec {q r : BurstReq} {t : State} (hrun : t.runsBursts = true) (hmade : asMade (inHand q t) q = some r)
    (hb : InBounds r t) :
    (decodes t r = none → ∃ u, requestArrives q t = u ∧
      u.matrix.masters[masterNum r.master] = { t.matrix.masters[masterNum r.master] with
        refused := satAdd 0xFFFF t.matrix.masters[masterNum r.master].refused 1 } ∧
      (r.write = false → u.matrix.readBack = zeros r.len) ∧ (∀ x, u.matrix.target x = t.matrix.target x) ∧
      u = { inHand q t with matrix := u.matrix }) ∧
    ∀ tg a, decodes t r = some (tg, a) →
      requestArrives q t = grantNew tg (waits r t) { countMade r (inHand q t) with matrix := joined tg r t } := by
  rw [requestArrives_of_asMade hrun hmade]
  obtain ⟨c, n, hv⟩ : ∃ c n, inHand q t = { t with capture := c, freeIdx := n } := ⟨_, _, inHand_only q t⟩
  have hdec := decodes_congr (s := t) (u := inHand q t) (by rw [hv]) r
  have hbv : InBounds r (inHand q t) := by rw [hv]; exact hb
  rw [← hdec]
  refine ⟨fun hd => ⟨_, rfl, ?_⟩, fun tg a hd => ?_⟩
  · rw [matrixRequest_refused hbv hd, hv]
    refine ⟨updV_at _ _ _, fun hw => ?_, fun x => by cases x <;> rfl, rfl⟩
    show (if r.write then _ else _) = _
    rw [hw]; rfl
  · rw [matrixRequest_decoded hbv hd]
    have hj : joined tg r (inHand q t) = joined tg r t := by rw [hv]; rfl
    have hws : waits r (inHand q t) = waits r t := by rw [hv]; rfl
    rw [hj, hws]

/-- The capture writer of the standby changes nothing. -/
theorem requestArrives_of_standby {q : BurstReq} {t : State} {e : Eng} (hm : writerOf q.master = some e)
    (ha : t.activeEng ≠ some e) : requestArrives q t = t := by
  have hin : inHand q t = t := by
    unfold inHand
    rw [hm]
    exact if_neg (by rw [beq_eq_false_iff_ne.mpr ha, Bool.and_false]; exact Bool.noConfusion)
  unfold requestArrives
  rw [hin]
  dsimp only
  split
  · rfl
  split
  next r hr => exact matrixRequest_of_standby (asMade_master hr ▸ hm) ha
  · rfl

/-- Settles O47, with the order in which a target grants stated of every matrix. -/
theorem matrixRequests : Obligations.MatrixRequests := by
  refine ⟨?_, fun now m tg => ⟨fun h => ?_, fun h => ?_, fun w h => ?_, fun hb hl ho hw => ?_⟩, ?_⟩
  · rintro q r k s t t1 rfl ht1
    generalize ht : atTick k s = t at *
    have he : exec (.matrixRequest q k) s = .next (requestArrives q t) := next_of_eq (by rw [ht])
    subst ht1
    have hbytes : SameBytes t (requestArrives q t) := SameBytes.of_kept (kept_requestArrives q t)
    refine ⟨fun hrun hmade hact hfn hpos hlen => ?_, fun e hm ha => ?_, fun hrun => by rw [he, requestArrives_stopped hrun]⟩
    · obtain ⟨href, hdec⟩ := requestArrives_spec hrun hmade ⟨hact, hfn, hpos, hlen⟩
      have hnow : (countMade r (inHand q t)).now = t.now :=
        (countMade_now r _).trans ((congrArg State.now (inHand_only q t)).trans rfl)
      refine ⟨fun hd => ?_, fun tg a w m hd hw hm => ?_⟩
      · obtain ⟨u, hu, hmas, hrb, htg, honly⟩ := href hd
        exact ⟨u, hu ▸ he, hmas, hrb, htg, hu ▸ hbytes, honly⟩
      · cases (show waits r t = w from hw.symm)
        cases (show joined tg r t = m from hm.symm)
        rw [he]
        rw [hdec tg a hd] at hbytes ⊢
        obtain ⟨hpark, hrest⟩ := grantNew_spec (tg := tg) (r := r) hnow
        refine ⟨fun hn hp => ?_, fun hx => ⟨fun v hn hv => ?_, fun hn => ?_⟩⟩
        · rw [hpark hn hp] at hbytes ⊢
          exact ⟨_, rfl, rfl, hbytes, rfl⟩
        · rw [(hrest hx).1 v hn hv] at hbytes ⊢
          exact ⟨_, rfl, rfl, hbytes, rfl⟩
        · rw [(hrest hx).2 hn]
    · rw [he, requestArrives_of_standby hm ha]
  · refine nextGrant_of_not_free fun hf => ?_
    obtain ⟨hb, hl, ho⟩ := hf
    rcases h with h | h | h
    · exact h hb
    · rw [hl] at h; cases h
    · omega
  · refine nextGrant_none_of_claimants (List.filter_eq_nil_iff.mpr fun w hw => ?_)
    rw [h w hw]; exact Bool.noConfusion
  · obtain ⟨-, hbest⟩ := nextGrant_some h
    obtain ⟨hmem, hhold⟩ := mem_claimants.mp (best_mem hbest)
    exact ⟨hmem, hhold, fun v hv hh => best_le (fun a => rank a.1.master) hbest v (mem_claimants.mpr ⟨hv, hh⟩)⟩
  · obtain ⟨w, hw, hh⟩ := hw
    rw [nextGrant_of_free ⟨hb, hl, ho⟩]
    exact best_isSome _ (List.ne_nil_of_mem (mem_claimants.mpr ⟨hw, hh⟩))
  · rintro now cost tg w m u rfl
    refine ⟨?_, ?_, fun h => ?_, fun x hx => doGrant_target_other now cost w m hx, ?_, fun i hi => ?_⟩
    · rw [doGrant_target]
    · rw [doGrant_target]
    · rw [doGrant_target]; exact if_pos h
    · simp only [doGrant_masters]; exact updV_at _ _ _
    · simp only [doGrant_masters]; exact updV_get_ne _ _ hi

end Sys2Proof.Machine
end

section
/-! SUPPORT. The writing of a tally record to its ring (R413, R421, R423). -/

namespace Sys2Proof.Machine

/-! ### Numbers and the bytes of a record -/

@[simp] theorem length_leBytes (n v : Nat) : (leBytes n v).length = n := by
  induction n generalizing v with
  | zero => rfl
  | succ n ih => exact congrArg Nat.succ (ih _)

theorem leNat_leBytes (n v : Nat) : leNat (leBytes n v) = v % 256 ^ n := by
  induction n generalizing v with
  | zero => rw [Nat.pow_zero, Nat.mod_one]; rfl
  | succ n ih =>
    show (BitVec.ofNat 8 v).toNat + 256 * leNat (leBytes n (v / 256)) = _
    rw [ih, BitVec.toNat_ofNat, Nat.pow_succ' (n := n) (m := 256)]
    exact (Nat.mod_mul (x := v) (a := 256) (b := 256 ^ n)).symm

theorem Record.length_bytes (r : Record) : r.bytes.length = r.body.length + 8 := by
  simp only [Record.bytes, List.length_append, length_leBytes]

/-- The last four bytes of a record are its number (R423). -/
theorem Record.tail_seq (r : Record) : BitVec.ofNat 32 (leNat (r.bytes.drop (r.bytes.length - 4))) = r.seq := by
  have hd : r.bytes.drop (r.bytes.length - 4) = leBytes 4 r.seq.toNat := by
    have hl : r.bytes.length - 4 = (r.body ++ leBytes 4 (crc32 r.body).toNat).length := by
      rw [Record.length_bytes, List.length_append, length_leBytes, Nat.add_sub_assoc (by decide)]
    rw [hl]
    exact List.drop_left
  rw [hd, leNat_leBytes]
  apply BitVec.eq_of_toNat_eq
  rw [BitVec.toNat_ofNat]
  have := r.seq.isLt
  omega

theorem fitTo_length (l : List Byte) : fitTo l.length l = l := by
  simp only [fitTo, zeros, List.take_length, Nat.sub_self, List.replicate_zero, List.append_nil]

/-! ### The FRAM while the dump engine writes -/

/-- The dump engine holds no burst of a target and waits for none. -/
def NoDump (m : Matrix) (x : Target) : Prop :=
  (∀ q, (m.target x).busy = some q → q.master ≠ .dump) ∧ ∀ w ∈ (m.target x).waiting, w.1.master ≠ .dump

/-- What the FRAM does: the burst in progress, the requests that wait, that it is not lent, and that no other target serves the
dump engine. -/
def FramSt (now : Nat) (busy : Option BurstReq) (waiting : List (BurstReq × Nat)) (m : Matrix) : Prop :=
  (m.target .fram).busy = busy ∧ (m.target .fram).waiting = waiting ∧ (∀ x, x ≠ .fram → NoDump m x) ∧
    (m.lend .tally).requested = false ∧ (m.lend .tally).granted = false ∧ (m.lend .tally).openAt ≤ now

theorem FramSt.congr {now : Nat} {busy : Option BurstReq} {waiting : List (BurstReq × Nat)} {m n : Matrix}
    (h : FramSt now busy waiting m) (ht : ∀ x, n.target x = m.target x) (hl : n.lend .tally = m.lend .tally) :
    FramSt now busy waiting n := by
  obtain ⟨hb, hw, hn, hr, hg, ho⟩ := h
  unfold FramSt NoDump
  rw [hl, ht]
  exact ⟨hb, hw, fun x hx => by rw [ht]; exact hn x hx, hr, hg, ho⟩

/-- A grant on another target serves another master, and the FRAM does what it did. -/
theorem FramSt.doGrant_other {now cost n : Nat} {busy : Option BurstReq} {waiting : List (BurstReq × Nat)} {m : Matrix} {t : Target}
    {w : BurstReq × Nat} (h : FramSt now busy waiting m) (ht : t ≠ .fram) (hw : w ∈ (m.target t).waiting) :
    FramSt now busy waiting (doGrant n cost t w m) := by
  obtain ⟨hb, hwt, hn, hr, hg, ho⟩ := h
  unfold FramSt
  rw [doGrant_lend, doGrant_target_other n cost w m ht.symm]
  refine ⟨hb, hwt, fun x hx => ?_, hr, hg, ho⟩
  by_cases hxt : x = t
  · subst hxt
    unfold NoDump
    rw [doGrant_target]
    exact ⟨fun q hq => Option.some.inj hq ▸ (hn x hx).2 w hw, fun v hv => (hn x hx).2 v (List.mem_of_mem_erase hv)⟩
  · unfold NoDump
    rw [doGrant_target_other n cost w m hxt]
    exact hn x hx

/-- The grant of the one request that waits on the FRAM. -/
theorem FramSt.doGrant_fram {now cost n : Nat} {m : Matrix} {w : BurstReq × Nat} (h : FramSt now none [w] m) :
    FramSt now (some w.1) [] (doGrant n cost .fram w m) := by
  obtain ⟨-, hwt, hn, hr, hg, ho⟩ := h
  unfold FramSt
  rw [doGrant_lend, doGrant_target, hwt]
  refine ⟨rfl, List.erase_cons_head w [], fun x hx => ?_, hr, hg, ho⟩
  unfold NoDump
  rw [doGrant_target_other n cost w m hx]
  exact hn x hx

theorem FramSt.free {now : Nat} {waiting : List (BurstReq × Nat)} {m : Matrix} (h : FramSt now none waiting m) :
    TargetFree now m .fram := by
  obtain ⟨hb, -, -, hr, hg, ho⟩ := h
  refine ⟨hb, ?_, ho⟩
  rw [show Target.fram = lendTarget .tally from rfl, Matrix.lent_lendTarget, hr, hg]
  rfl

theorem FramSt.not_holding {now : Nat} {waiting : List (BurstReq × Nat)} {m : Matrix} (h : FramSt now none waiting m) :
    m.holding .dump = false := by
  obtain ⟨hb, -, hn, -⟩ := h
  unfold Matrix.holding
  rw [List.any_eq_false]
  intro x _ hx
  split at hx
  next q hq =>
    have hm : q.master = .dump := eq_of_beq hx
    by_cases hxf : x = .fram
    · rw [hxf, hb] at hq; cases hq
    · exact (hn x hxf).1 q hq hm
  · cases hx

/-- The FRAM grants the one request of the dump engine that waits on it. -/
theorem FramSt.nextGrant {now : Nat} {m : Matrix} {w : BurstReq × Nat} (h : FramSt now none [w] m) (hw : w.1.master = .dump) :
    nextGrant now m .fram = some w := by
  have hc : claimants m .fram = [w] := by
    unfold claimants
    rw [h.2.1, List.filter_cons_of_pos]
    · rfl
    · rw [hw, h.not_holding]; rfl
  rw [nextGrant_of_free h.free, hc]
  rfl

theorem FramSt.grantOne_other {busy : Option BurstReq} {waiting : List (BurstReq × Nat)} {s : State} {t : Target}
    (h : FramSt s.now busy waiting s.matrix) (ht : t ≠ .fram) : FramSt s.now busy waiting (grantOne t s).matrix := by
  cases hn : Machine.nextGrant s.now s.matrix t with
  | none => rw [grantOne_none hn]; exact h
  | some w =>
    rw [grantOne_some hn]
    exact h.doGrant_other ht (mem_claimants.mp (best_mem (nextGrant_some hn).2)).1

theorem grantOne_now (t : Target) (s : State) : (grantOne t s).now = s.now := by
  unfold grantOne
  split <;> rfl

/-- What becomes of the FRAM when every target grants what it can: `busy` and `waiting` are what its own grant makes of it. -/
theorem FramSt.grantAll {b0 b1 : Option BurstReq} {w0 w1 : List (BurstReq × Nat)} {s : State}
    (h : FramSt s.now b0 w0 s.matrix)
    (hf : ∀ u : State, FramSt u.now b0 w0 u.matrix → FramSt u.now b1 w1 (grantOne .fram u).matrix) :
    FramSt s.now b1 w1 (grantAll s).matrix := by
  rw [grantAll_eq]
  have h1 := h.grantOne_other (t := .flash) Target.noConfusion
  rw [← grantOne_now .flash s] at h1 ⊢
  generalize grantOne .flash s = s1 at *
  have h2 := h1.grantOne_other (t := .psram) Target.noConfusion
  rw [← grantOne_now .psram s1] at h2 ⊢
  generalize grantOne .psram s1 = s2 at *
  have h3 := hf s2 h2
  rw [← grantOne_now .fram s2] at h3 ⊢
  exact h3.grantOne_other (t := .sram) Target.noConfusion

theorem FramSt.grantAll_idle {busy : Option BurstReq} {s : State} (h : FramSt s.now busy [] s.matrix) :
    FramSt s.now busy [] (Machine.grantAll s).matrix :=
  h.grantAll fun u hu => by rw [grantOne_none (nextGrant_of_no_waiting hu.2.1)]; exact hu

theorem FramSt.grantAll_request {w : BurstReq × Nat} {s : State} (h : FramSt s.now none [w] s.matrix) (hw : w.1.master = .dump) :
    FramSt s.now (some w.1) [] (Machine.grantAll s).matrix :=
  h.grantAll fun u hu => by rw [grantOne_some (hu.nextGrant hw)]; exact hu.doGrant_fram

theorem FramSt.grantNew {w : BurstReq × Nat} {s : State} (h : FramSt s.now none [w] s.matrix) (hw : w.1.master = .dump) :
    FramSt s.now (some w.1) [] (Machine.grantNew .fram w s).matrix := by
  unfold Machine.grantNew
  split
  · exact h.doGrant_fram
  · exact h.grantAll_request hw

/-- Nothing changed but what the targets do and the counts of the masters. -/
theorem grantNew_only (tg : Target) (w : BurstReq × Nat) (s : State) :
    grantNew tg w s = { s with matrix := (grantNew tg w s).matrix } := by
  unfold grantNew
  split
  · rfl
  · exact (grantAll_only s).1

/-! ### One burst of a record -/

/-- A burst of the dump engine that writes to its ring. -/
def RingWrite (b : BurstReq) : Prop :=
  b.master = .dump ∧ b.fn = .tallyRing ∧ b.write = true ∧ 0 < b.len ∧ b.len ≤ 256 ∧ b.bytes.length = b.len

theorem RingWrite.inBounds {b : BurstReq} (h : RingWrite b) (s : State) : InBounds b s := by
  obtain ⟨hm, hf, -, hp, hl, -⟩ := h
  unfold InBounds
  rw [hm, hf]
  exact ⟨(fun e he => nomatch he), rfl, hp, hl⟩

theorem RingWrite.waits {b : BurstReq} (h : RingWrite b) (s : State) : Machine.waits b s = (b, s.now) := by
  obtain ⟨-, -, -, -, -, hb⟩ := h
  unfold Machine.waits
  rw [← hb, fitTo_length, hb]

theorem RingWrite.countMade {b : BurstReq} (h : RingWrite b) (s : State) :
    Machine.countMade b s = { s with tally := { s.tally with made := s.tally.made + b.len } } := by
  obtain ⟨-, hf, hw, -⟩ := h
  unfold Machine.countMade
  rw [hw, hf]
  rfl

/-- The request of a burst of the ring is granted at once. -/
theorem matrixRequest_ring {b : BurstReq} {s : State} {a : Nat} (hb : RingWrite b) (hf : FramSt s.now none [] s.matrix)
    (hd : decodes s b = some (.fram, a)) :
    ∃ m, matrixRequest b s = { s with matrix := m, tally := { s.tally with made := s.tally.made + b.len } } ∧
      FramSt s.now (some b) [] m ∧ (∀ x i, m.byteOf x i = s.matrix.byteOf x i) ∧ m.wf = s.matrix.wf := by
  have heq := matrixRequest_decoded (hb.inBounds s) hd
  rw [hb.countMade, hb.waits] at heq
  have hj : FramSt s.now none [(b, s.now)] (joined .fram b s) := by
    obtain ⟨hbusy, hwait, hn, hl⟩ := hf
    unfold joined
    rw [hb.waits]
    exact ⟨hbusy, by rw [Matrix.target_setTarget_same, hwait]; rfl,
      fun x hx => by unfold NoDump; rw [Matrix.target_setTarget_other _ _ hx]; exact hn x hx, hl⟩
  have hby : ∀ x i, (joined .fram b s).byteOf x i = s.matrix.byteOf x i := fun x i => by cases x <;> rfl
  have hwf : (joined .fram b s).wf = s.matrix.wf := rfl
  generalize joined .fram b s = m0 at *
  have hst : FramSt s.now (some b) [] (grantNew .fram (b, s.now)
      { s with tally := { s.tally with made := s.tally.made + b.len }, matrix := m0 }).matrix :=
    FramSt.grantNew (s := { s with tally := { s.tally with made := s.tally.made + b.len }, matrix := m0 }) hj hb.1
  have honly := grantNew_only .fram (b, s.now) { s with tally := { s.tally with made := s.tally.made + b.len }, matrix := m0 }
  have hk := kept_grantNew .fram (b, s.now) { s with tally := { s.tally with made := s.tally.made + b.len }, matrix := m0 }
  generalize grantNew .fram (b, s.now) { s with tally := { s.tally with made := s.tally.made + b.len }, matrix := m0 } = u at *
  refine ⟨u.matrix, by rw [heq, honly], hst, fun x i => ?_, (matrix_wf_of_kept hk).trans hwf⟩
  have hsame := SameBytes.of_kept hk i
  obtain ⟨-, hfr, hps, hsr⟩ := hsame
  refine Eq.trans ?_ (hby x i)
  cases x
  · rfl
  · exact hps
  · exact hfr
  · exact hsr

/-- What the commit word of a tally record leaves, where the burst carries one. -/
def ringWord (b : BurstReq) (a : Nat) (t : Tally) : Tally :=
  if b.commit then
    { t with
      writing := none, made := 0, committed := BitVec.ofNat 32 (leNat b.bytes), commitTurn := true
      lastCommit := some (a, BitVec.ofNat 32 (leNat b.bytes)) }
  else t

theorem wordWritten_ring {b : BurstReq} (hf : b.fn = .tallyRing) (a : Nat) (s : State) :
    wordWritten b a s = { s with tally := ringWord b a s.tally } := by
  unfold wordWritten ringWord
  rw [hf]
  cases b.commit <;> rfl

/-- A burst of the ring, from its request to its end. -/
theorem ringBurst_spec {b : BurstReq} {s : State} {a : Nat} (hb : RingWrite b) (hf : FramSt s.now none [] s.matrix)
    (hd : decodes s b = some (.fram, a)) :
    ((matrixRequest b s).matrix.target .fram).busy = some b ∧
      ∃ m, burstEnds .fram (matrixRequest b s) =
          { s with matrix := m, tally := ringWord b a { s.tally with made := s.tally.made + b.len } } ∧
        FramSt s.now none [] m ∧ (s.matrix.wf = true → m.wf = true) ∧
        (s.matrix.wf = true → ∀ i, i < b.bytes.length → m.byteOf .fram (a + i) = byteAt b.bytes i) ∧
        (∀ i, (i < a ∨ a + b.bytes.length ≤ i) → m.byteOf .fram i = s.matrix.byteOf .fram i) ∧
        ∀ x i, x ≠ .fram → m.byteOf x i = s.matrix.byteOf x i := by
  obtain ⟨m, heq, hst, hby, hwf⟩ := matrixRequest_ring hb hf hd
  have hbusy : ((matrixRequest b s).matrix.target .fram).busy = some b := by rw [heq]; exact hst.1
  refine ⟨hbusy, ?_⟩
  have hd1 : decodes (matrixRequest b s) b = some (.fram, a) := by
    rw [decodes_congr (s := s) (u := matrixRequest b s) (by rw [heq])]; exact hd
  rw [burstEnds_write hbusy hd1 hb.2.2.1, wordWritten_ring hb.2.1, heq]
  have hfree : FramSt s.now none [] (freed .fram { s with matrix := m, tally := { s.tally with made := s.tally.made + b.len } }) := by
    obtain ⟨-, hw, hn, hr, hg, ho⟩ := hst
    have hl : (freed .fram { s with matrix := m, tally := { s.tally with made := s.tally.made + b.len } }).lend .tally = m.lend .tally := by
      unfold freed
      rw [Matrix.floats_lend, Matrix.lend_setTarget, if_neg]
      rintro ⟨h, -⟩
      cases hr.symm.trans h
    unfold FramSt
    rw [hl]
    exact ⟨rfl, hw, fun x hx => by
      unfold NoDump freed
      rw [Matrix.target_floats, Matrix.target_setTarget_other _ _ hx]; exact hn x hx, hr, hg, ho⟩
  have hfb : ∀ x i, (freed .fram { s with matrix := m, tally := { s.tally with made := s.tally.made + b.len } }).byteOf x i =
    s.matrix.byteOf x i := fun x i => (freed_byteOf .fram { s with matrix := m, tally := { s.tally with made := s.tally.made + b.len } } x i).trans
      (hby x i)
  have hfw : (freed .fram { s with matrix := m, tally := { s.tally with made := s.tally.made + b.len } }).wf = s.matrix.wf := hwf
  dsimp only
  generalize freed .fram { s with matrix := m, tally := { s.tally with made := s.tally.made + b.len } } = m1 at *
  have hm2 : FramSt s.now none [] (m1.writeMem .fram a b.bytes) :=
    hfree.congr (fun x => Matrix.target_writeMem _ _ _ _ _) (Matrix.lend_writeMem _ _ _ _ _)
  have hin : s.matrix.wf = true → ∀ i, i < b.bytes.length → (m1.writeMem .fram a b.bytes).byteOf .fram (a + i) = byteAt b.bytes i :=
    fun h i hi => Matrix.byteOf_writeMem_same m1 .fram a _ i (hfw.trans h) Target.noConfusion hi
  have hwf2 : s.matrix.wf = true → (m1.writeMem .fram a b.bytes).wf = true := fun h => Matrix.wf_writeMem _ _ _ _ (hfw.trans h)
  have hout : ∀ i, (i < a ∨ a + b.bytes.length ≤ i) → (m1.writeMem .fram a b.bytes).byteOf .fram i = s.matrix.byteOf .fram i :=
    fun i h => (Matrix.byteOf_writeMem_outside m1 .fram a _ i h).trans (hfb .fram i)
  have hoth : ∀ x i, x ≠ .fram → (m1.writeMem .fram a b.bytes).byteOf x i = s.matrix.byteOf x i :=
    fun x i h => (Matrix.byteOf_writeMem_other m1 a _ h i).trans (hfb x i)
  generalize m1.writeMem .fram a b.bytes = m2 at *
  generalize ringWord b a { s.tally with made := s.tally.made + b.len } = tl
  have hst2 : FramSt s.now none [] (grantAll { s with matrix := m2, tally := tl }).matrix :=
    FramSt.grantAll_idle (s := { s with matrix := m2, tally := tl }) hm2
  obtain ⟨honly, -, -⟩ := grantAll_only { s with matrix := m2, tally := tl }
  have hk := kept_grantAll { s with matrix := m2, tally := tl }
  generalize grantAll { s with matrix := m2, tally := tl } = u at *
  have hbu : ∀ x i, u.matrix.byteOf x i = m2.byteOf x i := fun x i => by
    obtain ⟨-, hfr, hps, hsr⟩ := SameBytes.of_kept hk i
    cases x
    · rfl
    · exact hps
    · exact hfr
    · exact hsr
  exact ⟨u.matrix, by rw [honly], hst2, fun h => (matrix_wf_of_kept hk).trans (hwf2 h),
    fun h i hi => (hbu _ _).trans (hin h i hi), fun i h => (hbu _ _).trans (hout i h), fun x i h => (hbu _ _).trans (hoth x i h)⟩

/-! ### The bursts of a record -/

/-- The next burst of record `r` at offset `o` of the ring, of which `n` bytes are written (R413, R423). -/
def recordPiece (r : Record) (o n : Nat) : BurstReq :=
  let k := if n + 4 < r.bytes.length then min 256 (r.bytes.length - 4 - n) else 4
  { master := .dump, fn := .tallyRing, offset := o + n, len := k, write := true, bytes := (r.bytes.drop n).take k
    commit := n == r.bytes.length - 4 }

/-- Lengths of the pieces: the body goes on by at most 256 bytes and ends with its last piece, and TAIL_SEQ is four bytes. -/
theorem recordPiece_len {r : Record} {o n : Nat} (hn : n + 4 ≤ r.bytes.length) :
    (n + 4 < r.bytes.length → (recordPiece r o n).len = min 256 (r.bytes.length - 4 - n)) ∧
      (n + 4 = r.bytes.length → (recordPiece r o n).len = 4) ∧ n + (recordPiece r o n).len ≤ r.bytes.length := by
  unfold recordPiece
  dsimp only
  split <;> omega

theorem recordPiece_ringWrite {r : Record} {o n : Nat} (hn : n + 4 ≤ r.bytes.length) : RingWrite (recordPiece r o n) := by
  have hl := recordPiece_len (o := o) hn
  have hb : (recordPiece r o n).bytes = (r.bytes.drop n).take (recordPiece r o n).len := rfl
  refine ⟨rfl, rfl, rfl, by omega, by omega, ?_⟩
  rw [hb, List.length_take, List.length_drop]
  omega

theorem ringNext_none {s : State} (h : s.tally.writing = none) : ringNext s = none := by
  unfold ringNext; rw [h]

/-- The dump engine goes on with its record. -/
theorem ringNext_eq {s : State} {r : Record} {w : Win} {o n : Nat} (hr : s.tally.writing = some r) (hw : ringWindow s.image = some w)
    (hm : s.tally.made = n) (ho : o = r.bytes.length * (r.seq.toNat % (w.size / r.bytes.length))) (hn : n + 4 ≤ r.bytes.length) :
    ringNext s = some (recordPiece r o n) := by
  obtain ⟨hbody, htail, -⟩ := recordPiece_len (o := o) hn
  have hlen := r.length_bytes
  unfold ringNext ringBytes
  rw [hr, hw]
  dsimp only
  rw [← hlen, hm, ← ho]
  have hk : (if n < r.bytes.length - 4 then min 256 (r.bytes.length - 4 - n) else 4) = (recordPiece r o n).len := by
    split <;> omega
  rw [hk]
  unfold recordBurst
  dsimp only
  rw [if_pos ⟨rfl, by omega⟩]
  rfl

theorem ringBursts_none (k : Nat) {s : State} (h : s.tally.writing = none) : ringBursts k s = s := by
  cases k with
  | zero => rfl
  | succ k => unfold ringBursts; rw [ringNext_none h]

/-- One more burst of a record. -/
theorem ringBursts_succ {k : Nat} {s u : State} {b : BurstReq} (hn : ringNext s = some b)
    (hbusy : ((matrixRequest b s).matrix.target .fram).busy = some b) (hm : b.master = .dump)
    (hu : burstEnds .fram (matrixRequest b s) = u) : ringBursts (k + 1) s = ringBursts k u := by
  show (match ringNext s with | some q => _ | none => s) = _
  rw [hn]
  dsimp only
  rw [hbusy]
  dsimp only
  rw [if_pos hm, hu]

/-- The FRAM holds bytes `lo` to `hi - 1` of list `l` from address `a` on, and every other byte as `m` holds it. -/
def Holds (l : List Byte) (a lo hi : Nat) (m n : Matrix) : Prop :=
  (m.wf = true → n.wf = true ∧ ∀ i, lo ≤ i → i < hi → n.byteOf .fram (a + i) = byteAt l i) ∧
    (∀ b, (b < a + lo ∨ a + hi ≤ b) → n.byteOf .fram b = m.byteOf .fram b) ∧
    ∀ x b, x ≠ .fram → n.byteOf x b = m.byteOf x b

theorem Holds.refl (l : List Byte) (a n : Nat) (m : Matrix) : Holds l a n n m m :=
  ⟨fun h => ⟨h, fun _ h1 h2 => absurd h2 (Nat.not_lt.mpr h1)⟩, fun _ _ => rfl, fun _ _ _ => rfl⟩

theorem byteAt_take_drop (l : List Byte) (n k i : Nat) (h : i < k) : byteAt ((l.drop n).take k) i = byteAt l (n + i) := by
  simp only [byteAt, List.getD_eq_getElem?_getD, List.getElem?_take_of_lt h, List.getElem?_drop]

/-- A piece of the list written where it belongs. -/
theorem Holds.write {l : List Byte} {a lo n k : Nat} {m m1 m2 : Matrix} (h : Holds l a lo n m m1) (hn : lo ≤ n)
    (hk : ((l.drop n).take k).length = k) (hwf : m1.wf = true → m2.wf = true)
    (hin : m1.wf = true → ∀ i, i < ((l.drop n).take k).length → m2.byteOf .fram (a + n + i) = byteAt ((l.drop n).take k) i)
    (hout : ∀ i, (i < a + n ∨ a + n + ((l.drop n).take k).length ≤ i) → m2.byteOf .fram i = m1.byteOf .fram i)
    (hoth : ∀ x i, x ≠ .fram → m2.byteOf x i = m1.byteOf x i) : Holds l a lo (n + k) m m2 := by
  rw [hk] at hin hout
  obtain ⟨hw, ho, hx⟩ := h
  refine ⟨fun hm => ⟨hwf (hw hm).1, fun i h1 h2 => ?_⟩, fun b hb => ?_, fun x b h => (hoth x b h).trans (hx x b h)⟩
  · by_cases hi : i < n
    · rw [hout _ (Or.inl (Nat.add_lt_add_left hi a))]
      exact (hw hm).2 i h1 hi
    · obtain ⟨j, rfl⟩ := Nat.exists_eq_add_of_le (Nat.not_lt.mp hi)
      have hj : j < k := by omega
      rw [← Nat.add_assoc, hin (hw hm).1 j hj, byteAt_take_drop l n k j hj]
  · rw [hout b (by omega)]
    exact ho b (by omega)

/-- The dump engine has written `n` bytes of its record `r` since state `t`, and the FRAM is free for it. -/
def Underway (r : Record) (a n : Nat) (t s : State) : Prop :=
  s = { t with matrix := s.matrix, tally := s.tally } ∧ s.tally.writing = some r ∧ s.tally.made = n ∧
    s.tally.buffer = t.tally.buffer ∧ FramSt t.now none [] s.matrix ∧ Holds r.bytes a t.tally.made n t.matrix s.matrix ∧
    t.tally.made ≤ n

/-- The record is committed: it stands whole in the FRAM. -/
def Committed (r : Record) (a : Nat) (t u : State) : Prop :=
  u = { t with matrix := u.matrix, tally := u.tally } ∧ u.tally.writing = none ∧ u.tally.committed = r.seq ∧
    u.tally.commitTurn = true ∧ u.tally.lastCommit = some (a + r.bytes.length - 4, r.seq) ∧ u.tally.buffer = t.tally.buffer ∧
    Holds r.bytes a t.tally.made r.bytes.length t.matrix u.matrix

/-- The place of a record: its slot of the ring, which the dump engine reaches. -/
def InSlot (r : Record) (o a : Nat) (t : State) : Prop :=
  (∃ w, ringWindow t.image = some w ∧ o = r.bytes.length * (r.seq.toNat % (w.size / r.bytes.length))) ∧
    ∀ q : BurstReq, q.master = .dump → q.fn = .tallyRing → q.write = true → 0 < q.len → o ≤ q.offset →
      q.offset + q.len ≤ o + r.bytes.length → decodes t q = some (.fram, a + (q.offset - o))

/-- One burst of a record brings it further, and the last one commits it. -/
theorem Underway.burst {r : Record} {o a n : Nat} {t s : State} (hslot : InSlot r o a t) (h : Underway r a n t s)
    (hn : n + 4 ≤ r.bytes.length) :
    ∃ u, (∀ k, ringBursts (k + 1) s = ringBursts k u) ∧
      (n + 4 < r.bytes.length → Underway r a (n + (recordPiece r o n).len) t u) ∧
      (n + 4 = r.bytes.length → Committed r a t u) := by
  obtain ⟨⟨w, hw, ho⟩, hdec⟩ := hslot
  obtain ⟨honly, hwr, hmade, hbuf, hfr, hholds, hle⟩ := h
  have himg : s.image = t.image := (congrArg State.image honly).trans rfl
  have hnow : s.now = t.now := (congrArg State.now honly).trans rfl
  have hring := recordPiece_ringWrite (o := o) hn
  obtain ⟨hbody, htail, hle2⟩ := recordPiece_len (o := o) hn
  have hnext := ringNext_eq hwr (by rw [himg]; exact hw) hmade ho hn
  have hd : decodes s (recordPiece r o n) = some (.fram, a + n) := by
    rw [decodes_congr himg, hdec _ rfl rfl rfl hring.2.2.2.1 (Nat.le_add_right o n) (by
      show o + n + (recordPiece r o n).len ≤ _
      omega)]
    show some (Target.fram, a + (o + n - o)) = _
    rw [Nat.add_sub_cancel_left]
  obtain ⟨hbusy, m, hends, hst, hwf, hin, hout, hoth⟩ := ringBurst_spec hring (hnow.symm ▸ hfr) hd
  have hh : Holds r.bytes a t.tally.made (n + (recordPiece r o n).len) t.matrix m := hholds.write hle hring.2.2.2.2.2 hwf hin hout hoth
  refine ⟨_, fun k => ringBursts_succ hnext hbusy rfl hends, fun hlt => ?_, fun heq => ?_⟩
  · have hc : ringWord (recordPiece r o n) (a + n) { s.tally with made := s.tally.made + (recordPiece r o n).len } =
        { s.tally with made := s.tally.made + (recordPiece r o n).len } := by
      refine if_neg (fun hc => ?_)
      have := eq_of_beq hc
      omega
    rw [hc]
    exact ⟨by rw [honly], hwr, by rw [← hmade], hbuf, hnow ▸ hst, hh, Nat.le_trans hle (Nat.le_add_right _ _)⟩
  · have hcommit : (recordPiece r o n).commit = true := beq_iff_eq.mpr (by omega)
    have hbytes : (recordPiece r o n).bytes = r.bytes.drop (r.bytes.length - 4) := by
      have hb : (recordPiece r o n).bytes = (r.bytes.drop n).take (recordPiece r o n).len := rfl
      rw [hb, htail heq, ← heq, Nat.add_sub_cancel, List.take_of_length_le]
      rw [List.length_drop]; omega
    have hword : BitVec.ofNat 32 (leNat (recordPiece r o n).bytes) = r.seq := by rw [hbytes, r.tail_seq]
    unfold ringWord
    rw [if_pos hcommit, hword]
    refine ⟨by rw [honly], rfl, rfl, rfl, ?_, hbuf, ?_⟩
    · rw [← heq, ← Nat.add_assoc, Nat.add_sub_cancel]
    · rw [htail heq, heq] at hh; exact hh

/-- The bursts that a record still takes commit it. -/
theorem ringBursts_commit {r : Record} {o a : Nat} {t : State} (hslot : InSlot r o a t) (k n : Nat) (s : State)
    (h : Underway r a n t s) (hn : n + 4 ≤ r.bytes.length) (hk : ceilDiv (r.bytes.length - 4 - n) 256 + 1 ≤ k) :
    Committed r a t (ringBursts k s) := by
  induction k generalizing n s with
  | zero => exact absurd hk (Nat.not_succ_le_zero _)
  | succ k ih =>
    obtain ⟨u, hu, hbody, htail⟩ := h.burst hslot hn
    rw [hu]
    obtain ⟨hlen, -, -⟩ := recordPiece_len (o := o) hn
    by_cases hlt : n + 4 < r.bytes.length
    · have hl := hlen hlt
      unfold ceilDiv at hk ih
      exact ih _ u (hbody hlt) (by omega) (by omega)
    · have hc := htail (by omega)
      rw [ringBursts_none k hc.2.1]
      exact hc

/-- The dump engine is free to write. -/
theorem framSt_of_ringFree {t : State} (h : ringFree t = true) (hw : (t.matrix.target .fram).waiting = []) :
    FramSt t.now none [] t.matrix := by
  unfold ringFree at h
  simp only [Bool.and_eq_true, Option.isNone_iff_eq_none, Bool.not_eq_true', decide_eq_true_eq, List.all_eq_true, bne_iff_ne] at h
  obtain ⟨⟨⟨⟨⟨-, hb⟩, hl⟩, ho⟩, hh⟩, hall⟩ := h
  have hl' : ((t.matrix.lend .tally).requested || (t.matrix.lend .tally).granted) = false := hl
  obtain ⟨hreq, hgr⟩ := Bool.or_eq_false_iff.mp hl'
  have hmem : ∀ x, x ∈ targets := fun x => by cases x <;> decide
  refine ⟨hb, hw, fun x _ => ⟨fun q hq hm => ?_, fun v hv => hall x (hmem x) v hv⟩, hreq, hgr, ho⟩
  unfold Matrix.holding at hh
  have := (List.any_eq_false.mp hh) x (hmem x)
  rw [hq] at this
  exact this (beq_iff_eq.mpr hm)

/-- A buffered record that is taken up leaves what the tally says of the last one committed. -/
theorem writeNext_spec (s : State) :
    (writeNext s).tally.committed = s.tally.committed ∧ (writeNext s).tally.commitTurn = s.tally.commitTurn ∧
      (writeNext s).tally.lastCommit = s.tally.lastCommit ∧
      (s.tally.buffer = [] → (writeNext s).tally.writing = s.tally.writing) := by
  refine ⟨?_, ?_, ?_, fun h => ?_⟩
  · unfold writeNext; (repeat' split) <;> rfl
  · unfold writeNext; (repeat' split) <;> rfl
  · unfold writeNext; (repeat' split) <;> rfl
  · unfold writeNext
    split
    next hb => rw [h] at hb; cases hb
    · rfl

/-- Settles O49: the pieces of a record go to its slot one after another, and TAIL_SEQ commits it. -/
theorem recordCommitted : Obligations.RecordCommitted := by
  rintro k s t rfl
  generalize ht : atTick k s = t
  have he : exec (.tallyCommit k) s = .next (tallyCommit t) := next_of_eq (by rw [ht])
  refine ⟨fun r w o a hfree hwait hwr hwin ho ha hdec hmade => ⟨_, he, ?_⟩, fun h => ?_⟩
  · have hstart : Underway r a t.tally.made t t :=
      ⟨rfl, hwr, rfl, rfl, framSt_of_ringFree hfree hwait, Holds.refl _ _ _ _, Nat.le_refl _⟩
    have hleft : burstsLeft t = ceilDiv (r.bytes.length - 4 - t.tally.made) 256 + 1 := by
      unfold burstsLeft
      rw [hwr, r.length_bytes, Nat.add_sub_assoc (by decide)]
    have hc := ringBursts_commit ⟨⟨w, hwin, ho⟩, hdec⟩ (burstsLeft t) t.tally.made t hstart hmade (Nat.le_of_eq hleft.symm)
    have heq : tallyCommit t = writeNext (ringBursts (burstsLeft t) t) := if_pos hfree
    rw [heq]
    generalize ringBursts (burstsLeft t) t = v at *
    obtain ⟨honly, hnone, hcm, hct, hlc, hbuf, hheld, hout, hoth⟩ := hc
    obtain ⟨hcm', hct', hlc', hwr'⟩ := writeNext_spec v
    have hn := writeNext_only v
    have hm : (writeNext v).matrix = v.matrix := (congrArg State.matrix hn).trans rfl
    have hb : ∀ x b, (writeNext v).byteOf x b = v.byteOf x b := State.byteOf_of_kept (kept_writeNext v)
    have hfl : v.image.flash = t.image.flash := (congrArg (fun s : State => s.image.flash) honly).trans rfl
    refine ⟨hcm'.trans hcm, hct'.trans hct, hlc'.trans hlc, fun hcan i h1 h2 => ?_, fun b h => ?_, fun x b hx => ?_, fun h => ?_, ?_⟩
    · exact (hb _ _).trans ((hheld ((canonical_iff t).mp hcan).2).2 i h1 h2)
    · exact (hb _ _).trans (State.byteOf_congr hfl _ _ (fun _ => hout b h))
    · exact (hb _ _).trans (State.byteOf_congr hfl _ _ (fun _ => hoth x b hx))
    · exact (hwr' (hbuf.trans h)).trans hnone
    · rw [hn, honly]
  · rw [he]
    have hf : ringFree t = false := by
      unfold ringFree
      rcases h with h | h | h
      · rw [h]; rfl
      · rw [Option.isNone_eq_false_iff.mpr (Option.isSome_iff_ne_none.mpr h), Bool.and_false]; rfl
      · rw [h, Bool.not_true, Bool.and_false]; rfl
    unfold tallyCommit
    rw [hf]; rfl

end Sys2Proof.Machine
end

section
/-! SUPPORT. The reference candidates and their loss (R34, R35, R48, R49). -/

namespace Sys2Proof.Machine

/-- What the loss of the present reference leaves. -/
theorem Timebase.lose_spec (t : Timebase) :
    t.lose.present = none ∧ t.lose.qualified = t.qualified ∧ t.lose.refinQual = t.refinQual ∧
      t.lose.goodFrames = t.goodFrames ∧ t.lose.refinFrames = t.refinFrames := by
  unfold Timebase.lose
  split
  next h => exact ⟨h, rfl, rfl, rfl, rfl⟩
  · split <;> exact ⟨rfl, rfl, rfl, rfl, rfl⟩

theorem Timebase.lose_of_none {t : Timebase} (h : t.present = none) : t.lose = t := by
  unfold Timebase.lose; rw [h]

/-- The present reference is lost to holdover, or to free-run. -/
theorem Timebase.lose_of_present {t : Timebase} {c : RefCand} (h : t.present = some c) :
    t.lose.switched = true ∧ (t.holdCondition = true → t.lose.mode = .holdover ∧ t.lose.heldSum = t.heldNow) ∧
      (t.holdCondition = false → t.lose.mode = .freeRun) := by
  unfold Timebase.lose
  rw [h]
  dsimp only
  cases t.holdCondition with
  | true => exact ⟨rfl, fun _ => ⟨rfl, rfl⟩, (fun h => by cases h)⟩
  | false => exact ⟨rfl, (fun h => by cases h), fun _ => rfl⟩

/-- A candidate that fails, where the machine has a cause to disqualify it. -/
theorem candidateFails_of_cause {c : RefCand} {o : Bool} {s : State} (hc : s.time.counting = true)
    (hcause : ∀ p, c = .port p → o = true ∨ sourceUp s.ports[p] = false) :
    candidateFails c o s =
      { s with time := if s.time.present = some c then (s.time.drop c).lose else s.time.drop c } := by
  unfold candidateFails
  dsimp only
  rw [if_pos]
  rw [hc, Bool.true_and]
  cases c with
  | refin => rfl
  | port p =>
    rcases hcause p rfl with h | h
    · rw [h]; rfl
    · show (o || !sourceUp s.ports[p]) = true
      rw [h]; exact Bool.or_true o

/-- A candidate that is dropped: the reference is lost where it was the present one, and otherwise stays. -/
theorem Timebase.dropped_present (t : Timebase) (c : RefCand) (v : Timebase)
    (hv : v = if t.present = some c then (t.drop c).lose else t.drop c) :
    (t.present = some c → v.present = none) ∧ (t.present ≠ some c → v.present = t.present ∧ v.mode = t.mode) ∧
      v.qualified = (t.drop c).qualified ∧ v.refinQual = (t.drop c).refinQual ∧ v.goodFrames = (t.drop c).goodFrames ∧
      v.refinFrames = (t.drop c).refinFrames := by
  have hd : (t.drop c).present = t.present ∧ (t.drop c).mode = t.mode := by cases c <;> exact ⟨rfl, rfl⟩
  obtain ⟨hnone, hq, hr, hg, hf⟩ := (t.drop c).lose_spec
  subst hv
  split
  next h => exact ⟨fun _ => hnone, fun hne => absurd h hne, hq, hr, hg, hf⟩
  next h => exact ⟨fun hp => absurd hp h, fun _ => hd, rfl, rfl, rfl, rfl⟩

/-- An element of a vector of flags with one of them set. -/
theorem updV_const {α : Type} {n : Nat} (v : Vector α n) (i j : Fin n) (b : α) :
    (updV v i (fun _ => b))[j] = if j = i then b else v[j] := by
  split
  next h => rw [h]; exact updV_at v i _
  next h => exact updV_get_ne v _ h

/-- Settles O52: candidates qualify, fail and are lost. -/
theorem referenceCandidates : Obligations.ReferenceCandidates := by
  rintro k s t rfl
  have hloss : exec (.referenceLoss k) s = .next (referenceLost (atTick k s)) := rfl
  have hfails : ∀ c o, exec (.candidateDisqualified c o k) s = .next (candidateFails c o (atTick k s)) := fun _ _ => rfl
  generalize atTick k s = t at *
  refine ⟨fun p hn hg hq => ⟨_, next_of_eq (if_pos ?_), fun q => updV_const _ p q true,
      fun q hne => updV_get_ne _ _ hne, rfl⟩, fun p h => next_of_eq (if_neg ?_),
    fun hn hc hf hq => ⟨_, next_of_eq (if_pos ?_), rfl⟩, fun h => next_of_eq (if_neg ?_), fun c hc hp => ?_, fun hp => ?_,
    fun p o hc => ⟨fun h => ?_, fun ho hup => ?_⟩, fun o hc => ?_⟩
  · rw [hn, hq, decide_eq_true hg]; rfl
  · rcases h with h | h
    · rw [decide_eq_false (Nat.not_le.mpr h), Bool.and_false]; exact Bool.noConfusion
    · rw [h]; exact Bool.noConfusion
  · rw [hn, hc, hq, decide_eq_true hf]; rfl
  · rcases h with h | h
    · rw [decide_eq_false (Nat.not_le.mpr h), Bool.and_false]; exact Bool.noConfusion
    · rw [h]; exact Bool.noConfusion
  · obtain ⟨hnone, hq, -⟩ := t.time.lose_spec
    obtain ⟨hsw, hhold, hfree⟩ := Timebase.lose_of_present hp
    exact ⟨_, hloss.trans (next_of_eq (if_pos hc)), hnone, hsw, hhold, hfree, hq, rfl⟩
  · rw [hloss]
    unfold referenceLost
    rw [Timebase.lose_of_none hp, ite_self]
  · obtain ⟨hpres, hstay, hq, hr, hg, -⟩ := t.time.dropped_present (.port p) _ rfl
    refine ⟨_, (hfails _ _).trans (next_of_eq (candidateFails_of_cause hc (fun q hq => RefCand.port.inj hq ▸ h))), ?_, fun q => ?_,
      hr, hpres, hstay, rfl⟩
    · dsimp only
      rw [hg]; exact updV_at _ _ _
    · dsimp only
      rw [hq]; exact updV_const _ p q false
  · rw [hfails]
    refine next_of_eq (if_neg ?_)
    show ¬ ((t.time.counting && (o || !sourceUp t.ports[p])) = true)
    rw [ho, hup, Bool.not_true, Bool.or_false, Bool.and_false]
    exact Bool.noConfusion
  · obtain ⟨hpres, hstay, hq, hr, -, hf⟩ := t.time.dropped_present .refin _ rfl
    exact ⟨_, (hfails _ _).trans (next_of_eq (candidateFails_of_cause hc (fun q hq => by cases hq))), hr, hf, hq, hpres, hstay, rfl⟩

end Sys2Proof.Machine
end

section
/-! SUPPORT. The stop and the resumption of counting, and RESET_N (R31, R52 to R54, R83, R501, R502). -/

namespace Sys2Proof.Machine

/-! ### What the engines, pairs, captures and bursts leave alone when they are dropped -/

/-- Position, the time base, pins, modes, ports, the keeper, timers and the alarm. -/
def standing (s : State) : Pos × Bool × Timebase × Pins × ModeSt × Vector PortSt 32 × Keeper × Vector Timer 16 × Alarm :=
  (s.pos, s.frameDue, s.time, s.pins, s.modes, s.ports, s.keeper, s.timers, s.alarm)

theorem standing_parts {s u : State} (h : standing u = standing s) :
    u.pos = s.pos ∧ u.frameDue = s.frameDue ∧ u.time = s.time ∧ u.pins = s.pins ∧ u.modes = s.modes ∧ u.ports = s.ports ∧
      u.keeper = s.keeper ∧ u.timers = s.timers ∧ u.alarm = s.alarm := by
  simp only [standing, Prod.mk.injEq] at h
  exact h

/-- Which engines and dies have power. -/
def power (s : State) : EngCtl × EngCtl × Bool × Bool := (s.engX.ctl, s.engY.ctl, s.lda.powered, s.ldb.powered)

theorem power_parts {s u : State} (h : power u = power s) :
    (∀ e, (u.eng e).ctl = (s.eng e).ctl) ∧ ∀ d, (u.die d).powered = (s.die d).powered := by
  simp only [power, Prod.mk.injEq] at h
  obtain ⟨hx, hy, ha, hb⟩ := h
  exact ⟨fun e => by cases e <;> assumption, fun d => by cases d <;> assumption⟩

theorem standing_setEng (s : State) (e : Eng) (f : EngSt → EngSt) : standing (s.setEng e f) = standing s := by cases e <;> rfl

theorem standing_setData (s : State) (e : Eng) (f : EngData → EngData) : standing (s.setData e f) = standing s :=
  standing_setEng s e _

theorem standing_setCtl (s : State) (e : Eng) (f : EngCtl → EngCtl) : standing (s.setCtl e f) = standing s := standing_setEng s e _

theorem standing_setEngTally (s : State) (e : Eng) (f : EngTally → EngTally) : standing (s.setEngTally e f) = standing s :=
  standing_setEng s e _

theorem standing_setDie (s : State) (d : LineDie) (f : DieSt → DieSt) : standing (s.setDie d f) = standing s := by cases d <;> rfl

theorem power_setData (s : State) (e : Eng) (f : EngData → EngData) : power (s.setData e f) = power s := by cases e <;> rfl

theorem standing_setShadows (sh : Shadow) (s : State) : standing (setShadows sh s) = standing s :=
  forEach_same standing _ _ (fun e t => by split; exact standing_setData t e _; exact rfl) s

theorem power_setShadows (sh : Shadow) (s : State) : power (setShadows sh s) = power s :=
  forEach_same power _ _ (fun e t => by split; exact power_setData t e _; exact rfl) s

theorem standing_dropLoads (s : State) : standing (dropLoads s) = standing s := (standing_setShadows _ _).trans rfl

theorem power_dropLoads (s : State) : power (dropLoads s) = power s := (power_setShadows _ _).trans rfl

theorem standing_duplex (s : State) (d : Duplex) : standing { s with duplex := d } = standing s := rfl

theorem standing_enterRetention (s : State) : standing (enterRetention s) = standing s :=
  (standing_duplex _ _).trans (forEach_same standing engines _ (fun e t => by rw [standing_setEngTally, standing_setData, standing_setCtl]) s)

theorem standing_freshPairs (s : State) : standing (freshPairs s) = standing s :=
  (forEach_same standing engines _ (fun e t => standing_setData t e _) _).trans
    (Eq.trans rfl (forEach_same standing lineDies (fun d t => t.setDie d (fun x => { x with words := [] }))
      (fun d t => standing_setDie t d _) s))

theorem power_freshPairs (s : State) : power (freshPairs s) = power s :=
  (forEach_same power engines _ (fun e t => power_setData t e _) _).trans
    (Eq.trans rfl (forEach_same power lineDies (fun d t => t.setDie d (fun x => { x with words := [] }))
      (fun d t => by cases d <;> rfl) s))

theorem standing_mapPat (i : PatId) (f : PatSt → PatSt) (s : State) : standing (mapPat i f s) = standing s :=
  forEach_same standing engines _ (fun e t => standing_setData t e _) s

theorem power_mapPat (i : PatId) (f : PatSt → PatSt) (s : State) : power (mapPat i f s) = power s :=
  forEach_same power engines _ (fun e t => power_setData t e _) s

theorem standing_discardPatterns (s : State) : standing (discardPatterns s) = standing s :=
  forEach_same standing _ _ (fun i t => standing_mapPat i _ t) s

theorem power_discardPatterns (s : State) : power (discardPatterns s) = power s :=
  forEach_same power _ _ (fun i t => power_mapPat i _ t) s

theorem standing_dropChunks (s : State) : standing (dropChunks s) = standing s :=
  (forEach_same standing engines _ (fun e t => standing_setData t e _) _).trans rfl

theorem power_dropChunks (s : State) : power (dropChunks s) = power s :=
  (forEach_same power engines _ (fun e t => power_setData t e _) _).trans rfl

theorem standing_dropBursts (s : State) : standing (dropBursts s) = standing s := rfl

theorem power_dropBursts (s : State) : power (dropBursts s) = power s := rfl

theorem standing_unpower (e : Eng) (s : State) : standing (unpower e s) = standing s := by
  unfold unpower
  dsimp only
  split <;> cases e <;> rfl

theorem standing_unpowerEngines (s : State) : standing (unpowerEngines s) = standing s :=
  (standing_unpower .ey _).trans (standing_unpower .ex s)

theorem standing_transferNotices (s : State) : standing (transferNotices s) = standing s :=
  forEach_same standing engines _ (fun _ t => standing_duplex t _) s

theorem standing_powerEngines (s : State) : standing (powerEngines s) = standing s :=
  forEach_same standing engines _ (fun e t => by split; exact standing_setCtl t e _; exact rfl) s

/-! ### XIN stops -/

/-- What stopping the count leaves of the time base. -/
theorem stopCounting_spec (n : Nat) (s u : State) (hu : u = stopCounting n s) :
    u.time.counting = false ∧ u.time.stopAt = n ∧ (∀ p : Port, u.time.qualified[p] = false) ∧ u.time.refinQual = false ∧
      u.time.present = none ∧ u.pos = s.pos ∧ u.keeper = s.keeper ∧ u.ports = s.ports := by
  subst hu
  exact ⟨rfl, rfl, fun p => Vector.getElem_replicate _, rfl, rfl, rfl, rfl, rfl⟩

/-- Every port is dropped; position, time base, pins, timers and keeper stay. -/
theorem releaseAtOnce_all (s u : State) (hu : u = releaseAtOnce (fun _ => true) s) :
    (∀ p : Port, u.ports[p] = dropPort s.ports[p]) ∧ u.pos = s.pos ∧ u.time = s.time ∧ u.pins = s.pins ∧
      u.keeper = s.keeper ∧ u.timers = s.timers := by
  subst hu
  obtain ⟨-, honly⟩ := releaseAtOnce_only (fun _ => true) s
  have hport := fun p : Port => (releaseAtOnce_port (fun _ => true) s p).trans (if_pos rfl)
  generalize releaseAtOnce (fun _ => true) s = u at *
  exact ⟨hport, (congrArg State.pos honly).trans rfl, (congrArg State.time honly).trans rfl,
    (congrArg State.pins honly).trans rfl, (congrArg State.keeper honly).trans rfl, (congrArg State.timers honly).trans rfl⟩

/-- Every port is dropped and its receiver stopped; position, time base and keeper stay. -/
theorem stopReceivers_releaseAtOnce (s u : State) (hu : u = stopReceivers (releaseAtOnce (fun _ => true) s)) :
    (∀ p : Port, u.ports[p].released) ∧ u.pos = s.pos ∧ u.time = s.time ∧ u.keeper = s.keeper := by
  subst hu
  obtain ⟨hport, hp, ht, -, hk, -⟩ := releaseAtOnce_all s _ rfl
  generalize releaseAtOnce (fun _ => true) s = v at *
  refine ⟨fun p => ?_, (State.mapPorts_pos v _).trans hp, (State.mapPorts_time v _).trans ht, (State.mapPorts_keeper v _).trans hk⟩
  have hv : (stopReceivers v).ports[p] = stopReceiver v.ports[p] := State.mapPorts_get _ _ p
  rw [hv, hport p]
  exact (stopReceiver_dropPort_released _).1

theorem returnToMain_odometer (s : State) : (returnToMain s).keeper.odometer = s.keeper.odometer := by
  unfold returnToMain
  split <;> rfl

/-- REST is entered; position, time base, ports and keeper stay. -/
theorem enterRest_spec (s : State) :
    (enterRest s).modes.mode = .rest ∧ (enterRest s).pos = s.pos ∧ (enterRest s).time = s.time ∧ (enterRest s).ports = s.ports ∧
      (enterRest s).keeper = s.keeper := ⟨rfl, rfl, rfl, rfl, rfl⟩

/-- What the stop of XIN leaves of a state whose ports are released and whose count has stopped. -/
def xinHalted (s : State) : State :=
  stopStream (releaseReady (dropBursts (dropChunks
    (discardPatterns (freshPairs (enterRetention (dropLoads (enterRest (forgetSamples s)))))))))

theorem xinHalted_spec (s u : State) (hu : u = xinHalted s) :
    u.modes.mode = .rest ∧ u.pins.ready = false ∧ u.pos = s.pos ∧ u.time = s.time ∧ u.ports = s.ports ∧ u.keeper = s.keeper := by
  subst hu
  obtain ⟨hm, hp, ht, hpo, hk⟩ := enterRest_spec (forgetSamples s)
  unfold xinHalted
  have hst : ∀ v, standing (dropBursts (dropChunks (discardPatterns (freshPairs (enterRetention (dropLoads v)))))) = standing v :=
    fun v => by
      rw [standing_dropBursts, standing_dropChunks, standing_discardPatterns, standing_freshPairs, standing_enterRetention,
        standing_dropLoads]
  have hst := hst (enterRest (forgetSamples s))
  generalize enterRest (forgetSamples s) = v at *
  generalize dropBursts (dropChunks (discardPatterns (freshPairs (enterRetention (dropLoads v))))) = w at *
  obtain ⟨h1, -, h2, -, h3, h4, h5, -⟩ := standing_parts hst
  exact ⟨(congrArg ModeSt.mode h3).trans hm, rfl, h1.trans hp, h2.trans ht, h4.trans hpo, h5.trans hk⟩

/-- XIN stops: the end of the count, the release of the ports, and what stops with them. -/
theorem xinStops_spec {t : State} (hc : t.time.counting = true) (u : State) (hu : u = xinStops t) :
    u.time.counting = false ∧ u.time.stopAt = t.now + 1 ∧ u.pos = t.pos ∧
      (∀ p : Port, u.ports[p].released ∧ u.time.qualified[p] = false) ∧ u.time.refinQual = false ∧ u.time.present = none ∧
      u.modes.mode = .rest ∧ u.pins.ready = false ∧ u.alarm.on .xin = true ∧ u.keeper.odometer = t.keeper.odometer := by
  have ht : (settleTimers t).pos = t.pos ∧ (settleTimers t).keeper = t.keeper := by
    have h := settleTimers_timersOnly t
    exact ⟨(congrArg State.pos h).trans rfl, (congrArg State.keeper h).trans rfl⟩
  obtain ⟨h1, h2, h3, h4, h5, h6, h7, -⟩ := stopCounting_spec (t.now + 1) (settleTimers t) _ rfl
  unfold xinStops at hu
  rw [if_pos hc] at hu
  dsimp only at hu
  generalize stopCounting (t.now + 1) (settleTimers t) = a at *
  obtain ⟨hrel, hbp, hbt, hbk⟩ := stopReceivers_releaseAtOnce a _ rfl
  generalize stopReceivers (releaseAtOnce (fun _ => true) a) = b at *
  obtain ⟨hm, hr, hcp, hct, hcpo, hck⟩ := xinHalted_spec b _ rfl
  rw [show stopStream (releaseReady (dropBursts (dropChunks
    (discardPatterns (freshPairs (enterRetention (dropLoads (enterRest (forgetSamples b))))))))) = xinHalted b from rfl] at hu
  generalize xinHalted b = c at *
  subst hu
  have hod := returnToMain_odometer (State.raise { c with
    image := { c.image with wakePage := t.activePage }
    keeper := { c.keeper with
      xinStopped := true, reloading := c.keeper.phase == .done && c.pins.resetN
      phase := if c.keeper.phase == .done then .done else .waiting } } .xin)
  obtain ⟨kp, hret, -⟩ := returnToMain_spec (State.raise { c with
    image := { c.image with wakePage := t.activePage }
    keeper := { c.keeper with
      xinStopped := true, reloading := c.keeper.phase == .done && c.pins.resetN
      phase := if c.keeper.phase == .done then .done else .waiting } } .xin)
  have htime : c.time = a.time := hct.trans hbt
  refine ⟨?_, ?_, ?_, fun p => ⟨?_, ?_⟩, ?_, ?_, ?_, ?_, ?_, ?_⟩
  · rw [hret]; exact (congrArg Timebase.counting htime).trans h1
  · rw [hret]; exact (congrArg Timebase.stopAt htime).trans h2
  · rw [hret]; exact (hcp.trans hbp).trans (h6.trans ht.1)
  · rw [hret]; show c.ports[p].released; rw [hcpo]; exact hrel p
  · rw [hret]; show c.time.qualified[p] = false; rw [htime]; exact h3 p
  · rw [hret]; exact (congrArg Timebase.refinQual htime).trans h4
  · rw [hret]; exact (congrArg Timebase.present htime).trans h5
  · rw [hret]; exact hm
  · rw [hret]; exact hr
  · rw [hret]; exact Alarm.raise_on _ _ _
  · rw [hod]
    show c.keeper.odometer = _
    rw [hck, hbk, h7, ht.2]

/-! ### Counting resumes -/

theorem passLate_timersOnly (i : TimerId) (n : Nat) (s : State) : TimersOnly s (passLate i n s) :=
  forEach_rel .refl .trans _ _ (fun j t => by
    split
    · exact .setTimer t j _
    · exact .refl t) s

/-- The turn's mark of a timer event, and a pulse of the alarm. -/
theorem eventNoted_timersOnly {s v : State} (h : TimersOnly s v) (pulse : Bool) (now : Nat) :
    TimersOnly s (if pulse then
      { v with tally := { v.tally with timerTurn := true }, alarm := v.alarm.pulse now }
      else { v with tally := { v.tally with timerTurn := true } }) :=
  h.trans (by split <;> rfl)

theorem catchTimer_timersOnly (p tr : Nat) (i : TimerId) (x : State × List Nat) : TimersOnly x.1 (catchTimer p tr i x).1 := by
  obtain ⟨s, ev⟩ := x
  unfold catchTimer
  dsimp only
  split
  · generalize s.timers[i].advance _ _ _ = a
    obtain ⟨t1, m, w⟩ := a
    dsimp only
    by_cases h : m + w = 0
    · rw [if_pos h]; exact .setTimer s i _
    · rw [if_neg h]
      dsimp only
      refine TimersOnly.trans ?_ (passLate_timersOnly i (m + w) _)
      exact eventNoted_timersOnly (.setTimer s i _) _ _
  · exact .refl s

theorem catchUp_timersOnly (p tr : Nat) (s : State) : TimersOnly s (catchUp p tr s) := by
  have h : ∀ (l : List TimerId) (x : State × List Nat), TimersOnly x.1 (l.foldl (fun x i => catchTimer p tr i x) x).1 := by
    intro l
    induction l with
    | nil => exact fun x => .refl x.1
    | cons i l ih => exact fun x => (catchTimer_timersOnly p tr i x).trans (ih _)
  exact h all16 (s, [])

theorem resumeTimers_timersOnly (p tr : Nat) (s : State) : TimersOnly s (resumeTimers p tr s) :=
  (catchUp_timersOnly p tr s).trans (forEach_rel .refl .trans _ _ (fun i t => by
    unfold resumeTimer
    exact ((TimersOnly.setTimer t i _).trans (tickTimer_timersOnly s i _)).trans (.setTimer _ i _)) _)

/-- Selection keeps whether position is counted and EST, and where it finds no reference the mode. -/
theorem Timebase.select_spec (t : Timebase) :
    t.select.counting = t.counting ∧ t.select.est = t.est ∧
      (t.present = none → t.select.present = none → t.select.mode = t.mode) := by
  unfold Timebase.select Timebase.take
  dsimp only
  split
  · split
    · exact ⟨rfl, rfl, fun _ h => by cases h⟩
    · exact ⟨rfl, rfl, fun _ _ => rfl⟩
  next hp =>
    split
    · exact ⟨rfl, rfl, fun h => by cases hp.symm.trans h⟩
    · exact ⟨rfl, rfl, fun _ _ => rfl⟩

/-- Position, whether its frame boundary is due, the time base and the keeper's odometer. -/
def counted (s : State) : Pos × Bool × Timebase × BitVec 64 := (s.pos, s.frameDue, s.time, s.keeper.odometer)

theorem counted_parts {s u : State} (h : counted u = counted s) :
    u.pos = s.pos ∧ u.frameDue = s.frameDue ∧ u.time = s.time ∧ u.keeper.odometer = s.keeper.odometer := by
  simp only [counted, Prod.mk.injEq] at h
  exact h

theorem counted_of_standing {s u : State} (h : standing u = standing s) : counted u = counted s := by
  obtain ⟨h1, h2, h3, -, -, -, h4, -⟩ := standing_parts h
  unfold counted
  rw [h1, h2, h3, h4]

theorem counted_timersOnly {s u : State} (h : TimersOnly s u) : counted u = counted s := (congrArg counted h).trans rfl

theorem counted_resumeDies (s : State) : counted (resumeDies s) = counted s := by
  have h : ∀ f : LineDie → DieSt → DieSt, counted (forEach lineDies (fun d t => t.setDie d (f d)) s) = counted s := fun f =>
    forEach_same counted lineDies _ (fun d t => by cases d <;> rfl) s
  unfold resumeDies
  dsimp only
  split
  · exact Eq.trans rfl (h (fun _ x =>
      { x.restart with powered := true, lost := !s.keeper.coreOk, found := false, packetSeq := x.packetSeq, vPages := x.vPages }))
  · exact h (fun _ x =>
      { x.restart with powered := true, lost := !s.keeper.coreOk, found := false, packetSeq := x.packetSeq, vPages := x.vPages })

theorem counted_restartEngines (s : State) : counted (restartEngines s) = counted s := by
  have hp := counted_of_standing (standing_powerEngines s)
  unfold restartEngines
  split
  · rfl
  · generalize powerEngines s = v at *
    rw [← hp]
    unfold reloadWakePage
    split <;> rfl

/-- What resuming the count leaves of the time base. -/
theorem resumeCounting_spec (tr : Nat) (s u : State) (hu : u = resumeCounting tr (freshCounts s)) :
    u.pos = ⟨BitVec.ofNat 48 tr, 0, 0⟩ ∧ u.frameDue = true ∧ u.time.counting = true ∧ u.time.est = true ∧
      u.time.present = s.time.present ∧ u.time.mode = (if s.time.heldAtStop then .holdover else .freeRun) ∧
      u.keeper.odometer = s.keeper.odometer := by
  obtain ⟨-, -, ht, -, -, -, hk, -⟩ := standing_parts (standing_transferNotices s)
  have hf : (freshCounts s).time = s.time ∧ (freshCounts s).keeper = s.keeper := ⟨ht, hk⟩
  generalize freshCounts s = v at *
  subst hu
  unfold resumeCounting
  dsimp only
  rw [hf.1, hf.2]
  exact ⟨rfl, rfl, rfl, rfl, rfl, rfl, rfl⟩

/-- What follows the restart of the engines at the turn `tr` at which counting resumes. -/
def resumeEnds (xin : Bool) (tr : Nat) (s : State) : State :=
  let s4 := { s with
    keeper := { s.keeper with xinStopped := false, unitsDone := false }
    keys := { s.keys with sampleFrom := max s.keys.sampleFrom tr } }.lower .xin
  let s5 := if xin then updateReceivers s4 else lendAtTake (updateReceivers s4)
  if s5.keeper.phase = .waiting then s5 else startStream s5

theorem status_spec (s : State) (x : Status) :
    counted { s with status := x } = counted s ∧ ({ s with status := x } : State).alarm = s.alarm := ⟨rfl, rfl⟩

/-- The status stream starts, where a start has been recognised. -/
theorem streamStarts_spec (s : State) :
    counted (if s.keeper.phase = .waiting then s else startStream s) = counted s ∧
      (if s.keeper.phase = .waiting then s else startStream s).alarm = s.alarm := by
  split
  · exact ⟨rfl, rfl⟩
  · exact status_spec s _

theorem counted_updateReceivers (s : State) : counted (updateReceivers s) = counted s := by
  simp only [counted, updateReceivers, State.mapPorts]

theorem counted_lendAtTake (s : State) : counted (lendAtTake s) = counted s := by simp only [counted, lendAtTake]

/-- The receivers start and stop, and the host's lends stand as their requests do. -/
theorem receivers_spec (xin : Bool) (s : State) :
    counted (if xin then updateReceivers s else lendAtTake (updateReceivers s)) = counted s ∧
      (if xin then updateReceivers s else lendAtTake (updateReceivers s)).alarm = s.alarm := by
  cases xin
  · have ha : ∀ v : State, (lendAtTake v).alarm = v.alarm := fun v => by simp only [lendAtTake]
    exact ⟨(counted_lendAtTake _).trans (counted_updateReceivers s), (ha _).trans (State.mapPorts_alarm s _)⟩
  · exact ⟨counted_updateReceivers s, State.mapPorts_alarm s _⟩

theorem resumeEnds_spec (xin : Bool) (tr : Nat) (s : State) :
    counted (resumeEnds xin tr s) = counted s ∧ (resumeEnds xin tr s).alarm.on .xin = false := by
  have hv : ∀ v : State, v = State.lower { s with
      keeper := { s.keeper with xinStopped := false, unitsDone := false }
      keys := { s.keys with sampleFrom := max s.keys.sampleFrom tr } } .xin →
      counted v = counted s ∧ v.alarm.on .xin = false := fun v h => by
    subst h
    exact ⟨by simp only [counted, State.lower], Alarm.clear_on _ _⟩
  obtain ⟨hcv, hoff⟩ := hv _ rfl
  unfold resumeEnds
  dsimp only
  generalize State.lower _ .xin = v at *
  obtain ⟨hcr, har⟩ := receivers_spec xin v
  generalize (if xin then updateReceivers v else lendAtTake (updateReceivers v)) = w at *
  obtain ⟨hc, hal⟩ := streamStarts_spec w
  exact ⟨(hc.trans hcr).trans hcv, (congrArg (fun a : Alarm => a.on .xin) (hal.trans har)).trans hoff⟩

/-- Counting resumes: the count goes on, the timers catch up, the reference is selected, dies and engines restart. -/
theorem countingResumes_eq {n : Nat} {s : State} (h : canResume s = true) (a : State)
    (ha : a = resumeCounting (resumeTurn s.time.stopAt n) (freshCounts s)) :
    ∃ b, (b = a ∨ b = resumeTimers (s.time.stopAt + b2n a.keeper.unitsDone) (resumeTurn s.time.stopAt n) a) ∧
      countingResumes n s = resumeEnds s.keeper.xinStopped (resumeTurn s.time.stopAt n)
        (restartEngines (resumeDies { b with time := b.time.select })) := by
  subst ha
  unfold countingResumes
  rw [if_pos h]
  refine ⟨_, ?_, rfl⟩
  split
  · exact Or.inl rfl
  · exact Or.inr rfl

theorem countingResumes_counted {n : Nat} {s : State} (h : canResume s = true) (a : State)
    (ha : a = resumeCounting (resumeTurn s.time.stopAt n) (freshCounts s)) :
    counted (countingResumes n s) = (a.pos, a.frameDue, a.time.select, a.keeper.odometer) ∧
      (countingResumes n s).alarm.on .xin = false := by
  obtain ⟨b, hb, heq⟩ := countingResumes_eq h a ha
  have hcb : counted b = counted a := by
    rcases hb with rfl | hb
    · rfl
    · rw [hb]; exact counted_timersOnly (resumeTimers_timersOnly _ _ a)
  obtain ⟨h1, h2, h3, h4⟩ := counted_parts hcb
  obtain ⟨hc, hal⟩ := resumeEnds_spec s.keeper.xinStopped (resumeTurn s.time.stopAt n)
    (restartEngines (resumeDies { b with time := b.time.select }))
  rw [heq]
  refine ⟨hc.trans ((counted_restartEngines _).trans ((counted_resumeDies _).trans ?_)), hal⟩
  show (b.pos, b.frameDue, b.time.select, b.keeper.odometer) = _
  rw [h1, h2, h3, h4]

/-- Settles O53: XIN stops the count, and it resumes. -/
theorem countingStopsAndResumes : Obligations.CountingStopsAndResumes := by
  refine ⟨?_, fun n s => ⟨fun hc hp hd hw => ⟨_, rfl, ?_⟩, fun hc => next_of_eq (if_neg ?_)⟩⟩
  · rintro k s t rfl
    generalize ht : atTick k s = t
    have he : exec (.xinStopped k) s = .next (xinStops t) := next_of_eq (by rw [ht])
    refine ⟨fun hc => ⟨_, he, ?_⟩, fun hc => ?_⟩
    · obtain ⟨h1, h2, h3, h4, h5, h6, h7, h8, h9, h10⟩ := xinStops_spec hc _ rfl
      exact ⟨h1, h2, h3, h4, h5, h6, h7, h8, h9, h10, SameBytes.of_kept (kept_xinStops t)⟩
    · rw [he]
      unfold xinStops
      rw [if_neg (by rw [hc]; exact Bool.noConfusion)]
  · have hcan : canResume s = true := by unfold canResume; rw [hc, hp, hd, hw]; rfl
    obtain ⟨hcounted, halarm⟩ := countingResumes_counted (n := n) hcan _ rfl
    obtain ⟨hpos, hdue, hcnt, hest, hpres, hmode, hodo⟩ := resumeCounting_spec (resumeTurn s.time.stopAt n) s _ rfl
    generalize resumeCounting (resumeTurn s.time.stopAt n) (freshCounts s) = a at *
    obtain ⟨hsc, hse, hsm⟩ := a.time.select_spec
    have hkept := SameBytes.of_kept (kept_countingResumes n s)
    generalize countingResumes n s = u at *
    simp only [counted, Prod.mk.injEq] at hcounted
    obtain ⟨hup, huf, hut, huo⟩ := hcounted
    rw [hut]
    exact ⟨hsc.trans hcnt, hse.trans hest, hup.trans hpos, huf.trans hdue,
      fun h1 h2 => (hsm (hpres.trans h1) h2).trans hmode, halarm, huo.trans hodo, hkept⟩
  · unfold canResume
    rw [hc]
    exact Bool.noConfusion

/-! ### RESET_N -/

theorem Timebase.lose_counting (t : Timebase) : t.lose.counting = t.counting := by
  unfold Timebase.lose
  split
  · rfl
  · split <;> rfl

theorem dropPortReferences_counting (s : State) : (dropPortReferences s).time.counting = s.time.counting := by
  unfold dropPortReferences
  dsimp only
  split
  · exact Timebase.lose_counting _
  · rfl

/-- The wake from DOZE leaves position, time base, pins, timers, the odometer and the keeper's power state. -/
theorem wake_spec (s : State) :
    (wake s).pos = s.pos ∧ (wake s).time = s.time ∧ (wake s).pins = s.pins ∧ (wake s).timers = s.timers ∧
      (wake s).keeper.odometer = s.keeper.odometer ∧ (wake s).keeper.power = s.keeper.power := by
  have hl : ∀ v : State, v = (if s.ptime.listening then endListening s else s) →
      v.pos = s.pos ∧ v.time = s.time ∧ v.pins = s.pins ∧ v.timers = s.timers ∧ v.keeper = s.keeper := fun v hv => by
    subst hv
    split
    · unfold endListening
      dsimp only
      generalize dieOf s.fabric.port = d
      cases d <;> exact ⟨rfl, rfl, rfl, rfl, rfl⟩
    · exact ⟨rfl, rfl, rfl, rfl, rfl⟩
  have hl := hl _ rfl
  unfold wake
  split
  · dsimp only
    generalize (if s.ptime.listening then endListening s else s) = v at *
    obtain ⟨h1, h2, h3, h4, h5⟩ := hl
    exact ⟨h1, h2, h3, h4, (congrArg Keeper.odometer h5 : v.keeper.odometer = s.keeper.odometer),
      (congrArg Keeper.power h5 : v.keeper.power = s.keeper.power)⟩
  · exact ⟨rfl, rfl, rfl, rfl, rfl, rfl⟩

theorem unpowerEngines_powered (s : State) (e : Eng) : ((unpowerEngines s).eng e).ctl.powered = false := by
  have h : ∀ (e : Eng) (v : State), ((unpower e v).eng e).ctl.powered = false ∧
      ∀ x, (v.eng x).ctl.powered = false → ((unpower e v).eng x).ctl.powered = false := fun e v => by
    unfold unpower
    dsimp only
    split <;> cases e <;> exact ⟨rfl, fun x hx => by cases x <;> first | rfl | exact hx⟩
  cases e
  · exact (h .ey (unpower .ex s)).2 .ex (h .ex s).1
  · exact (h .ey (unpower .ex s)).1

theorem clearPort_dropPort (x : PortSt) :
    (clearPort (dropPort x)).released ∧ (clearPort (dropPort x)).framer.aligned = false := ⟨⟨rfl, rfl, rfl, rfl, rfl⟩, rfl⟩

/-- The ports and dies in reset. -/
def portsReset (s : State) : State :=
  forEach lineDies (fun d t => t.setDie d (fun x => x.restart))
    ((releaseAtOnce (fun _ => true) (dropPortReferences s)).mapPorts (fun _ x => clearPort x))

theorem portsReset_spec (s u : State) (hu : u = portsReset s) :
    (∀ p : Port, u.ports[p].released ∧ u.ports[p].framer.aligned = false) ∧ u.pos = s.pos ∧
      u.time.counting = s.time.counting ∧ u.pins = s.pins ∧ u.timers = s.timers ∧ u.keeper = s.keeper := by
  subst hu
  unfold portsReset
  have hd := dropPortReferences_counting s
  have hdo : dropPortReferences s = { s with time := (dropPortReferences s).time } := rfl
  generalize dropPortReferences s = v at *
  obtain ⟨hdrop, hwp, hwt, hwn, hwk, hwi⟩ := releaseAtOnce_all v _ rfl
  generalize releaseAtOnce (fun _ => true) v = w at *
  have hport : ∀ p : Port, (w.mapPorts (fun _ x => clearPort x)).ports[p] = clearPort (dropPort v.ports[p]) := fun p =>
    (State.mapPorts_get _ _ p).trans (congrArg clearPort (hdrop p))
  have hst := forEach_same standing lineDies (fun d t => t.setDie d (fun x => x.restart)) (fun d t => standing_setDie t d _)
    (w.mapPorts (fun _ x => clearPort x))
  generalize forEach lineDies (fun d t => t.setDie d (fun x => x.restart)) (w.mapPorts (fun _ x => clearPort x)) = u at *
  obtain ⟨h1, -, h2, h3, -, h4, h5, h6, -⟩ := standing_parts hst
  rw [State.mapPorts_pos] at h1
  rw [State.mapPorts_time] at h2
  rw [State.mapPorts_pins] at h3
  rw [State.mapPorts_keeper] at h5
  rw [State.mapPorts_timers] at h6
  have hv : v.pos = s.pos ∧ v.pins = s.pins ∧ v.keeper = s.keeper ∧ v.timers = s.timers := by
    rw [hdo]; exact ⟨rfl, rfl, rfl, rfl⟩
  obtain ⟨hvp, hvn, hvk, hvi⟩ := hv
  refine ⟨fun p => ?_, (h1.trans hwp).trans hvp, ?_, (h3.trans hwn).trans hvn, (h6.trans hwi).trans hvi, (h5.trans hwk).trans hvk⟩
  · rw [h4, hport p]; exact clearPort_dropPort _
  · exact (congrArg Timebase.counting (h2.trans hwt)).trans hd

/-- What is dropped and stopped by a reset, once the modes, the image and the keys are as it leaves them. -/
def resetDrops (s : State) : State :=
  lendAtTake (stopStream (releaseReady (discardPatterns (freshPairs (dropBursts (dropChunks s))))))

theorem resetDrops_spec (s u : State) (hu : u = resetDrops s) :
    u.pos = s.pos ∧ u.time = s.time ∧ u.pins = { s.pins with ready := false } ∧ u.modes = s.modes ∧ u.ports = s.ports ∧
      u.keeper = s.keeper ∧ u.timers = s.timers ∧ (∀ e, (u.eng e).ctl = (s.eng e).ctl) := by
  subst hu
  unfold resetDrops
  have hst : standing (discardPatterns (freshPairs (dropBursts (dropChunks s)))) = standing s := by
    rw [standing_discardPatterns, standing_freshPairs, standing_dropBursts, standing_dropChunks]
  have hpw : power (discardPatterns (freshPairs (dropBursts (dropChunks s)))) = power s := by
    rw [power_discardPatterns, power_freshPairs, power_dropBursts, power_dropChunks]
  generalize discardPatterns (freshPairs (dropBursts (dropChunks s))) = v at *
  obtain ⟨h1, -, h2, h3, h4, h5, h6, h7, -⟩ := standing_parts hst
  obtain ⟨hctl, -⟩ := power_parts hpw
  refine ⟨h1, h2, ?_, h4, h5, h6, h7, (fun | .ex => hctl .ex | .ey => hctl .ey)⟩
  show { v.pins with ready := false } = _
  rw [h3]

/-- Every timer stands cleared, with its flags and its count of events. -/
theorem clearTimers_timer (s : State) (i : TimerId) :
    (clearTimers s).timers[i] = { Timer.reset with match_ := s.timers[i].match_, ovf := s.timers[i].ovf, events := s.timers[i].events } :=
  Vector.getElem_map _ _

/-- The reset of the dies. -/
theorem resetDies_spec (s u : State) (hu : u = resetDies s) :
    u.pins = { s.pins with ready := false } ∧ (∀ p : Port, u.ports[p].released ∧ u.ports[p].framer.aligned = false) ∧
      (∀ e, (u.eng e).ctl.powered = false) ∧ u.modes.mode = .rest ∧
      (∀ i : TimerId, u.timers[i] =
        { Timer.reset with match_ := s.timers[i].match_, ovf := s.timers[i].ovf, events := s.timers[i].events }) ∧
      u.pos = s.pos ∧ u.time.counting = s.time.counting ∧ u.keeper.odometer = s.keeper.odometer ∧
      u.keeper.power = s.keeper.power := by
  obtain ⟨hports, hpos, hcnt, hpins, htim, hkp⟩ := portsReset_spec s _ rfl
  rw [show resetDies s = resetDrops (let s4 := enterRest (dropLoads (clearTimers (unpowerEngines (portsReset s))))
    { s4 with
      image := { s4.image with heldPage := none }
      keys := { s4.keys with live := s4.keys.live.map (fun k => { k.forget with accepted := none }) }
      keeper := { s4.keeper with
        phase := .waiting, reloading := false, dozeReq := false
        startKind := if s4.keeper.phase = .done then .reset else s4.keeper.startKind } }) from rfl] at hu
  generalize portsReset s = a at *
  have hst := standing_unpowerEngines a
  have hoff := unpowerEngines_powered a
  generalize unpowerEngines a = b at *
  obtain ⟨h1, -, h2, h3, -, h4, h5, h6, -⟩ := standing_parts hst
  have htc := clearTimers_timer b
  have hcs : (clearTimers b).pos = b.pos ∧ (clearTimers b).time = b.time ∧ (clearTimers b).pins = b.pins ∧
    (clearTimers b).ports = b.ports ∧ (clearTimers b).keeper = b.keeper ∧ ∀ e, ((clearTimers b).eng e).ctl = (b.eng e).ctl :=
    ⟨rfl, rfl, rfl, rfl, rfl, fun e => by cases e <;> rfl⟩
  generalize clearTimers b = c at *
  have hst2 := standing_dropLoads c
  obtain ⟨hctl2, -⟩ := power_parts (power_dropLoads c)
  generalize dropLoads c = d at *
  obtain ⟨g1, -, g2, g3, -, g4, g5, g6, -⟩ := standing_parts hst2
  obtain ⟨c1, c2, c3, c4, c5, c6⟩ := hcs
  obtain ⟨f1, f2, f3, f4, f5, f6, f7, f8⟩ := resetDrops_spec _ u hu
  have hkeep : d.keeper = s.keeper := (g5.trans c5).trans (h5.trans hkp)
  refine ⟨?_, fun p => ?_, fun e => ?_, (congrArg ModeSt.mode f4).trans rfl, fun i => ?_,
    (f1.trans g1).trans ((c1.trans h1).trans hpos), ?_, ?_, ?_⟩
  · rw [f3]
    show { d.pins with ready := false } = _
    rw [g3, c3, h3, hpins]
  · rw [f5]
    show d.ports[p].released ∧ _
    have hp : d.ports = a.ports := g4.trans (c4.trans h4)
    exact ⟨by rw [hp]; exact (hports p).1, (congrArg (fun v : Vector PortSt 32 => v[p].framer.aligned) hp).trans (hports p).2⟩
  · refine (congrArg EngCtl.powered (f8 e)).trans (Eq.trans ?_ (hoff e))
    rw [← c6 e, ← hctl2 e]
    cases e <;> rfl
  · rw [f7]
    show d.timers[i] = _
    rw [g6, htc i, h6, htim]
  · refine (congrArg Timebase.counting f2).trans ?_
    exact (congrArg Timebase.counting ((g2.trans c2).trans h2)).trans hcnt
  · rw [f6]
    show d.keeper.odometer = _
    rw [hkeep]
  · rw [f6]
    show d.keeper.power = _
    rw [hkeep]

/-- Settles O54: RESET_N resets the dies while the machine runs in MAIN, and elsewhere changes its level alone. -/
theorem resetIsAsserted : Obligations.ResetAsserted := by
  rintro k s t rfl
  generalize ht : atTick k s = t
  have he : exec (.resetNAssert k) s = .next (resetAsserted t) := next_of_eq (by rw [ht])
  refine ⟨fun hp hw => ⟨_, he, ?_⟩, fun h => ?_⟩
  · have hk := SameBytes.of_kept (kept_resetAsserted t)
    have heq : resetAsserted t = resetDies (wake { t with pins := { t.pins with resetN := false } }) := by
      unfold resetAsserted
      rw [hp, hw]; rfl
    rw [heq] at hk ⊢
    obtain ⟨w1, w2, w3, w4, w5, w6⟩ := wake_spec { t with pins := { t.pins with resetN := false } }
    generalize wake { t with pins := { t.pins with resetN := false } } = v at *
    obtain ⟨h1, h2, h3, h4, h5, h6, h7, h8, h9⟩ := resetDies_spec v _ rfl
    have hn : (resetDies v).pins.resetN = false := by rw [h1, w3]
    have hr : (resetDies v).pins.ready = false := by rw [h1]
    have hclaim : ∀ e, ((resetDies v).eng e).ctl.claim = 0 := fun e => EngCtl.claim_of_not_powered (h3 e)
    have hlow : (resetDies v).alarmLow = false := by
      unfold State.alarmLow State.ballsOn
      rw [h9, w6]
      show ((match t.keeper.power with | .main => _ | .ride | .last => _ | .dark => _) && _) = false
      rw [hp]
      show (((resetDies v).pins.resetN && _) && _) = false
      rw [hn]; rfl
    refine ⟨hn, hr, hlow, h2, fun e => ⟨h3 e, hclaim e⟩, h4, fun i => ?_, h6.trans w1, h7.trans (congrArg Timebase.counting w2),
      h8.trans w5, hk⟩
    rw [h5 i, w4]
    exact ⟨rfl, rfl, rfl, rfl, rfl⟩
  · rw [he]
    unfold resetAsserted
    dsimp only
    rw [if_pos]
    rcases h with h | h
    · rw [bne_iff_ne.mpr h]; rfl
    · rw [h, Bool.or_true]

end Sys2Proof.Machine
end

section
/-! SUPPORT. What the end of a frame and of a turn leaves of the hinges. -/

namespace Sys2Proof.Machine

/-- The hinges of all ports. -/
def hinges (s : State) : Vector Hinge 32 := s.ports.map (fun x => x.hinge)

theorem hinges_get {s u : State} (h : hinges u = hinges s) (p : Port) : u.ports[p].hinge = s.ports[p].hinge := by
  have hp := congrArg (fun v : Vector Hinge 32 => v[p]) h
  simpa only [hinges, Fin.getElem_fin, Vector.getElem_map] using hp

theorem hinges_of_ports {s u : State} (h : u.ports = s.ports) : hinges u = hinges s := by unfold hinges; rw [h]

theorem hinges_of_each {s u : State} (h : ∀ p : Port, u.ports[p].hinge = s.ports[p].hinge) : hinges u = hinges s := by
  unfold hinges
  refine Vector.ext fun i hi => ?_
  simp only [Vector.getElem_map]
  exact h ⟨i, hi⟩

theorem hinges_setPort (s : State) (p : Port) (f : PortSt → PortSt) (h : ∀ x, (f x).hinge = x.hinge) :
    hinges (s.setPort p f) = hinges s := by
  refine hinges_of_each fun q => ?_
  by_cases hq : q = p
  · subst hq; rw [State.setPort_port]; exact h _
  · rw [State.setPort_get_ne s f hq]

theorem hinges_mapPorts (s : State) (f : Port → PortSt → PortSt) (h : ∀ p x, (f p x).hinge = x.hinge) :
    hinges (s.mapPorts f) = hinges s :=
  hinges_of_each fun p => (congrArg PortSt.hinge (State.mapPorts_get s f p)).trans (h p _)

theorem hinges_timersOnly {s u : State} (h : TimersOnly s u) : hinges u = hinges s :=
  hinges_of_ports ((congrArg State.ports h).trans rfl)

theorem hinges_ticked {s u : State} (h : Ticked s u) : hinges u = hinges s := by
  refine hinges_of_each fun p => ?_
  rcases h.port p with hp | ⟨-, hp⟩ <;> rw [hp]

/-! ### The engines' work of a frame leaves the ports -/

theorem foldl_snd_same {α β γ : Type} (g : State → γ) (f : β × State → α → β × State) (h : ∀ acc a, g (f acc a).2 = g acc.2)
    (l : List α) (acc : β × State) : g (l.foldl f acc).2 = g acc.2 := by
  induction l generalizing acc with
  | nil => rfl
  | cons a l ih => exact (ih _).trans (h acc a)

theorem hinges_setEng (s : State) (e : Eng) (f : EngSt → EngSt) : hinges (s.setEng e f) = hinges s := by cases e <;> rfl

theorem hinges_setData (s : State) (e : Eng) (f : EngData → EngData) : hinges (s.setData e f) = hinges s := hinges_setEng s e _

theorem hinges_setCtl (s : State) (e : Eng) (f : EngCtl → EngCtl) : hinges (s.setCtl e f) = hinges s := hinges_setEng s e _

theorem hinges_setEngTally (s : State) (e : Eng) (f : EngTally → EngTally) : hinges (s.setEngTally e f) = hinges s :=
  hinges_setEng s e _

theorem hinges_setDie (s : State) (d : LineDie) (f : DieSt → DieSt) : hinges (s.setDie d f) = hinges s := by cases d <;> rfl

theorem hinges_duplex (s : State) (d : Duplex) : hinges { s with duplex := d } = hinges s := rfl

theorem hinges_runGenerators (e : Eng) (p : Port) (cas0 : Bool) (s : State) :
    hinges (runGenerators e p cas0 s).2 = hinges s := by
  refine foldl_snd_same hinges _ (fun acc i => ?_) _ ([], s)
  dsimp only
  split
  · exact hinges_setData acc.2 e _
  · rfl

theorem hinges_generateAll (e : Eng) (q : Nat) (s : State) : hinges (generateAll e q s).2 = hinges s := by
  unfold generateAll
  split
  · refine foldl_snd_same hinges _ (fun acc p => ?_) _ ([], s)
    dsimp only
    split
    · have hr := hinges_runGenerators e p ((q + 2) % 16 == 0) acc.2
      generalize runGenerators e p ((q + 2) % 16 == 0) acc.2 = r at *
      exact hr
    · rfl
  · rfl

theorem hinges_endOutputs (e : Eng) (f : Port → Bool) (s : State) : hinges (endOutputs e f s) = hinges s :=
  forEach_same hinges lineDies _ (fun d t => hinges_setDie t d _) s

theorem hinges_outputStage (e : Eng) (q : Nat) (bits : Port → List (Nat × Nat × Bool)) (s : State) :
    hinges (outputStage e q bits s) = hinges s := by
  have hif : ∀ (b : Bool) (t : State), hinges (if b then t else t.setCtl e (fun c => { c with lateNow := true })) = hinges t :=
    fun b t => by split; exact rfl; exact hinges_setCtl t e _
  unfold outputStage
  split
  · dsimp only
    refine (forEach_same hinges _ _ (fun c t => hinges_ticked (Ticked.sprayDown _ e c t)) _).trans ?_
    refine (hinges_endOutputs e _ _).trans ((hinges_setData _ e _).trans ((hif _ _).trans ?_))
    exact forEach_same hinges _ _ (fun c t => hinges_ticked (Ticked.countCopy e .late 1 c t)) s
  · exact (hinges_endOutputs e _ _).trans (hinges_setData s e _)

theorem hinges_runAnalysers (e : Eng) (q : Nat) (s : State) : hinges (runAnalysers e q s) = hinges s := by
  unfold runAnalysers
  split
  · refine forEach_same hinges _ _ (fun i t => ?_) s
    split
    · exact hinges_setData t e _
    · rfl
  · rfl

theorem hinges_engineFrame (e : Eng) (q : Nat) (s : State) : hinges (engineFrame e q s) = hinges s :=
  (hinges_runAnalysers e q _).trans ((hinges_outputStage e q _ _).trans (hinges_generateAll e q s))

theorem hinges_outputStages (q : Nat) (s : State) : hinges (outputStages q s) = hinges s :=
  forEach_same hinges engines _ (fun e t => hinges_engineFrame e q t) s

theorem hinges_captureFrame (q : Nat) (s : State) : hinges (captureFrame q s) = hinges s := by
  unfold captureFrame
  split
  · exact forEach_same hinges engines _ (fun e t => hinges_setData t e _) s
  · rfl

theorem hinges_latchPages (s : State) : hinges (latchPages s) = hinges s :=
  forEach_same hinges engines _ (fun e t => hinges_setData t e _) s

theorem hinges_pairFrames (s : State) : hinges (pairFrames s) = hinges s := by
  have hframes : hinges (forEach engines (fun e t => if (t.eng e).ctl.running then forEach all16 (pairFrame e) t else t) s) = hinges s := by
    refine forEach_same hinges engines _ (fun e t => ?_) s
    split
    · refine forEach_same hinges all16 _ (fun g t => ?_) t
      unfold pairFrame
      split
      · exact hinges_setData t e _
      · rfl
    · rfl
  have hend : ∀ t, hinges (endPairFrame t) = hinges t := fun t =>
    forEach_same hinges all16 _ (fun g t => hinges_of_ports (State.setPair_ports t g _)) t
  unfold pairFrames
  split
  · rfl
  · dsimp only
    split
    · exact (hinges_duplex _ _).trans ((hend _).trans hframes)
    · exact (hend _).trans hframes

theorem hinges_settlePatterns (s : State) : hinges (settlePatterns s) = hinges s := by
  refine forEach_same hinges all16 _ (fun i t => ?_) s
  split
  · exact forEach_same hinges engines _ (fun e t => hinges_setData t e _) t
  · rfl

/-! ### Latches and culprits -/

theorem hinges_setLatch (s : State) (p : Port) (f : Latch → Latch) : hinges (s.setLatch p f) = hinges s :=
  hinges_setPort s p _ (fun _ => rfl)

theorem hinges_noteMissing (p : Port) (q : BitVec 16) (s : State) : hinges (noteMissing p q s) = hinges s := by
  refine forEach_same hinges engines _ (fun e t => ?_) s
  split
  · exact hinges_setCtl t e _
  · rfl

theorem hinges_latchFrame (q : BitVec 16) (keep : List (BitVec 16)) (p : Port) (s : State) :
    hinges (latchFrame q keep p s) = hinges s := by
  have hn := hinges_noteMissing p q s
  unfold latchFrame
  dsimp only
  generalize noteMissing p q s = v at *
  rw [← hn]
  split
  · exact hinges_setLatch v p _
  · exact (hinges_duplex _ _).trans ((hinges_setEngTally _ _ _).trans ((hinges_setCtl _ _ _).trans (hinges_setLatch v p _)))
  · split
    · exact (hinges_duplex _ _).trans ((hinges_setLatch _ p _).trans (hinges_setLatch v p _))
    · exact hinges_setLatch v p _

theorem hinges_latchFrames (n : Nat) (s : State) : hinges (latchFrames n s) = hinges s := by
  refine (hinges_of_ports (State.setAlarm_ports _ _ _)).trans ?_
  refine forEach_same hinges allPorts _ (fun p t => ?_) s
  refine Eq.trans ?_ (hinges_latchFrame (seqOf (n - 2)) [seqOf (n - 2), seqOf (n - 1), seqOf n] p t)
  unfold endLatchAis
  dsimp only
  split
  · exact hinges_setLatch _ p _
  · rfl

theorem hinges_lowerHealth (e : Eng) (n : Nat) (c : Cause) (s : State) : hinges (lowerHealth e n c s) = hinges s := by
  have hf : hinges (noteFall e c s) = hinges s := by
    unfold noteFall
    split <;> rfl
  unfold lowerHealth
  split
  · exact (hinges_setEngTally _ e _).trans ((hinges_setCtl _ e _).trans hf)
  · rfl

theorem hinges_actOn (v : Verdict) (s : State) : hinges (actOn v s) = hinges s := by
  unfold actOn
  dsimp only
  (repeat' split)
  all_goals first
    | rfl
    | exact hinges_lowerHealth _ _ _ s

theorem hinges_assignCulprits (s : State) : hinges (assignCulprits s) = hinges s := by
  unfold assignCulprits
  dsimp only
  refine (hinges_duplex _ _).trans ?_
  refine (forEach_same hinges engines _ (fun e t => hinges_setCtl t e _) _).trans ?_
  refine (forEach_same hinges _ _ (fun v t => hinges_actOn v t) _).trans ?_
  refine (forEach_same hinges _ _ (fun e t => hinges_setEngTally t e _) _).trans ?_
  refine forEach_same hinges _ _ (fun v t => ?_) s
  split
  · exact hinges_setEngTally t _ _
  · rfl

theorem hinges_endEngFrames (s : State) : hinges (endEngFrames s) = hinges s := by
  unfold endEngFrames
  dsimp only
  refine (forEach_same hinges lineDies _ (fun d t => forEach_same hinges engines _ (fun e u => hinges_setDie u d _) t) _).trans ?_
  exact forEach_same hinges engines _ (fun e t => (hinges_setEngTally _ e _).trans (hinges_setCtl t e _)) s

/-! ### The ends of a frame and of a turn -/

theorem slipRead_hinge (b : Nat) (x : PortSt) : (slipRead b x).hinge = x.hinge := by
  unfold slipRead
  (repeat' split) <;> rfl

theorem hinges_readPorts (b : Nat) (s : State) : hinges (readPorts b s) = hinges s :=
  hinges_mapPorts s _ (fun _ x => slipRead_hinge b x)

theorem hinges_frameEnd (s : State) : hinges (frameEnd s) = hinges s := by
  unfold frameEnd
  dsimp only
  rw [show ∀ t, hinges (endLendFrames t) = hinges t from fun _ => rfl, hinges_latchPages, hinges_pairFrames, hinges_endEngFrames,
    hinges_assignCulprits, hinges_latchFrames, hinges_readPorts, hinges_captureFrame, hinges_outputStages,
    hinges_timersOnly (settleTimers_timersOnly _), hinges_ticked (Ticked.atTick _ s)]

theorem hinges_fabricTick (s : State) : hinges (fabricTick s) = hinges s :=
  hinges_ticked (((((Ticked.stopDrives s).trans (.beatsDue _)).trans (.linksTick _)).trans (.xbarTick .ex _)).trans (.xbarTick .ey _))

theorem hinges_noteLimits (s : State) : hinges (noteLimits s) = hinges s :=
  hinges_mapPorts s _ (fun _ x => by split <;> rfl)

theorem hinges_endTurn (s : State) : hinges (endTurn s) = hinges s := by
  have hcount : ∀ t, hinges (countTurn t) = hinges t := fun t => by unfold countTurn; split <;> rfl
  have hwrap : ∀ t, hinges (noteWrap t) = hinges t := fun t => by unfold noteWrap; split <;> rfl
  have hpos : ∀ (t : State) (p : Pos), hinges { t with pos := p } = hinges t := fun _ _ => rfl
  unfold endTurn
  dsimp only
  rw [hcount, hwrap, hinges_fabricTick, hpos, hinges_settlePatterns, hinges_frameEnd, hinges_noteLimits]

/-! ### Position at the end of a frame and of a turn -/

/-- The end of a turn: position, the odometer, and what else goes with position. -/
theorem endTurn_spec (s : State) :
    (endTurn s).pos = ⟨s.pos.t + 1, 0, 0⟩ ∧ (endTurn s).time.counting = s.time.counting ∧
      (endTurn s).keeper.power = s.keeper.power ∧ (endTurn s).keeper.coldDue = s.keeper.coldDue ∧
      (endTurn s).tally.seq = s.tally.seq ∧
      (endTurn s).keeper.odometer =
        if s.keeper.power = .main ∧ s.keeper.dozing = false then s.keeper.odometer + 1 else s.keeper.odometer := by
  obtain ⟨j, hj⟩ := clock_frameEnd (noteLimits s)
  have hn := clock_noteLimits s
  unfold endTurn
  dsimp only
  have h1 := (clock_settlePatterns (frameEnd (noteLimits s))).trans hj
  generalize settlePatterns (frameEnd (noteLimits s)) = a at *
  have hb := (clock_noteWrap (fabricTick { a with pos := a.pos.nextTurn })).trans (clock_fabricTick _)
  generalize noteWrap (fabricTick { a with pos := a.pos.nextTurn }) = b at *
  simp only [clock, Prod.mk.injEq] at hn h1 hb
  obtain ⟨n1, n2, -, n4, n5, n6, n7, -, n9⟩ := hn
  obtain ⟨a1, a2, -, a4, a5, a6, a7, -, a9⟩ := h1
  obtain ⟨b1, b2, -, b4, b5, b6, b7, -, b9⟩ := hb
  have hpos : b.pos = ⟨s.pos.t + 1, 0, 0⟩ := by rw [b1, Pos.nextTurn, a1, n1]
  have hpow := b4.trans (a4.trans n4)
  have hdoze := b6.trans (a6.trans n6)
  have hodo := b5.trans (a5.trans n5)
  unfold countTurn
  rw [hpow, hdoze]
  simp only [Bool.not_eq_true']
  split
  · exact ⟨hpos, b2.trans (a2.trans n2), hpow, b7.trans (a7.trans n7), b9.trans (a9.trans n9), congrArg (· + 1) hodo⟩
  · exact ⟨hpos, b2.trans (a2.trans n2), hpow, b7.trans (a7.trans n7), b9.trans (a9.trans n9), hodo⟩

end Sys2Proof.Machine
end

section
/-! SUPPORT. DOZE (R148, R469 to R471). -/

namespace Sys2Proof.Machine

/-! ### Power taken from engines and dies -/

theorem unpowerPort_spec (x : PortSt) : (unpowerPort x).hinge = x.hinge ∧ (unpowerPort x).line.tx = .hiZ := ⟨rfl, rfl⟩

/-- Both dies are off, each transmitter high-impedance and each hinge as it was; nothing but the ports and the dies changes. -/
theorem unpowerDies_spec (s u : State) (hu : u = unpowerDies s) :
    (∀ d, (u.die d).powered = false) ∧ (∀ p : Port, u.ports[p].hinge = s.ports[p].hinge ∧ u.ports[p].line.tx = .hiZ) ∧
      u = { s with ports := u.ports, lda := u.lda, ldb := u.ldb } := by
  subst hu
  have hd : forEach lineDies (fun d t => t.setDie d (fun x => { x.restart with powered := false, lost := false, found := false })) s =
      { s with
        lda := { s.lda.restart with powered := false, lost := false, found := false }
        ldb := { s.ldb.restart with powered := false, lost := false, found := false } } := rfl
  unfold unpowerDies
  rw [hd]
  refine ⟨fun d => by cases d <;> rfl, fun p => ?_, rfl⟩
  rw [show ∀ v : State, (v.mapPorts (fun _ x => unpowerPort x)).ports[p] = unpowerPort v.ports[p] from
    fun v => State.mapPorts_get v _ p]
  exact unpowerPort_spec _

/-- What entering DOZE drops once the power is off. -/
def dozeDrops (s : State) : State :=
  stopStream (releaseReady (discardPatterns (freshPairs (dropBursts (dropChunks s)))))

theorem dozeDrops_spec (s u : State) (hu : u = dozeDrops s) :
    u.pos = s.pos ∧ u.time = s.time ∧ u.pins.ready = false ∧ u.ports = s.ports ∧
      (∀ e, (u.eng e).ctl = (s.eng e).ctl) ∧ (∀ d, (u.die d).powered = (s.die d).powered) := by
  subst hu
  unfold dozeDrops
  have hst : standing (discardPatterns (freshPairs (dropBursts (dropChunks s)))) = standing s := by
    rw [standing_discardPatterns, standing_freshPairs, standing_dropBursts, standing_dropChunks]
  have hpw : power (discardPatterns (freshPairs (dropBursts (dropChunks s)))) = power s := by
    rw [power_discardPatterns, power_freshPairs, power_dropBursts, power_dropChunks]
  generalize discardPatterns (freshPairs (dropBursts (dropChunks s))) = v at *
  obtain ⟨h1, -, h2, -, -, h5, -⟩ := standing_parts hst
  obtain ⟨hctl, hdie⟩ := power_parts hpw
  exact ⟨h1, h2, rfl, h5, (fun | .ex => hctl .ex | .ey => hctl .ey), (fun | .lda => hdie .lda | .ldb => hdie .ldb)⟩

/-- What the entry to DOZE leaves. -/
def DozeLeft (s u : State) : Prop :=
  u.keeper.dozing = true ∧ u.time.counting = false ∧ u.pins.ready = false ∧ (∀ e, (u.eng e).ctl.powered = false) ∧
    (∀ d, (u.die d).powered = false) ∧ (∀ p : Port, u.ports[p].hinge = s.ports[p].hinge) ∧ u.time.stopAt = s.now ∧ u.pos = s.pos

theorem enterDoze_spec (s : State) : DozeLeft s (enterDoze s) := by
  have ha : ∀ a : State, a = stopCounting s.now { s with keys := { s.keys with live := s.keys.live.map (fun k => k.forget) } } →
      a.time.counting = false ∧ a.time.stopAt = s.now ∧ a.pos = s.pos ∧ a.ports = s.ports := fun a h => by
    subst h; exact ⟨rfl, rfl, rfl, rfl⟩
  have ha := ha _ rfl
  unfold enterDoze
  dsimp only
  generalize stopCounting s.now { s with keys := { s.keys with live := s.keys.live.map (fun k => k.forget) } } = a at *
  obtain ⟨a1, a2, a3, a4⟩ := ha
  have hb := (standing_unpowerEngines (dropLoads a)).trans (standing_dropLoads a)
  have hoff := unpowerEngines_powered (dropLoads a)
  generalize unpowerEngines (dropLoads a) = b at *
  obtain ⟨b1, -, b2, -, -, b3, -⟩ := standing_parts hb
  obtain ⟨hdies, hports, honly⟩ := unpowerDies_spec b _ rfl
  generalize unpowerDies b = c at *
  have hc : c.pos = b.pos ∧ c.time = b.time ∧ ∀ e, (c.eng e).ctl = (b.eng e).ctl := by
    rw [honly]; exact ⟨rfl, rfl, fun e => by cases e <;> rfl⟩
  obtain ⟨c1, c2, c3⟩ := hc
  obtain ⟨d1, d2, d3, d4, d5, d6⟩ := dozeDrops_spec c _ rfl
  rw [show stopStream (releaseReady (discardPatterns (freshPairs (dropBursts (dropChunks c))))) = dozeDrops c from rfl]
  generalize dozeDrops c = d at *
  have htime : d.time = a.time := d2.trans (c2.trans b2)
  refine ⟨rfl, (congrArg Timebase.counting htime).trans a1, d3, fun e => ?_, fun x => ?_, fun p => ?_,
    (congrArg Timebase.stopAt htime).trans a2, d1.trans (c1.trans (b1.trans a3))⟩
  · have hp : (d.eng e).ctl.powered = false := by rw [d5 e, c3 e]; exact hoff e
    cases e <;> exact hp
  · have hp : (d.die x).powered = false := by rw [d6 x]; exact hdies x
    cases x <;> exact hp
  · show d.ports[p].hinge = _
    rw [d4, (hports p).1, b3, a4]

/-! ### O55 -/

theorem hinges_frameUnits (s : State) : TimersOnly s (frameUnits s) :=
  forEach_rel .refl .trans all16 _ (fun i t => by
    split
    · exact unit_timersOnly t i 1
    · exact .refl t) s

/-- The state at whose boundary DOZE is entered, where the request stood before it. -/
theorem atBoundary_spec (s : State) :
    (transferNotices (frameUnits s)).pos = s.pos ∧
      ∀ p : Port, (transferNotices (frameUnits s)).ports[p].hinge = s.ports[p].hinge := by
  obtain ⟨h1, -, -, -, -, h2, -⟩ := standing_parts (standing_transferNotices (frameUnits s))
  have ht := hinges_frameUnits s
  refine ⟨h1.trans ((congrArg State.pos ht).trans rfl), fun p => ?_⟩
  rw [h2]
  exact hinges_get (hinges_timersOnly ht) p

/-- The turn that DOZE entry ends. -/
theorem atTurnEnd_spec (o : TurnObs) (s : State) :
    (lastTurn o (transferNotices (endTurn s))).pos = ⟨s.pos.t + 1, 0, 0⟩ ∧
      ∀ p : Port, (lastTurn o (transferNotices (endTurn s))).ports[p].hinge = s.ports[p].hinge := by
  have hl : ∀ t : State, (lastTurn o t).pos = t.pos ∧ (lastTurn o t).ports = t.ports := fun t => by
    unfold lastTurn krefTurn
    dsimp only
    exact ⟨State.setAlarm_pos _ _ _, State.setAlarm_ports _ _ _⟩
  obtain ⟨l1, l2⟩ := hl (transferNotices (endTurn s))
  obtain ⟨h1, -, -, -, -, h2, -⟩ := standing_parts (standing_transferNotices (endTurn s))
  refine ⟨l1.trans (h1.trans (endTurn_spec s).1), fun p => ?_⟩
  rw [l2, h2]
  exact hinges_get (hinges_endTurn s) p

/-- The page key's request is held, and nothing else changes. -/
theorem holdPageKey_dozeLeft {s u : State} (old : Option (BitVec 4)) (h : DozeLeft s u) : DozeLeft s (holdPageKey old u) := by
  unfold holdPageKey
  split
  · exact h
  · exact h

/-- Every port is bypassed with nothing in progress. -/
theorem allBypassed_iff (s : State) :
    allBypassed s = true ↔ ∀ p : Port, s.ports[p].hinge.role = .bypassed ∧ s.ports[p].hinge.seq = .idle := by
  simp only [allBypassed, List.all_eq_true, Bool.and_eq_true, beq_iff_eq]
  exact ⟨fun h p => h p (mem_allPorts p), fun h p _ => h p⟩

theorem canDoze_iff (s : State) :
    canDoze s = true ↔ s.pins.doze = true ∧ s.keeper.phase = .done ∧ s.keeper.power = .main ∧ s.pins.resetN = true ∧
      s.time.counting = true ∧ ∀ p : Port, s.ports[p].hinge.role = .bypassed ∧ s.ports[p].hinge.seq = .idle := by
  unfold canDoze dozeActs
  simp only [Bool.and_eq_true, allBypassed_iff, beq_iff_eq, and_assoc]

/-- The wake from DOZE keeps the hinges and position, and its event is noted. -/
theorem wake_of_dozing {s : State} (h : s.keeper.dozing = true) :
    (wake s).keeper.dozing = false ∧ (wake s).keeper.events = setBit s.keeper.events 4 true ∧
      ∀ p : Port, (wake s).ports[p].hinge = s.ports[p].hinge := by
  have hl : ∀ v : State, v = (if s.ptime.listening then endListening s else s) → v.keeper = s.keeper ∧ hinges v = hinges s :=
    fun v hv => by
      subst hv
      split
      · unfold endListening
        dsimp only
        refine ⟨by generalize dieOf s.fabric.port = d; cases d <;> rfl, ?_⟩
        refine Eq.trans ?_ ((hinges_setPort _ s.fabric.port stopReceiver (fun _ => rfl)).trans
          (hinges_setDie s (dieOf s.fabric.port) (fun d => { d with powered := false })))
        rfl
      · exact ⟨rfl, rfl⟩
  obtain ⟨hk, hh⟩ := hl _ rfl
  unfold wake
  rw [if_pos h]
  dsimp only
  generalize (if s.ptime.listening then endListening s else s) = v at *
  refine ⟨rfl, ?_, fun p => hinges_get (u := v) hh p⟩
  show setBit v.keeper.events 4 true = _
  rw [hk]

/-- Settles O55: DOZE is requested, entered and left. -/
theorem dozeEnteredAndLeft : Obligations.DozeEnteredAndLeft := by
  refine ⟨fun k s t ht => ?_, fun o s => ⟨fun hd hph hpw hrn hc hby hdue => ⟨_, rfl, ?_⟩, fun h => ?_, fun h => ?_⟩,
    fun s => ⟨fun hd => ?_, fun hd => ?_⟩⟩
  · subst ht; rfl
  · have hcan := (canDoze_iff s).mpr ⟨hd, hph, hpw, hrn, hc, hby⟩
    have hk := SameBytes.of_kept (kept_dozeEntered o s)
    by_cases hat : s.frameDue = true ∧ s.pos.f = 0 ∧ s.pos.k = 0
    · obtain ⟨h1, h2, h3⟩ := hat
      have heq : dozeEntered o s =
          { enterDoze (transferNotices (frameUnits s)) with
            keeper := { (enterDoze (transferNotices (frameUnits s))).keeper with unitsDone := true } } := by
        unfold dozeEntered
        rw [if_pos hcan, if_pos (by rw [h1, h2, h3]; rfl), if_pos (hdue h1 h2 h3)]
      obtain ⟨hp, hh⟩ := atBoundary_spec s
      obtain ⟨e1, e2, e3, e4, e5, e6, e7, e8⟩ := enterDoze_spec (transferNotices (frameUnits s))
      rw [heq] at hk ⊢
      generalize enterDoze (transferNotices (frameUnits s)) = u at *
      refine ⟨e1, e2, e3, (fun | .ex => e4 .ex | .ey => e4 .ey), (fun | .lda => e5 .lda | .ldb => e5 .ldb),
        fun p => (e6 p).trans (hh p), e7.trans ?_, ?_, hk⟩
      · show _ = u.pos.ticks
        rw [e8]; rfl
      · rw [if_pos ⟨h1, h2, h3⟩]
        exact e8.trans hp
    · have heq : dozeEntered o s = holdPageKey (s.level 1) (enterDoze (lastTurn o (transferNotices (endTurn s)))) := by
        unfold dozeEntered
        rw [if_pos hcan, if_neg]
        simp only [Bool.and_eq_true, beq_iff_eq, and_assoc]
        exact hat
      obtain ⟨hp, hh⟩ := atTurnEnd_spec o s
      obtain ⟨e1, e2, e3, e4, e5, e6, e7, e8⟩ := holdPageKey_dozeLeft (s.level 1) (enterDoze_spec (lastTurn o (transferNotices (endTurn s))))
      rw [heq] at hk ⊢
      generalize holdPageKey (s.level 1) (enterDoze (lastTurn o (transferNotices (endTurn s)))) = u at *
      refine ⟨e1, e2, e3, e4, e5, fun p => (e6 p).trans (hh p), e7.trans ?_, ?_, hk⟩
      · show _ = u.pos.ticks
        rw [e8]; rfl
      · rw [if_neg hat]
        exact e8.trans hp
  · obtain ⟨h1, h2, h3, h4⟩ := h
    refine next_of_eq ?_
    unfold dozeEntered
    split
    · rw [if_pos (by rw [h1, h2, h3]; rfl)]
      exact if_neg (by rw [h4]; exact Bool.noConfusion)
    · rfl
  · refine next_of_eq ?_
    unfold dozeEntered
    rw [if_neg]
    rw [canDoze_iff]
    rintro ⟨hd, hph, hpw, hrn, hc, hby⟩
    rcases h with h | h | h | h | h | ⟨p, h | h⟩
    · rw [hd] at h; cases h
    · exact h hph
    · exact h hpw
    · rw [hrn] at h; cases h
    · rw [hc] at h; cases h
    · exact h (hby p).1
    · exact h (hby p).2
  · refine ⟨_, rfl, ?_⟩
    have hk := SameBytes.of_kept (kept_dozeFalls s)
    unfold dozeFalls at hk ⊢
    dsimp only at hk ⊢
    have hs : ∀ v : State, v = { s with pins := { s.pins with doze := false }, keeper := { s.keeper with dozeReq := false } } →
        v.keeper.dozing = true ∧ v.pos = s.pos ∧ v.time = s.time ∧ v.pins.doze = false ∧ v.keeper.events = s.keeper.events ∧
          v.ports = s.ports := fun v hv => by subst hv; exact ⟨hd, rfl, rfl, rfl, rfl, rfl⟩
    obtain ⟨v1, v2, v3, v4, v5, v6⟩ := hs _ rfl
    generalize ({ s with pins := { s.pins with doze := false }, keeper := { s.keeper with dozeReq := false } } : State) = v at *
    obtain ⟨w1, w2, w3, -⟩ := wake_spec v
    obtain ⟨x1, x2, x3⟩ := wake_of_dozing v1
    exact ⟨x1, (congrArg Pins.doze w3).trans v4, x2.trans (by rw [v5]), w1.trans v2, w2.trans v3,
      fun p => (x3 p).trans (by rw [v6]), hk⟩
  · refine next_of_eq ?_
    unfold dozeFalls wake
    exact if_neg (by rw [hd]; exact Bool.noConfusion)

end Sys2Proof.Machine
end

section
/-! SUPPORT. Starts and the validation of the image (R66, R70, R74, R113 to R116, R467). -/

namespace Sys2Proof.Machine

/-! ### The dies leave reset -/

theorem canStart_iff (s : State) :
    canStart s = true ↔ s.keeper.phase = .waiting ∧ s.keeper.power = .main ∧ s.keeper.coreOk = true ∧ s.keeper.vlineOk = true ∧
      (s.time.counting = true ∨ s.keeper.coldWait = true) := by
  unfold canStart
  simp only [Bool.and_eq_true, Bool.or_eq_true, beq_iff_eq, and_assoc]

/-- A start counts: position is counted, or a cold start begins to count where it stands. -/
theorem beginCounting_spec (s u : State) (hu : u = beginCounting s) (h : s.time.counting = true ∨ s.keeper.coldWait = true) :
    u.time.counting = true ∧ u.pos = s.pos ∧ u.pins = s.pins ∧ u.keys = s.keys := by
  subst hu
  unfold beginCounting
  split
  · exact ⟨rfl, rfl, rfl, rfl⟩
  next hc => exact ⟨h.resolve_right hc, rfl, rfl, rfl⟩

theorem keys_unpowerEngines (s : State) : (unpowerEngines s).keys = s.keys := by
  have h : ∀ (e : Eng) (v : State), (unpower e v).keys = v.keys := fun e v => by
    unfold unpower
    dsimp only
    split <;> cases e <;> rfl
  exact (h .ey (unpower .ex s)).trans (h .ex s)

/-- Both dies have power; nothing but the dies and the alarm changes. -/
theorem powerDies_spec (s : State) :
    ∃ a b al, powerDies s = { s with lda := a, ldb := b, alarm := al } ∧ a.powered = true ∧ b.powered = true := by
  have h : forEach lineDies (fun d t => t.setDie d (fun x =>
      { x.restart with powered := true, lost := !s.keeper.coreOk, found := false })) s =
      { s with
        lda := { s.lda.restart with powered := true, lost := !s.keeper.coreOk, found := false }
        ldb := { s.ldb.restart with powered := true, lost := !s.keeper.coreOk, found := false } } := rfl
  unfold powerDies
  dsimp only
  rw [h]
  split
  · exact ⟨_, _, _, rfl, rfl, rfl⟩
  · exact ⟨_, _, _, rfl, rfl, rfl⟩

/-- Dies and engines at recognition: REST is entered, the timers are cleared, the engines are off and the dies on. -/
def startPower (s : State) : State := powerDies (unpowerEngines (clearTimers (enterRest s)))

theorem startPower_spec (s u : State) (hu : u = startPower s) :
    u.pos = s.pos ∧ u.time = s.time ∧ u.pins = s.pins ∧ u.keys = s.keys ∧ u.modes.mode = .rest ∧
      (∀ d, (u.die d).powered = true) ∧ ∀ e, (u.eng e).ctl.powered = false := by
  subst hu
  unfold startPower
  have hr : (clearTimers (enterRest s)).pos = s.pos ∧ (clearTimers (enterRest s)).time = s.time ∧
      (clearTimers (enterRest s)).pins = s.pins ∧ (clearTimers (enterRest s)).keys = s.keys ∧
      (clearTimers (enterRest s)).modes.mode = .rest := ⟨rfl, rfl, rfl, rfl, rfl⟩
  generalize clearTimers (enterRest s) = a at *
  obtain ⟨a1, a2, a3, a4, a5⟩ := hr
  obtain ⟨b1, -, b2, b3, b4, -⟩ := standing_parts (standing_unpowerEngines a)
  have hk := keys_unpowerEngines a
  have hoff := unpowerEngines_powered a
  generalize unpowerEngines a = b at *
  obtain ⟨x, y, al, hp, hx, hy⟩ := powerDies_spec b
  rw [hp]
  exact ⟨b1.trans a1, b2.trans a2, b3.trans a3, hk.trans a4, (congrArg ModeSt.mode b4).trans a5,
    (fun | .lda => hx | .ldb => hy), (fun | .ex => hoff .ex | .ey => hoff .ey)⟩

/-! ### The keys are sampled -/

theorem State.mapPorts_family (s : State) (f : Port → PortSt → PortSt) (g : Port → BitVec 4)
    (h : ∀ p x, (f p x).line.family = g p) (p : Port) : (s.mapPorts f).ports[p].line.family = g p := by
  have hp : (s.mapPorts f).ports[p] = f p s.ports[p] := State.mapPorts_get s f p
  rw [hp]
  exact h p _

theorem State.mapPorts_family_same (s : State) (f : Port → PortSt → PortSt)
    (h : ∀ p x, (f p x).line.family = x.line.family) (p : Port) :
    (s.mapPorts f).ports[p].line.family = s.ports[p].line.family := by
  have hp : (s.mapPorts f).ports[p] = f p s.ports[p] := State.mapPorts_get s f p
  rw [hp]
  exact h p _

/-- Keys and ports of a state in which the boot keys are sampled. -/
theorem sampledBoot_spec (s : State) (k : Keys) (u : State)
    (hu : u = ({ s with keys := k } : State).mapPorts (fun p x =>
      { x with line := { x.line with
          family := bootFamily (groupLevel { s with keys := k } p), lbo := 0, monitor := 0, cas := false, robbed := false } })) :
    u = { s with keys := k, ports := u.ports } ∧ ∀ p : Port, u.ports[p].line.family = bootFamily (groupLevel { s with keys := k } p) := by
  subst hu
  exact ⟨rfl, State.mapPorts_family _ _ _ (fun _ _ => rfl)⟩

/-- The boot keys take their levels, and every port the family of its group. -/
theorem sampleBoot_spec (o : StartObs) (s : State) :
    ∃ k v, sampleBoot o s = { s with keys := k, ports := v } ∧
      (∀ i : Fin 8, k.boot[i] = bootLevel o (s.keys.ranges.toList.getD i.val .m8) i) ∧
      ∀ p : Port, v[p].line.family = bootFamily (groupLevel { s with keys := k } p) := by
  obtain ⟨k, hk, hboot⟩ : ∃ k : Keys, sampleBoot o s = ({ s with keys := k } : State).mapPorts (fun p x =>
      { x with line := { x.line with
          family := bootFamily (groupLevel { s with keys := k } p), lbo := 0, monitor := 0, cas := false, robbed := false } }) ∧
      ∀ i : Fin 8, k.boot[i] = bootLevel o (s.keys.ranges.toList.getD i.val .m8) i :=
    ⟨_, rfl, fun i => Vector.getElem_ofFn _⟩
  obtain ⟨honly, hfam⟩ := sampledBoot_spec s k _ hk
  exact ⟨k, (sampleBoot o s).ports, honly, hboot, hfam⟩

/-- A reader's range, looked up in the list of all. -/
theorem ranges_getD (v : Vector Range 12) (i : Fin 8) : v.toList.getD i.val .m8 = v[i.val] := by
  simp only [List.getD_eq_getElem?_getD, Vector.getElem?_toList]
  rw [Vector.getElem?_eq_getElem (by omega)]
  rfl

/-- Ports, keys and keeper of a state in which a start is recognised. -/
def startCleared (t0 : Nat) (s : State) : State :=
  let s3 := s.mapPorts (fun _ x => { clearPort x with hinge := { x.hinge with waiting := false } })
  { s3 with
    keys := { s3.keys with live := s3.keys.live.map (fun k => k.held), sampleFrom := t0 }
    time := { s3.time with newRefLevel := some (bootActing 4 s3.keys.boot[(4 : Fin 8)]) }
    modes := { s3.modes with cmd := 0 }
    tally := { s3.tally with filter := 0, filterChanged := s3.tally.filterChanged || s3.tally.filter != 0 }
    capture := { s3.capture with gate := true }
    keeper := { s3.keeper with phase := .validating, t0 := t0, reloading := false, dozeReq := false } }

theorem held_value (v : Vector LiveKey 4) (i : Fin 4) : (v.map (fun k : LiveKey => k.held))[i].value = none := by
  simp only [Fin.getElem_fin, Vector.getElem_map, LiveKey.held]

theorem startCleared_spec (t0 : Nat) (s u : State) (hu : u = startCleared t0 s) :
    u.keeper.phase = .validating ∧ u.keeper.t0 = t0 ∧ u.pins = s.pins ∧ u.time.counting = s.time.counting ∧ u.pos = s.pos ∧
      u.keys.boot = s.keys.boot ∧ (∀ i : Fin 4, u.keys.live[i].value = none) ∧ u.modes.mode = s.modes.mode ∧
      u.capture.gate = true ∧ (∀ p : Port, u.ports[p].line.family = s.ports[p].line.family) ∧
      (∀ d, u.die d = s.die d) ∧ ∀ e, u.eng e = s.eng e := by
  subst hu
  have hv : ∀ p : Port, (s.mapPorts (fun _ x => { clearPort x with hinge := { x.hinge with waiting := false } })).ports[p].line.family =
      s.ports[p].line.family := State.mapPorts_family_same s _ (fun _ _ => rfl)
  obtain ⟨v, hm⟩ : ∃ v, s.mapPorts (fun _ x => { clearPort x with hinge := { x.hinge with waiting := false } }) =
      { s with ports := v } := ⟨_, rfl⟩
  unfold startCleared
  rw [hm] at hv ⊢
  dsimp only at hv ⊢
  exact ⟨rfl, rfl, rfl, rfl, rfl, rfl, held_value s.keys.live, rfl, rfl, hv, fun d => by cases d <;> rfl, fun e => by cases e <;> rfl⟩

/-- What follows in the engines and the pairs. -/
def startFresh (s : State) : State :=
  freshPairs ((forEach engines (fun e t => t.setCtl e (fun c => { c with leftOff := false, lost := false, cycles := 0 })) s).lower
    .engineOff)

theorem startFresh_spec (s : State) :
    ∃ a b x y g al, startFresh s = { s with lda := a, ldb := b, engX := x, engY := y, pairs := g, alarm := al } ∧
      a.powered = s.lda.powered ∧ b.powered = s.ldb.powered ∧ x.ctl.powered = s.engX.ctl.powered ∧
      y.ctl.powered = s.engY.ctl.powered := by
  have hf : ∀ v : State, ∃ a b x y g, freshPairs v = { v with lda := a, ldb := b, engX := x, engY := y, pairs := g } ∧
      a.powered = v.lda.powered ∧ b.powered = v.ldb.powered ∧ x.ctl = v.engX.ctl ∧ y.ctl = v.engY.ctl := fun v =>
    ⟨_, _, _, _, _, rfl, rfl, rfl, rfl, rfl⟩
  have hc : forEach engines (fun e t => t.setCtl e (fun c => { c with leftOff := false, lost := false, cycles := 0 })) s =
      { s with
        engX := { s.engX with ctl := { s.engX.ctl with leftOff := false, lost := false, cycles := 0 } }
        engY := { s.engY with ctl := { s.engY.ctl with leftOff := false, lost := false, cycles := 0 } } } := rfl
  unfold startFresh
  rw [hc]
  obtain ⟨a, b, x, y, g, he, ha, hb, hx, hy⟩ := hf (State.lower { s with
        engX := { s.engX with ctl := { s.engX.ctl with leftOff := false, lost := false, cycles := 0 } }
        engY := { s.engY with ctl := { s.engY.ctl with leftOff := false, lost := false, cycles := 0 } } } .engineOff)
  exact ⟨a, b, x, y, g, _, he, ha, hb, by rw [hx]; rfl, by rw [hy]; rfl⟩

/-! ### The image, the partner channel and the receivers -/

theorem runReceiver_family (on : Bool) (x : PortSt) : (runReceiver on x).line.family = x.line.family := by
  unfold runReceiver
  (repeat' split) <;> rfl

/-- The partner channel, the image and the receivers at recognition, and the status stream at a boundary. -/
def startEnds (again : Bool) (o : StartObs) (s : State) : State :=
  let s7 := updateReceivers (lendAtTake (imageAlarm (startImage o (startPartner again s))))
  if s7.pos.f = 0 ∧ s7.pos.k = 0 then startStream s7 else s7

theorem startEnds_spec (again : Bool) (o : StartObs) (s : State) :
    ∃ p q im al mx v st, startEnds again o s =
        { s with partner := p, ptime := q, image := im, alarm := al, matrix := mx, ports := v, status := st } ∧
      im.sfdpOk = o.sfdpOk ∧ im.readA = o.readA ∧ im.readB = o.readB ∧ im.inUse = none ∧
      ∀ p : Port, v[p].line.family = s.ports[p].line.family := by
  have hs : ∀ v : State, ∃ st, (if v.pos.f = 0 ∧ v.pos.k = 0 then startStream v else v) = { v with status := st } := fun v => by
    split
    · exact ⟨_, rfl⟩
    · exact ⟨v.status, rfl⟩
  have hr : ∀ v : State, ∃ po, updateReceivers v = { v with ports := po } ∧
      ∀ p : Port, po[p].line.family = v.ports[p].line.family := fun v =>
    ⟨(v.mapPorts (fun p x => runReceiver (receiverRuns v p) x)).ports, rfl,
      State.mapPorts_family_same v _ (fun _ _ => runReceiver_family _ _)⟩
  have hl : ∀ v : State, ∃ mx, lendAtTake v = { v with matrix := mx } := fun v => ⟨_, rfl⟩
  have hi : ∀ v : State, ∃ im, startImage o v = { v with image := im } ∧ im.sfdpOk = o.sfdpOk ∧ im.readA = o.readA ∧
      im.readB = o.readB ∧ im.inUse = none := fun v => ⟨_, rfl, rfl, rfl, rfl, rfl⟩
  have hp : ∃ p q, startPartner again s = { s with partner := p, ptime := q } := ⟨_, _, rfl⟩
  unfold startEnds
  dsimp only
  obtain ⟨p, q, hp⟩ := hp
  rw [hp]
  obtain ⟨im, hi, i1, i2, i3, i4⟩ := hi { s with partner := p, ptime := q }
  rw [hi]
  obtain ⟨al, ha⟩ := imageAlarm_eq { s with partner := p, ptime := q, image := im }
  rw [ha]
  obtain ⟨mx, hl⟩ := hl { s with partner := p, ptime := q, image := im, alarm := al }
  rw [hl]
  obtain ⟨po, hr, hfam⟩ := hr { s with partner := p, ptime := q, image := im, alarm := al, matrix := mx }
  rw [hr]
  obtain ⟨st, hs⟩ := hs { s with partner := p, ptime := q, image := im, alarm := al, matrix := mx, ports := po }
  rw [hs]
  exact ⟨p, q, im, al, mx, po, st, rfl, i1, i2, i3, i4, hfam⟩

/-- A start that is recognised, step by step. -/
theorem startRecognised_eq {o : StartObs} {s : State} (h : canStart s = true) (a : State)
    (ha : a = beginCounting { s with pins := { s.pins with resetN := true, ready := false } }) :
    startRecognised o s =
      startEnds s.pins.resetN o (startFresh (startCleared (startTurn a) (sampleBoot o (startPower a)))) := by
  subst ha
  unfold startRecognised
  rw [if_pos h]
  rfl

/-- What a start that is recognised leaves. -/
theorem startRecognised_spec {o : StartObs} {t : State} (h : canStart t = true) (u : State) (hu : u = startRecognised o t) :
    u.keeper.phase = .validating ∧ u.keeper.t0 = startTurn t ∧
      u.pins.resetN = true ∧ u.time.counting = true ∧ u.pos = t.pos ∧
      (∀ i : Fin 8, u.keys.boot[i] = bootLevel o t.keys.ranges[i.val] i) ∧
      (∀ p : Port, u.ports[p].line.family = bootFamily (groupLevel u p)) ∧
      (∀ i : Fin 4, u.keys.live[i].value = none) ∧
      u.image.sfdpOk = o.sfdpOk ∧ u.image.readA = o.readA ∧ u.image.readB = o.readB ∧
      (∀ d, (u.die d).powered = true) ∧ (∀ e, (u.eng e).ctl.powered = false) ∧ u.modes.mode = .rest ∧
      u.image.inUse = none ∧ u.capture.gate = true := by
  obtain ⟨-, -, -, -, hcount⟩ := (canStart_iff t).mp h
  subst hu
  rw [startRecognised_eq h _ rfl]
  obtain ⟨a1, a2, a3, a4⟩ := beginCounting_spec { t with pins := { t.pins with resetN := true, ready := false } } _ rfl hcount
  generalize beginCounting { t with pins := { t.pins with resetN := true, ready := false } } = a at *
  have ht0 : startTurn a = startTurn t := by unfold startTurn; rw [a2]
  obtain ⟨b1, b2, b3, b4, b5, b6, b7⟩ := startPower_spec a _ rfl
  generalize startPower a = b at *
  obtain ⟨k, v, hc, hk, hv⟩ := sampleBoot_spec o b
  rw [hc]
  obtain ⟨c1, c2, c3, c4, c5, c6, c7, c8, c9, c10, c11, c12⟩ := startCleared_spec (startTurn a) { b with keys := k, ports := v } _ rfl
  generalize startCleared (startTurn a) { b with keys := k, ports := v } = c at *
  obtain ⟨da, db, ex, ey, g, al, hd, d1, d2, d3, d4⟩ := startFresh_spec c
  rw [hd]
  obtain ⟨p, q, im, al', mx, po, st, he, e1, e2, e3, e4, e5⟩ := startEnds_spec t.pins.resetN o
    { c with lda := da, ldb := db, engX := ex, engY := ey, pairs := g, alarm := al }
  rw [he]
  have hdie : ∀ d, (c.die d).powered = true := fun d => by rw [c11 d]; cases d; exact b6 .lda; exact b6 .ldb
  have heng : ∀ e, (c.eng e).ctl.powered = false := fun e => by rw [c12 e]; cases e; exact b7 .ex; exact b7 .ey
  refine ⟨c1, c2.trans ht0, (congrArg Pins.resetN (c3.trans (b3.trans a3))).trans rfl, c4.trans ((congrArg Timebase.counting b2).trans a1),
    c5.trans (b1.trans a2), fun i => ?_, fun p => ?_, c7, e1, e2, e3, fun d => ?_, fun e => ?_, c8.trans b5, e4, c9⟩
  · show c.keys.boot[i] = _
    rw [c6]
    refine (hk i).trans ?_
    rw [ranges_getD, b4, a4]
  · refine (e5 p).trans ((c10 p).trans ((hv p).trans (congrArg bootFamily ?_)))
    unfold groupLevel
    dsimp only
    rw [c6]
  · cases d
    · exact d1.trans (hdie .lda)
    · exact d2.trans (hdie .ldb)
  · cases e
    · exact d3.trans (heng .ex)
    · exact d4.trans (heng .ey)

/-! ### Validation -/

/-- The image with what its copies show. -/
def Image.judged (im : Image) (first : Copy) : Image :=
  { im with
    aValid := im.finds .a, bValid := im.finds .b
    inUse := if (match first with | .a => im.finds .a | .b => im.finds .b) then some first
      else if (match first.other with | .a => im.finds .a | .b => im.finds .b) then some first.other else none }

/-- A bit of the image status that is set, or not. -/
theorem flagged_status {s t : State} {im : Image} (on : Bool) (x : ImageBit)
    (h : ∃ st, t = { s with image := { im with status := st } }) :
    ∃ st, (if on then t.flagImage x else t) = { s with image := { im with status := st } } := by
  obtain ⟨st, rfl⟩ := h
  split
  · exact ⟨_, rfl⟩
  · exact ⟨st, rfl⟩

theorem validate_spec (s : State) :
    ∃ st, validate s =
      { s with image := { s.image.judged (imgFirst (bootActing 5 s.keys.boot[(5 : Fin 8)])) with status := st } } := by
  unfold validate
  dsimp only
  exact flagged_status _ _ (flagged_status _ _ (flagged_status _ _ (flagged_status _ _ (flagged_status _ _ ⟨s.image.status, rfl⟩))))

/-- The copy in use is the first valid one. -/
theorem Image.judged_inUse (im : Image) (first : Copy) :
    (im.judged first).inUse = if (im.judged first).valid first then some first
      else if (im.judged first).valid first.other then some first.other else none := by
  cases first <;> rfl

theorem Image.valid_status (im : Image) (st : BitVec 8) (l : Option Load) (c : Copy) :
    ({ im with status := st, load := l } : Image).valid c = im.valid c := by cases c <;> rfl

theorem setShadows_only (sh : Shadow) (s : State) :
    setShadows sh s = { s with engX := (setShadows sh s).engX, engY := (setShadows sh s).engY } := by
  refine forEach_rel (R := fun s u : State => u = { s with engX := u.engX, engY := u.engY }) (fun _ => rfl)
    (fun a b => by rw [b, a]) engines _ (fun e t => ?_) s
  split
  · cases e <;> rfl
  · rfl

/-- Page 0 of the copy in use is loaded, and nothing else but the engines changes. -/
theorem loadPageZero_spec (s : State) :
    ∃ x y l, loadPageZero s = { s with engX := x, engY := y, image := { s.image with load := l } } ∧
      ∀ c, s.image.inUse = some c → l = some ⟨0, c, false, true⟩ := by
  unfold loadPageZero
  split
  next c hc =>
    have h := setShadows_only .empty { s with image := { s.image with load := some ⟨0, c, false, true⟩ } }
    exact ⟨_, _, _, h, fun c' hc' => by cases hc.symm.trans hc'; rfl⟩
  next hc => exact ⟨s.engX, s.engY, s.image.load, rfl, fun c' hc' => by cases hc.symm.trans hc'⟩

theorem openPartner_spec (s : State) : ∃ p q k, openPartner s = { s with partner := p, ptime := q, keys := k } := by
  unfold openPartner
  split
  · exact ⟨s.partner, s.ptime, s.keys, rfl⟩
  · split
    · exact ⟨_, _, s.keys, rfl⟩
    · exact ⟨s.partner, s.ptime, _, rfl⟩

/-- In a cold start the next record takes its number from the ring (R422). -/
def numberFromRing (s : State) : State :=
  if s.keeper.coldDue then { s with tally := { s.tally with seq := BitVec.ofNat 32 ((scanRing s).1.getD 0) } } else s

theorem numberFromRing_only (s : State) : ∃ tl, numberFromRing s = { s with tally := tl } := by
  unfold numberFromRing
  split
  · exact ⟨_, rfl⟩
  · exact ⟨s.tally, rfl⟩

theorem validated_eq {s : State} (h : s.keeper.phase = .validating) (v : State)
    (hv : v = loadPageZero (openPartner (applyProfiles (validate s)))) :
    validated s = updateReceivers (numberFromRing (imageAlarm { v with keeper := { v.keeper with phase := .validated } })) := by
  subst hv
  unfold validated
  rw [if_pos h]
  rfl

/-- What the end of validation leaves. -/
theorem validated_spec {t : State} (h : t.keeper.phase = .validating) (u : State) (hu : u = validated t) :
    u.keeper.phase = .validated ∧
      u.image.aValid = (t.image.sfdpOk && t.image.readA && copyValid t.image.flash .a) ∧
      u.image.bValid = (t.image.sfdpOk && t.image.readB && copyValid t.image.flash .b) ∧
      (∀ c, c = imgFirst (bootActing 5 t.keys.boot[(5 : Fin 8)]) →
        u.image.inUse = (if u.image.valid c then some c else if u.image.valid c.other then some c.other else none)) ∧
      (∀ c, u.image.inUse = some c → u.image.load = some ⟨0, c, false, true⟩) ∧ u.pos = t.pos ∧ u.timers = t.timers ∧
      u.modes = t.modes := by
  have hports : ∀ v : State, ∃ po, applyProfiles v = { v with ports := po } := fun v => ⟨_, rfl⟩
  have hrec : ∀ v : State, ∃ po, updateReceivers v = { v with ports := po } := fun v => ⟨_, rfl⟩
  subst hu
  rw [validated_eq h _ rfl]
  have hin := t.image.judged_inUse (imgFirst (bootActing 5 t.keys.boot[(5 : Fin 8)]))
  have ha : (t.image.judged (imgFirst (bootActing 5 t.keys.boot[(5 : Fin 8)]))).aValid = t.image.finds .a := rfl
  have hb : (t.image.judged (imgFirst (bootActing 5 t.keys.boot[(5 : Fin 8)]))).bValid = t.image.finds .b := rfl
  obtain ⟨st, h1⟩ := validate_spec t
  generalize t.image.judged (imgFirst (bootActing 5 t.keys.boot[(5 : Fin 8)])) = im at *
  obtain ⟨po, h2⟩ := hports (validate t)
  obtain ⟨p, q, k, h3⟩ := openPartner_spec (applyProfiles (validate t))
  obtain ⟨x, y, l, h4, hl⟩ := loadPageZero_spec (openPartner (applyProfiles (validate t)))
  generalize loadPageZero (openPartner (applyProfiles (validate t))) = v at *
  have hl' : ∀ c, im.inUse = some c → l = some ⟨0, c, false, true⟩ := fun c hc => hl c (by rw [h3, h2, h1]; exact hc)
  have hv : v = { t with
      image := { im with status := st, load := l }, ports := po, partner := p, ptime := q, keys := k, engX := x, engY := y } := by
    rw [h4, h3, h2, h1]
  obtain ⟨al, h5⟩ := imageAlarm_eq { v with keeper := { v.keeper with phase := .validated } }
  rw [h5]
  obtain ⟨tl, h6⟩ := numberFromRing_only { v with keeper := { v.keeper with phase := .validated }, alarm := al }
  rw [h6]
  obtain ⟨po', h7⟩ := hrec { v with keeper := { v.keeper with phase := .validated }, alarm := al, tally := tl }
  rw [h7, hv]
  refine ⟨rfl, ha, hb, fun c hc => ?_, hl', rfl, rfl, rfl⟩
  subst hc
  dsimp only
  rw [Image.valid_status, Image.valid_status]
  exact hin

/-- Settles O56: a start is recognised, and the image validated. -/
theorem startsAndValidation : Obligations.StartsAndValidation := by
  rintro k s t rfl
  generalize ht : atTick k s = t
  have hstart : ∀ o, exec (.startRecognised o k) s = .next (startRecognised o t) := fun o => next_of_eq (by rw [ht])
  have hval : exec (.validationComplete k) s = .next (validated t) := next_of_eq (by rw [ht])
  refine ⟨fun o => ⟨fun h1 h2 h3 h4 h5 => ⟨_, hstart o, ?_⟩, fun h => ?_⟩, fun h => ⟨_, hval, ?_⟩, fun h => ?_⟩
  · have hk := SameBytes.of_kept (kept_startRecognised o t)
    obtain ⟨u1, u2, u3, u4, u5, u6, u7, u8, u9, u10, u11, u12, u13, u14, u15, u16⟩ :=
      startRecognised_spec ((canStart_iff t).mpr ⟨h1, h2, h3, h4, h5⟩) _ rfl
    exact ⟨u1, u2, u3, u4, u5, fun i m hm => hm ▸ u6 i, u7, u8, u9, u10, u11, u12, u13, u14, u15, u16, hk⟩
  · rw [hstart]
    unfold startRecognised
    rw [if_neg]
    rw [canStart_iff]
    rintro ⟨h1, h2, h3, h4, h5⟩
    rcases h with h | h | h | h | ⟨h, h'⟩
    · exact h h1
    · exact h h2
    · rw [h3] at h; cases h
    · rw [h4] at h; cases h
    · rw [h, h'] at h5; exact h5.elim Bool.noConfusion Bool.noConfusion
  · have hk := SameBytes.of_kept (kept_validated t)
    obtain ⟨u1, u2, u3, u4, u5, u6, u7, u8⟩ := validated_spec h _ rfl
    exact ⟨u1, u2, u3, u4, u5, u6, u7, u8, hk⟩
  · rw [hval]
    unfold validated
    rw [if_neg h]

end Sys2Proof.Machine
end

section
/-! SUPPORT. Failures of main power (R427, R454, R457, R458, R461, R462). -/

namespace Sys2Proof.Machine

/-! ### What the last-words record takes -/

/-- LAST is entered: the write begins, and nothing but the keeper and the store changes. -/
theorem enterLast_spec (n c : Nat) (s : State) :
    ∃ l kp, enterLast n c s =
        { s with
          keeper := kp
          words := { s.words with lasts := s.words.lasts + 1, writing := some (s.words.next.1, l) } } ∧
      kp.power = .last ∧ kp.events.getLsbD 1 = true :=
  ⟨_, _, rfl, rfl, setBit_get _ 1 true (by decide)⟩

/-- The count of rides stands in bits 8 to 15 of the events; bit 0 is as it was. -/
theorem countRide_spec (s : State) :
    ∃ e : BitVec 32, s.countRide = { s with keeper := { s.keeper with events := e } } ∧
      e.getLsbD 0 = s.keeper.events.getLsbD 0 := by
  refine ⟨_, rfl, ?_⟩
  have hle : fieldOf s.keeper.events.toNat 8 8 * 256 ≤ s.keeper.events.toNat := by
    unfold fieldOf
    rw [Nat.shiftRight_eq_div_pow]
    omega
  have hpar : ∀ x : Nat, (BitVec.ofNat 32 x).getLsbD 0 = decide (x % 2 = 1) := fun x => by
    rw [BitVec.getLsbD_ofNat, Nat.testBit_zero]
    rfl
  have hself : s.keeper.events.getLsbD 0 = decide (s.keeper.events.toNat % 2 = 1) := by
    rw [← hpar, BitVec.ofNat_toNat, BitVec.setWidth_eq]
  rw [hpar, hself]
  generalize satAdd 255 _ 1 = m
  generalize fieldOf s.keeper.events.toNat 8 8 = n at *
  generalize s.keeper.events.toNat = e at *
  have hmod : (e - n * 256 + m * 256) % 2 = e % 2 := by omega
  rw [hmod]

/-! ### MAIN_FAIL -/

/-- A failure of main in DOZE ends it: position, the time base, the store and the hinges stay. -/
theorem dozeFails_spec (s : State) :
    (dozeFails s).pos = s.pos ∧ (dozeFails s).time = s.time ∧ (dozeFails s).words = s.words ∧
      (dozeFails s).pins = s.pins ∧ hinges (dozeFails s) = hinges s := by
  have hl : ∀ v : State, v = (if s.ptime.listening then endListening s else s) →
      v.pos = s.pos ∧ v.time = s.time ∧ v.words = s.words ∧ v.pins = s.pins ∧ hinges v = hinges s := fun v hv => by
    subst hv
    split
    · have hh : hinges (endListening s) = hinges s := by
        refine Eq.trans ?_ ((hinges_setPort _ s.fabric.port stopReceiver (fun _ => rfl)).trans
          (hinges_setDie s (dieOf s.fabric.port) (fun d => { d with powered := false })))
        rfl
      refine ⟨?_, ?_, ?_, ?_, hh⟩
      all_goals
        unfold endListening
        dsimp only
        generalize dieOf s.fabric.port = d
        cases d <;> rfl
    · exact ⟨rfl, rfl, rfl, rfl, rfl⟩
  have hl := hl _ rfl
  unfold dozeFails
  split
  · dsimp only
    generalize (if s.ptime.listening then endListening s else s) = v at *
    exact hl
  · exact ⟨rfl, rfl, rfl, rfl, rfl⟩

theorem mainFails_driven (x : PortSt) (now : Nat) : (x.mainFails now).hinge.driven = x.hinge.driven := by
  unfold PortSt.mainFails
  dsimp only
  (repeat' split) <;> rfl

/-- The machine as main fails, before the keeper takes its new state: what it keeps for the last words, the releases that begin. -/
def failing (v : Nat) (now : Nat) (s : State) : State :=
  let s1 := { s with
    words := { s.words with vcell := v, mode := s.modes.mode.code, levels := BitVec.ofNat 16 s.liveKeys }
    keeper := { s.keeper with
      dozeReq := false, reloading := false
      phase := if s.keeper.phase = StartPhase.done then StartPhase.done else .waiting } }
  lendAtTake (releaseReady (dropBursts (dropChunks (s1.mapPorts (fun _ x => x.mainFails now)))))

theorem failing_spec (v now : Nat) (s u : State) (hu : u = failing v now s) :
    u.words.vcell = v ∧ u.words.rides = s.words.rides ∧ u.words.lasts = s.words.lasts ∧ u.words.writing = s.words.writing ∧
      u.pins.ready = false ∧ u.pos = s.pos ∧ u.time = s.time ∧
      ∀ p : Port, u.ports[p].hinge.driven = s.ports[p].hinge.driven := by
  subst hu
  have hm : ∀ (kp : Keeper) (w : LastWords),
      ∃ po, ({ s with words := w, keeper := kp } : State).mapPorts (fun _ x => x.mainFails now) =
        { s with words := w, keeper := kp, ports := po } ∧ ∀ p : Port, po[p].hinge.driven = s.ports[p].hinge.driven :=
    fun kp w => by
      refine ⟨(({ s with words := w, keeper := kp } : State).mapPorts (fun _ x => x.mainFails now)).ports, rfl, fun p => ?_⟩
      have hp : (({ s with words := w, keeper := kp } : State).mapPorts (fun _ x => x.mainFails now)).ports[p] =
        s.ports[p].mainFails now := State.mapPorts_get _ _ p
      rw [hp]
      exact mainFails_driven _ now
  have hw : ∀ t, (dropChunks t).words = t.words := fun t => rfl
  unfold failing
  dsimp only
  obtain ⟨po, hm, hpo⟩ := hm { s.keeper with
      dozeReq := false, reloading := false
      phase := if s.keeper.phase = StartPhase.done then StartPhase.done else .waiting }
    { s.words with vcell := v, mode := s.modes.mode.code, levels := BitVec.ofNat 16 s.liveKeys }
  rw [hm]
  generalize ht : ({ s with
    words := { s.words with vcell := v, mode := s.modes.mode.code, levels := BitVec.ofNat 16 s.liveKeys }
    keeper := { s.keeper with
      dozeReq := false, reloading := false
      phase := if s.keeper.phase = StartPhase.done then StartPhase.done else .waiting }, ports := po } : State) = t
  have h1 : t.words.vcell = v ∧ t.words.rides = s.words.rides ∧ t.words.lasts = s.words.lasts ∧
      t.words.writing = s.words.writing ∧ t.pos = s.pos ∧ t.time = s.time ∧ t.ports = po := by
    subst ht; exact ⟨rfl, rfl, rfl, rfl, rfl, rfl, rfl⟩
  obtain ⟨t1, t2, t3, t4, t5, t6, t7⟩ := h1
  obtain ⟨d1, -, d2, -, -, d3, -⟩ := standing_parts (standing_dropChunks t)
  have hw := hw t
  generalize dropChunks t = d at *
  refine ⟨?_, ?_, ?_, ?_, rfl, d1.trans t5, d2.trans t6, fun p => ?_⟩
  · show d.words.vcell = v
    rw [hw, t1]
  · show d.words.rides = _
    rw [hw, t2]
  · show d.words.lasts = _
    rw [hw, t3]
  · show d.words.writing = _
    rw [hw, t4]
  · show d.ports[p].hinge.driven = _
    rw [d3, t7]; exact hpo p

theorem mainFails_eq {v n : Nat} {s : State} (h : s.keeper.power = .main) :
    mainFails v n s =
      let f := failing v s.now (dozeFails s)
      if v < 2200 then enterLast n 2 f
      else (State.flagPower { f with
        keeper := { f.keeper with power := .ride }, words := { f.words with rides := f.words.rides + 1 } } 0).countRide := by
  unfold mainFails
  rw [if_pos h]
  rfl

theorem mainFails_spec {v n : Nat} {t : State} (h : t.keeper.power = .main) (u : State) (hu : u = mainFails v n t) :
    u.words.vcell = v ∧ u.pins.ready = false ∧
      (2200 ≤ v → u.keeper.power = .ride ∧ u.words.rides = t.words.rides + 1 ∧ u.words.lasts = t.words.lasts ∧
        u.keeper.events.getLsbD 0 = true ∧ u.words.writing = t.words.writing) ∧
      (v < 2200 → u.keeper.power = .last ∧ u.words.lasts = t.words.lasts + 1 ∧ u.words.rides = t.words.rides ∧
        u.keeper.events.getLsbD 1 = true ∧ u.words.writing.isSome = true) ∧
      (∀ p : Port, u.ports[p].hinge.driven = t.ports[p].hinge.driven) ∧ u.pos = t.pos ∧ u.time = t.time := by
  subst hu
  rw [mainFails_eq h]
  dsimp only
  obtain ⟨d1, d2, d3, -, d5⟩ := dozeFails_spec t
  have hdr : ∀ p : Port, (dozeFails t).ports[p].hinge.driven = t.ports[p].hinge.driven := fun p =>
    congrArg Hinge.driven (hinges_get d5 p)
  obtain ⟨f1, f2, f3, f4, f5, f6, f7, f8⟩ := failing_spec v t.now (dozeFails t) _ rfl
  generalize failing v t.now (dozeFails t) = f at *
  rw [d3] at f2 f3 f4
  split
  next hv =>
    obtain ⟨l, kp, he, hp, hev⟩ := enterLast_spec n 2 f
    rw [he]
    refine ⟨f1, f5, fun hge => absurd hv (Nat.not_lt.mpr hge), fun _ => ⟨hp, ?_, f2, hev, rfl⟩, fun p => (f8 p).trans (hdr p),
      f6.trans d1, f7.trans d2⟩
    exact congrArg (· + 1) f3
  next hv =>
    obtain ⟨e, he, hbit⟩ := countRide_spec
      (({ f with keeper := { f.keeper with power := .ride }, words := { f.words with rides := f.words.rides + 1 } } : State).flagPower 0)
    rw [he]
    refine ⟨f1, f5, fun _ => ⟨rfl, congrArg (· + 1) f2, f3, hbit.trans (setBit_get _ 0 true (by decide)), f4⟩,
      fun hlt => absurd hlt hv, fun p => (f8 p).trans (hdr p), f6.trans d1, f7.trans d2⟩

/-! ### Engines and dies lose power -/

/-- What is left of a frame passes: its hinges, the keeper and the turn and frame of position stay. -/
theorem finishFrame_spec (o : TurnObs) (s : State) :
    hinges (finishFrame o s) = hinges s ∧ (finishFrame o s).keeper = s.keeper ∧ (finishFrame o s).pos.t = s.pos.t ∧
      (finishFrame o s).pos.f = s.pos.f := by
  have ht := Ticked.atTick 2047 s
  have hs := settleTimers_timersOnly (atTick 2047 s)
  have hc := (clock_settleTimers (atTick 2047 s))
  obtain ⟨j, hj⟩ := clock_atTick 2047 s
  have hk : (settleTimers (atTick 2047 s)).keeper = s.keeper :=
    ((congrArg State.keeper hs).trans rfl).trans ((congrArg State.keeper ht.frame).trans rfl)
  have hh : hinges (settleTimers (atTick 2047 s)) = hinges s := (hinges_timersOnly hs).trans (hinges_ticked ht)
  have hp : (settleTimers (atTick 2047 s)).pos = { s.pos with k := j } := pos_of_clock (hc.trans hj)
  unfold finishFrame
  split
  · exact ⟨rfl, rfl, rfl, rfl⟩
  · dsimp only
    generalize settleTimers (atTick 2047 s) = v at *
    have hpt : v.pos.t = s.pos.t ∧ v.pos.f = s.pos.f := by rw [hp]; exact ⟨rfl, rfl⟩
    split
    · unfold krefTurn State.setAlarm
      dsimp only
      split <;> exact ⟨hh, hk, hpt.1, hpt.2⟩
    · exact ⟨hh, hk, hpt.1, hpt.2⟩

/-- The count stops at the end of the frame, where it goes on. -/
def diesStop (o : TurnObs) (s : State) : State :=
  { (if s.time.counting then forgetSamples (stopCounting (frameEndTick s) (finishFrame o s)) else s) with frameDue := false }

theorem diesStop_spec (o : TurnObs) (s u : State) (hu : u = diesStop o s) :
    u.time.counting = false ∧ (s.time.counting = true → u.time.stopAt = frameEndTick s) ∧
      (s.time.counting = false → u.pos = s.pos ∧ u.time = s.time) ∧ hinges u = hinges s ∧ u.keeper = s.keeper ∧
      u.pos.t = s.pos.t ∧ u.pos.f = s.pos.f := by
  subst hu
  obtain ⟨h1, h2, h3, h4⟩ := finishFrame_spec o s
  unfold diesStop
  cases hc : s.time.counting with
  | true =>
    rw [if_pos rfl]
    generalize finishFrame o s = v at *
    exact ⟨rfl, fun _ => rfl, (fun h => by cases h), h1, h2, h3, h4⟩
  | false =>
    rw [if_neg Bool.noConfusion]
    exact ⟨hc, (fun h => by cases h), fun _ => ⟨rfl, rfl⟩, rfl, rfl, rfl, rfl⟩

theorem lineDiesDown_spec {o : TurnObs} {s : State} (h : s.riding = true) (hb : allBypassed s = true) (u : State)
    (hu : u = lineDiesDown o s) :
    (∀ d, (u.die d).powered = false) ∧ u.time.counting = false ∧
      (s.time.counting = true → u.time.stopAt = frameEndTick s) ∧ (s.time.counting = false → u.pos = s.pos ∧ u.time = s.time) ∧
      (∀ p : Port, u.ports[p].hinge = s.ports[p].hinge ∧ u.ports[p].line.tx = .hiZ) ∧
      u.pos.t = s.pos.t ∧ u.pos.f = s.pos.f ∧ u.keeper = s.keeper := by
  have heq : lineDiesDown o s = stopStream (unpowerDies (diesStop o s)) := by
    unfold lineDiesDown
    rw [h, hb]
    rfl
  subst hu
  rw [heq]
  obtain ⟨a1, a2, a3, a4, a5, a6, a7⟩ := diesStop_spec o s _ rfl
  generalize diesStop o s = a at *
  obtain ⟨hd, hp, honly⟩ := unpowerDies_spec a _ rfl
  generalize unpowerDies a = b at *
  have hb : b.time = a.time ∧ b.pos = a.pos ∧ b.keeper = a.keeper := by rw [honly]; exact ⟨rfl, rfl, rfl⟩
  obtain ⟨b1, b2, b3⟩ := hb
  refine ⟨(fun | .lda => hd .lda | .ldb => hd .ldb), (congrArg Timebase.counting b1).trans a1,
    fun hc => (congrArg Timebase.stopAt b1).trans (a2 hc), fun hc => ⟨b2.trans (a3 hc).1, b1.trans (a3 hc).2⟩,
    fun p => ⟨(hp p).1.trans (hinges_get a4 p), (hp p).2⟩, (congrArg Pos.t b2).trans a6, (congrArg Pos.f b2).trans a7, b3.trans a5⟩

theorem enginesDown_spec {s : State} (h : s.riding = true) (u : State) (hu : u = enginesDown s) :
    (∀ e, (u.eng e).ctl.powered = false ∧ (u.eng e).ctl.claim = 0) ∧ u.ports = s.ports ∧ u.pos = s.pos ∧ u.time = s.time ∧
      u.keeper = s.keeper := by
  have heq : enginesDown s = unpowerEngines (dropLoads s) := if_pos h
  subst hu
  rw [heq]
  obtain ⟨h1, -, h2, -, -, h3, h4, -⟩ := standing_parts ((standing_unpowerEngines (dropLoads s)).trans (standing_dropLoads s))
  have hoff := unpowerEngines_powered (dropLoads s)
  exact ⟨fun e => ⟨hoff e, EngCtl.claim_of_not_powered (hoff e)⟩, h3, h1, h2, h4⟩

/-! ### The last-words store -/

theorem LastWords.put_spec (w : LastWords) (i : Bool) (l : List Byte) :
    (w.put i l).slot i = l ∧ (w.put i l).slot (!i) = w.slot (!i) := by cases i <;> exact ⟨rfl, rfl⟩

theorem returnToMain_of_not_stable {s : State} (h : s.keeper.stable = false) : returnToMain s = s := by
  unfold returnToMain
  rw [h]
  rfl

/-- Settles O57: main power fails, engines and line dies lose power, and the last words are written. -/
theorem mainPowerFails : Obligations.MainPowerFails := by
  rintro v n k s t rfl
  generalize ht : atTick k s = t
  have hfail : exec (.mainFail v n k) s = .next (mainFails v n t) := next_of_eq (by rw [ht])
  refine ⟨fun h => ⟨_, hfail, ?_⟩, fun h => ?_, fun h => ⟨⟨_, rfl, ?_⟩, fun hb o => ⟨_, rfl, ?_⟩, fun hb o => ?_⟩,
    fun h => ⟨next_of_eq ?_, fun o => next_of_eq ?_⟩, fun h => ?_, fun h => next_of_eq (if_neg h), fun i l h => ?_,
    fun h => next_of_eq ?_⟩
  · have hk := SameBytes.of_kept (kept_mainFails v n t)
    obtain ⟨u1, u2, u3, u4, u5, u6, u7⟩ := mainFails_spec (n := n) h _ rfl
    exact ⟨u1, u2, u3, u4, u5, u6, u7, hk⟩
  · rw [hfail]
    unfold mainFails
    rw [if_neg h]
  · obtain ⟨u1, u2, u3, u4, u5⟩ := enginesDown_spec h _ rfl
    exact ⟨u1, u2, u3, u4, u5, SameBytes.of_kept (kept_enginesDown s)⟩
  · obtain ⟨u1, u2, u3, u4, u5, u6, u7, u8⟩ := lineDiesDown_spec (o := o) h hb _ rfl
    exact ⟨u1, u2, u3, u4, u5, u6, u7, u8, SameBytes.of_kept (kept_lineDiesDown o s)⟩
  · refine next_of_eq (if_neg ?_)
    rw [hb, Bool.and_false]
    exact Bool.noConfusion
  · exact if_neg (by rw [h]; exact Bool.noConfusion)
  · exact if_neg (by rw [h]; exact Bool.noConfusion)
  · obtain ⟨l, kp, he, hp, hev⟩ := enterLast_spec n 1 s
    exact ⟨_, next_of_eq ((if_pos h).trans he), hp, rfl, hev, ⟨_, l, rfl, rfl⟩, rfl⟩
  · have heq : writeDone s = returnToMain { s with words := { (s.words.put i l) with writing := none } } := by
      unfold writeDone; rw [h]
    obtain ⟨h1, h2⟩ := s.words.put_spec i l
    have hs : ∀ j, ({ (s.words.put i l) with writing := none } : LastWords).slot j = (s.words.put i l).slot j := fun j => by
      cases j <;> rfl
    obtain ⟨kp, hret, -⟩ := returnToMain_spec { s with words := { (s.words.put i l) with writing := none } }
    refine ⟨_, next_of_eq (heq.trans hret), (hs i).trans h1, (hs _).trans h2, rfl, fun hst => ?_, rfl⟩
    have hno := returnToMain_of_not_stable (s := { s with words := { (s.words.put i l) with writing := none } }) hst
    have hkeep := congrArg State.keeper (hret.symm.trans hno)
    exact hkeep
  · unfold writeDone; rw [h]

/-! ### DARK and back -/

/-- What the loss of the keeper's power leaves. -/
theorem goDark_spec (s u : State) (hu : u = goDark s) :
    u.keeper.power = .dark ∧ u.words.slot0 = s.words.slot0 ∧ u.words.slot1 = s.words.slot1 ∧ u.time.counting = false ∧
      (∀ p : Port, u.ports[p].released) ∧
      ∀ a, u.byteOf .flash a = s.byteOf .flash a ∧ u.byteOf .fram a = s.byteOf .fram a ∧ u.byteOf .psram a = s.byteOf .psram a := by
  subst hu
  refine ⟨rfl, rfl, rfl, rfl, fun p => ?_, fun a => ⟨rfl, rfl, rfl⟩⟩
  have hp : (goDark s).ports = State.reset.ports := rfl
  rw [hp]
  obtain ⟨-, -, -, -, -, -, -, -, -, -, -, -, -, -, h⟩ := resetStateValues
  exact h p

theorem darkEntered_not {s : State} (h : s.keeper.power ≠ .last ∨ s.words.writing ≠ none ∨ noRelease s = false) :
    darkEntered s = s := by
  refine if_neg ?_
  rintro ⟨h1, h2, h3⟩
  rcases h with h | h | h
  · exact h h1
  · exact h h2
  · rw [h] at h3; cases h3

theorem slotGood_blankSlot : slotGood blankSlot = false := rfl

/-- A write cut off leaves its slot bad. -/
theorem vkeepCollapses_spec (s u : State) (hu : u = vkeepCollapses s) :
    u.keeper.power = .dark ∧ (∀ p : Port, u.ports[p].released) ∧
      (∀ i l, s.words.writing = some (i, l) → slotGood (u.words.slot i) = false ∧ u.words.slot (!i) = s.words.slot (!i)) ∧
      (s.words.writing = none → u.words.slot0 = s.words.slot0 ∧ u.words.slot1 = s.words.slot1) ∧
      ∀ a, u.byteOf .flash a = s.byteOf .flash a ∧ u.byteOf .fram a = s.byteOf .fram a ∧ u.byteOf .psram a = s.byteOf .psram a := by
  have hslot : ∀ (v : State) (i : Bool), (goDark v).words.slot i = v.words.slot i := fun v i => by cases i <;> rfl
  have hput : ∀ (i j : Bool), ({ (s.words.put i blankSlot) with writing := none } : LastWords).slot j = (s.words.put i blankSlot).slot j :=
    fun i j => by cases j <;> rfl
  subst hu
  unfold vkeepCollapses
  dsimp only
  cases hw : s.words.writing with
  | none =>
    dsimp only
    obtain ⟨h1, h2, h3, -, h5, h6⟩ := goDark_spec { s with words := s.words } _ rfl
    exact ⟨h1, h5, (fun i l h => by cases h), fun _ => ⟨h2, h3⟩, h6⟩
  | some x =>
    obtain ⟨i, l⟩ := x
    dsimp only
    obtain ⟨h1, -, -, -, h5, h6⟩ := goDark_spec { s with words := { (s.words.put i blankSlot) with writing := none } } _ rfl
    obtain ⟨p1, p2⟩ := s.words.put_spec i blankSlot
    refine ⟨h1, h5, fun j l' h => ?_, (fun h => by cases h), h6⟩
    cases h
    rw [hslot, hslot]
    dsimp only
    rw [hput, hput, p1, p2]
    exact ⟨slotGood_blankSlot, rfl⟩

/-- What a cold start finds in the last-words store. -/
theorem coldStarted_spec {s : State} (h : s.keeper.power = .dark) (u : State) (hu : u = coldStarted s) :
    u.keeper.power = .main ∧ u.keeper.startKind = .cold ∧ u.time.counting = false ∧
      (∀ i, s.words.newest = some i →
        u.pos = ⟨BitVec.ofNat 48 (leField (s.words.slot i) 8 8 / 65536 + 1), 0, 0⟩ ∧
          u.keeper.odometer = BitVec.ofNat 64 (leField (s.words.slot i) 0x14 8) ∧ u.time.gap = true ∧ u.time.cold = false) ∧
      (s.words.newest = none → u.pos = ⟨0, 0, 0⟩ ∧ u.keeper.odometer = 0 ∧ u.time.gap = false ∧ u.time.cold = true) ∧
      u.keeper.events.getLsbD 3 = true ∧ u.ports = s.ports := by
  subst hu
  unfold coldStarted
  rw [if_pos h]
  refine ⟨rfl, rfl, rfl, fun i hi => ?_, fun hn => ?_, setBit_get _ 3 true (by decide), rfl⟩
  · unfold State.flagPower
    dsimp only
    rw [hi]
    exact ⟨rfl, rfl, rfl, rfl⟩
  · unfold State.flagPower
    dsimp only
    rw [hn]
    exact ⟨rfl, rfl, rfl, rfl⟩

/-- With main stable and nothing in progress the keeper returns to MAIN, and otherwise it notes that main is stable. -/
theorem mainStable_spec {s : State} (h : s.riding = true) :
    (s.words.writing = none → noRelease s = true →
      ∃ kp, mainStable s = { s with keeper := kp } ∧ kp.power = .main ∧ kp.phase = .waiting ∧
        kp.startKind = (if s.keeper.coldDue then .cold else .warm) ∧ kp.events.getLsbD 2 = true ∧
        kp.odometer = s.keeper.odometer) ∧
    (s.words.writing ≠ none ∨ noRelease s = false → mainStable s = { s with keeper := { s.keeper with stable := true } }) := by
  have hn : noRelease ({ s with keeper := { s.keeper with stable := s.riding } } : State) = noRelease s := rfl
  have hr : ({ s with keeper := { s.keeper with stable := s.riding } } : State).riding = s.riding := rfl
  refine ⟨fun hw hno => ⟨_, if_pos ?_, rfl, rfl, rfl, setBit_get _ 2 true (by decide), rfl⟩, fun hor => ?_⟩
  · rw [hn, hr, h, hno]
    show (true && true && s.words.writing.isNone && true) = true
    rw [hw]; rfl
  · unfold mainStable returnToMain
    rw [if_neg]
    · rw [h]
    · rw [hn, hr, h]
      show ¬ (true && true && s.words.writing.isNone && noRelease s) = true
      rcases hor with hw | hno
      · rw [Option.isNone_eq_false_iff.mpr (Option.isSome_iff_ne_none.mpr hw)]; exact Bool.noConfusion
      · rw [hno, Bool.and_false]; exact Bool.noConfusion

/-- Settles O58: DARK, and the cold and warm starts out of it. -/
theorem darkAndBack : Obligations.DarkAndBack := by
  intro s
  refine ⟨fun h1 h2 h3 => ?_, fun h => next_of_eq (darkEntered_not h), ⟨_, rfl, vkeepCollapses_spec s _ rfl⟩, fun h => ⟨_, rfl, ?_⟩,
    fun h => next_of_eq (if_neg h), fun h => ⟨fun hw hn => ?_, fun hor => next_of_eq ((mainStable_spec h).2 hor)⟩⟩
  · exact ⟨_, next_of_eq (if_pos ⟨h1, h2, h3⟩), goDark_spec s _ rfl⟩
  · obtain ⟨u1, u2, u3, u4, u5, u6, u7⟩ := coldStarted_spec h _ rfl
    exact ⟨u1, u2, u3, u4, u5, u6, u7, SameBytes.of_kept (kept_coldStarted s)⟩
  · obtain ⟨kp, he, k1, k2, k3, k4, k5⟩ := (mainStable_spec h).1 hw hn
    exact ⟨_, next_of_eq he, k1, k2, k3, k4, k5, rfl⟩

end Sys2Proof.Machine
end

section
/-! SUPPORT. The test access port: the register that an instruction selects, and what a scan through it leaves. -/

namespace Sys2Proof.Machine

/-- A scan through the boundary-scan register captures the balls and takes the bits. -/
theorem dataScan_boundary (bits seen : List Bool) {s : State} (h : dataReg s.pins.resetN s.tap.ir = .boundary) :
    dataScan bits seen s = { s with tap := { s.tap with
      bsr := (captureBalls seen s ++ bits).drop bits.length, out := (captureBalls seen s ++ bits).take bits.length } } := by
  simp only [dataScan, h]

/-- A scan through the bypass register passes the bits through one place. -/
theorem dataScan_bypass (bits seen : List Bool) {s : State} (h : dataReg s.pins.resetN s.tap.ir = .bypass) :
    dataScan bits seen s = { s with tap := { s.tap with
      bypass := ((false :: bits).drop bits.length).headD false, out := (false :: bits).take bits.length } } := by
  simp only [dataScan, h, List.singleton_append]

/-- A code is listed where an instruction of its own has it. -/
theorem tapListed_iff : ∀ c : BitVec 4,
    tapListed c = true ↔ c ∈ [0b0000#4, 0b0001, 0b0010, 0b0011, 0b0100, 0b1000, 0b1001] := by decide

/-- A code that is not listed selects the bypass register. -/
theorem dataReg_of_not_listed : ∀ (r : Bool) (c : BitVec 4), tapListed c = false → dataReg r c = .bypass := by decide

theorem scanBalls_length : scanBalls.length = 65 := by decide

theorem captureBalls_length (seen : List Bool) (s : State) : (captureBalls seen s).length = 65 := by
  rw [captureBalls, List.length_mapIdx, scanBalls_length]

/-- Settles O59: each instruction is one scan through the register that its code selects, or a change of HALT alone. -/
theorem testAccessPort : Obligations.TestAccessPort := by
  intro s
  refine ⟨?_, ?_, fun bits seen => ⟨captureBalls_length seen s, ?_⟩, rfl, rfl, rfl, ?_, ?_, rfl, rfl⟩
  · intro bits seen s1 h1
    have he : exec (.extest bits seen) s = .next (dataScan bits seen s1) := by rw [h1]; rfl
    refine ⟨fun hr => ?_, fun hr => ?_⟩
    · rw [he, dataScan_boundary]
      subst h1
      simp [dataReg, TapInstr.code, hr]
    · rw [he, dataScan_bypass]
      subst h1
      simp [dataReg, TapInstr.code, hr]
  · intro bits seen s1 h1
    have he : exec (.samplePreload bits seen) s = .next (dataScan bits seen s1) := by rw [h1]; rfl
    rw [he, dataScan_boundary]
    subst h1
    simp [dataReg, TapInstr.code]
  · rw [List.length_drop, List.length_append, Nat.add_sub_cancel, captureBalls_length]
  · intro c bits
    have he : exec (.bypass c bits) s = .next (if tapListed c then s else dataScan bits [] (loadIr c s)) := rfl
    rw [← tapListed_iff]
    refine ⟨fun hc => ?_, fun hc => by rw [he, if_pos hc]⟩
    rw [he, if_neg hc, dataScan_bypass bits [] (dataReg_of_not_listed _ _ (Bool.eq_false_iff.mpr hc))]
    rfl
  · intro k t ht
    subst ht
    exact ⟨rfl, rfl, rfl⟩

end Sys2Proof.Machine
end

section
/-! SUPPORT. What no step of a frame or a turn writes. -/

namespace Sys2Proof.Machine

/-- What a frame and a turn leave as it was, but where they say so: whether a frame boundary is due, GAP and COLD of the stamps, how far
the start has come, RESET_N, and whether a cold start has found a record. -/
def signs (s : State) : Bool × Bool × Bool × StartPhase × Bool × Bool :=
  (s.frameDue, s.time.gap, s.time.cold, s.keeper.phase, s.pins.resetN, s.keeper.coldFound)

/-- A record update that leaves those parts alone keeps them. -/
@[simp] theorem signs_update (b : State) (tm : Timebase) (kp : Keeper) (pn : Pins)
    (pending_ : List Instr) (pos_ : Pos) (keys_ : Keys) (im_ : Image) (modes_ : ModeSt) (ports_ : Vector PortSt 32) (lda_ ldb_ : DieSt)
    (engX_ engY_ : EngSt) (duplex_ : Duplex) (pairs_ : Vector PairSt 16) (capture_ : CapturePath) (partner_ : Partner)
    (ptime_ : PartnerTime) (timers_ : Vector Timer 16) (alarm_ : Alarm) (mx_ : Matrix) (tally_ : Tally) (status_ : Status)
    (wd_ : LastWords) (tap_ : Tap) (freeIdx_ : Nat)
    (h1 : tm.gap = b.time.gap) (h2 : tm.cold = b.time.cold) (h3 : kp.phase = b.keeper.phase) (h4 : pn.resetN = b.pins.resetN)
    (h5 : kp.coldFound = b.keeper.coldFound) :
    signs (State.mk pending_ pos_ b.frameDue tm keys_ pn im_ modes_ ports_ lda_ ldb_ engX_ engY_ duplex_ pairs_ capture_ partner_
      ptime_ timers_ alarm_ mx_ tally_ status_ kp wd_ tap_ freeIdx_) = signs b := by
  simp only [signs, h1, h2, h3, h4, h5]

@[simp] theorem signs_forEach {α : Type} (l : List α) (f : α → State → State) (h : ∀ a t, signs (f a t) = signs t) (s : State) :
    signs (forEach l f s) = signs s := forEach_same signs l f h s

@[simp] theorem signs_ite (c : Prop) [Decidable c] (a b : State) : signs (if c then a else b) = if c then signs a else signs b := by
  split <;> rfl

/-! ### Updates of one part -/

@[simp] theorem signs_setPort (s : State) (p : Port) (f : PortSt → PortSt) : signs (State.setPort s p f) = signs s := by
  simp [signs]

@[simp] theorem signs_mapPorts (s : State) (f : Port → PortSt → PortSt) : signs (State.mapPorts s f) = signs s := by
  simp [signs]

@[simp] theorem signs_setHinge (s : State) (p : Port) (f : Hinge → Hinge) : signs (State.setHinge s p f) = signs s := by
  simp [signs]

@[simp] theorem signs_setLatch (s : State) (p : Port) (f : Latch → Latch) : signs (State.setLatch s p f) = signs s := by
  simp [signs]

@[simp] theorem signs_setDie (s : State) (d : LineDie) (f : DieSt → DieSt) : signs (State.setDie s d f) = signs s := by
  simp [signs]

@[simp] theorem signs_setCtl (s : State) (e : Eng) (f : EngCtl → EngCtl) : signs (State.setCtl s e f) = signs s := by
  simp [signs]

@[simp] theorem signs_setEngTally (s : State) (e : Eng) (f : EngTally → EngTally) : signs (State.setEngTally s e f) = signs s := by
  simp [signs]

@[simp] theorem signs_setData (s : State) (e : Eng) (f : EngData → EngData) : signs (State.setData s e f) = signs s := by
  simp [signs]

@[simp] theorem signs_setPair (s : State) (g : PairId) (f : PairSt → PairSt) : signs (State.setPair s g f) = signs s := by
  simp [signs]

@[simp] theorem signs_setPat (s : State) (e : Eng) (i : PatId) (f : PatSt → PatSt) : signs (State.setPat s e i f) = signs s := by
  simp [signs]

@[simp] theorem signs_setReq (s : State) (e : Eng) (g : PairId) (f : PairReq → PairReq) : signs (State.setReq s e g f) = signs s := by
  simp [signs]

@[simp] theorem signs_setTimer (s : State) (i : TimerId) (f : Timer → Timer) : signs (State.setTimer s i f) = signs s := by
  simp [signs]

@[simp] theorem signs_raise (s : State) (b : AlarmBit) : signs (State.raise s b) = signs s := by
  simp [signs]

@[simp] theorem signs_lower (s : State) (b : AlarmBit) : signs (State.lower s b) = signs s := by
  simp [signs]

@[simp] theorem signs_setAlarm (s : State) (b : AlarmBit) (on : Bool) : signs (State.setAlarm s b on) = signs s := by
  simp [signs]

@[simp] theorem signs_flagPartner (s : State) (b : PartnerBit) : signs (State.flagPartner s b) = signs s := by
  simp [State.flagPartner]

/-! ### The ticks of a frame -/

theorem signs_ticked {s u : State} (h : Ticked s u) : signs u = signs s := (congrArg signs h.frame).trans rfl

@[simp] theorem signs_unit (s : State) (i : TimerId) (n : Nat) : signs (s.unit i n) = signs s :=
  signs_ticked (.of_timers (unit_timersOnly s i n))

@[simp] theorem signs_tickTimers (s : State) : signs (tickTimers s) = signs s := signs_ticked (.of_timers (tickTimers_timersOnly s))

@[simp] theorem signs_settleTimers (s : State) : signs (settleTimers s) = signs s :=
  signs_ticked (.of_timers (settleTimers_timersOnly s))

@[simp] theorem signs_countCopy (e : Eng) (ev : SelEvent) (n : Nat) (c : Cell) (s : State) : signs (countCopy e ev n c s) = signs s :=
  signs_ticked (.countCopy e ev n c s)

@[simp] theorem signs_sprayDown (d : LineDie) (e : Eng) (c : Cell) (s : State) : signs (sprayDown d e c s) = signs s :=
  signs_ticked (.sprayDown d e c s)

@[simp] theorem signs_fabricTick (s : State) : signs (fabricTick s) = signs s :=
  signs_ticked (((((Ticked.stopDrives s).trans (.beatsDue _)).trans (.linksTick _)).trans (.xbarTick .ex _)).trans (.xbarTick .ey _))

@[simp] theorem signs_atTick (k : Tick) (s : State) : signs (atTick k s) = signs s := signs_ticked (.atTick k s)

@[simp] theorem signs_tickWork (s : State) : signs (tickWork s) = signs s := signs_ticked (.tickWork s)

/-! ### Timers, captures and health -/

@[simp] theorem signs_turnUnits (s : State) : signs (turnUnits s) = signs s := by
  simp [turnUnits]

@[simp] theorem signs_readCapture (p : Port) (s : State) : signs (readCapture p s) = signs s := by
  simp only [readCapture]; (repeat' split) <;> simp [*]

@[simp] theorem signs_sprayUp (d : LineDie) (e : Eng) (c : Cell) (s : State) : signs (sprayUp d e c s) = signs s := by
  unfold sprayUp; (repeat' split) <;> simp [pushUp]

@[simp] theorem signs_lowerHealth (e : Eng) (n : Nat) (c : Cause) (s : State) : signs (lowerHealth e n c s) = signs s := by
  simp [lowerHealth, noteFall]

@[simp] theorem signs_dropIncumbency (e : Eng) (s : State) : signs (dropIncumbency e s) = signs s := by
  simp [dropIncumbency]

@[simp] theorem signs_cutChannel (p : Port) (s : State) : signs (cutChannel p s) = signs s := by
  simp [cutChannel]

@[simp] theorem signs_reconcile (p : Port) (s : State) : signs (reconcile p s) = signs s := by
  simp only [reconcile]; (repeat' split) <;> simp [*]

theorem signs_foldl_snd {α β : Type} (f : β × State → α → β × State) (h : ∀ acc a, signs (f acc a).2 = signs acc.2) (l : List α)
    (acc : β × State) : signs (l.foldl f acc).2 = signs acc.2 := by
  induction l generalizing acc with
  | nil => rfl
  | cons a l ih => simp only [List.foldl_cons]; rw [ih, h]

/-! ### Patterns and the output stage -/

@[simp] theorem signs_runGenerators (e : Eng) (p : Port) (cas0 : Bool) (s : State) : signs (runGenerators e p cas0 s).2 = signs s := by
  refine signs_foldl_snd _ (fun acc i => ?_) _ ([], s)
  dsimp only
  split
  · simp
  · rfl

@[simp] theorem signs_mapPat (i : PatId) (f : PatSt → PatSt) (s : State) : signs (mapPat i f s) = signs s := by
  simp [mapPat]

@[simp] theorem signs_settlePatterns (s : State) : signs (settlePatterns s) = signs s := by
  simp [settlePatterns]

@[simp] theorem signs_startGenerator (i : PatId) (s : State) : signs (startGenerator i s) = signs s := by
  simp [startGenerator]

@[simp] theorem signs_outputStage (e : Eng) (q : Nat) (bits : Port → List (Nat × Nat × Bool)) (s : State) :
    signs (outputStage e q bits s) = signs s := by
  simp [outputStage, endOutputs]

@[simp] theorem signs_generateAll (e : Eng) (q : Nat) (s : State) : signs (generateAll e q s).2 = signs s := by
  unfold generateAll
  split
  · refine signs_foldl_snd _ (fun acc p => ?_) _ ([], s)
    dsimp only
    split
    · simp
    · rfl
  · rfl

@[simp] theorem signs_runAnalysers (e : Eng) (q : Nat) (s : State) : signs (runAnalysers e q s) = signs s := by
  simp [runAnalysers]

@[simp] theorem signs_engineFrame (e : Eng) (q : Nat) (s : State) : signs (engineFrame e q s) = signs s := by
  simp only [engineFrame, signs_runAnalysers, signs_outputStage, signs_generateAll]

/-! ### Latches -/

@[simp] theorem signs_noteMissing (p : Port) (q : BitVec 16) (s : State) : signs (noteMissing p q s) = signs s := by
  simp [noteMissing]

@[simp] theorem signs_latchFrame (q : BitVec 16) (keep : List (BitVec 16)) (p : Port) (s0 : State) :
    signs (latchFrame q keep p s0) = signs s0 := by
  simp only [latchFrame]; (repeat' split) <;> simp [*]

/-! ### Grid frames and pairs -/

@[simp] theorem signs_carriageBits (p : Port) (n : Nat) (u : CarriageUse) (s : State) : signs (carriageBits p n u s).2 = signs s := by
  unfold carriageBits; split <;> simp

@[simp] theorem signs_freeFrame (s : State) : signs (freeFrame s).2 = signs s := by
  simp [freeFrame]

@[simp] theorem signs_gridE1 (p : Port) (m : Nat) (oct : List Byte) (s : State) : signs (gridE1 p m oct s) = signs s := by
  have h (sa : Nat × State) (h : signs sa.2 = signs s) (f : State → PortSt → PortSt) : signs (sa.2.setPort p (f sa.2)) = signs s := by
    rw [signs_setPort, h]
  unfold gridE1
  rw [signs_setPort]
  split <;> simp

@[simp] theorem signs_raiCuts (p : Port) (s : State) : signs (raiCuts p s) = signs s := by
  simp [raiCuts]

@[simp] theorem signs_gridT1 (p : Port) (m : Nat) (oct : List Byte) (s : State) : signs (gridT1 p m oct s) = signs s := by
  simp only [gridT1, signs_setPort]; (repeat' split) <;> simp

@[simp] theorem signs_gridFrame (n : Nat) (p : Port) (s : State) : signs (gridFrame n p s) = signs s := by
  simp only [gridFrame]; split
  · cases s.ports[p].latch.last <;> (repeat' split) <;> simp
  · rfl

@[simp] theorem signs_reenterSpray (s : State) : signs (reenterSpray s) = signs s := by
  simp [reenterSpray]

@[simp] theorem signs_evalSignalDegrade (s : State) : signs (evalSignalDegrade s) = signs s := by
  simp [evalSignalDegrade]

@[simp] theorem signs_timerExercise (g : PairId) (s : State) : signs (timerExercise g s) = signs s := by
  simp [timerExercise, exercise]

@[simp] theorem signs_captureFrame (q : Nat) (s : State) : signs (captureFrame q s) = signs s := by
  unfold captureFrame; (repeat' split) <;> simp

/-! ### Captures -/

@[simp] theorem signs_queueRecord (e : Eng) (r : List Byte) (s : State) : signs (queueRecord e r s) = signs s := by
  simp [queueRecord]

@[simp] theorem signs_takeStreams (s : State) : signs (takeStreams s) = signs s := by
  simp [takeStreams]

@[simp] theorem signs_formChunk (t : Nat) (s : State) : signs (formChunk t s) = signs s := by
  unfold formChunk; (repeat' split) <;> simp

@[simp] theorem signs_captureTurn (s : State) : signs (captureTurn s) = signs s := by
  simp [captureTurn, endChanged, endStreams]

@[simp] theorem signs_captureStart (s : State) : signs (captureStart s) = signs s := by
  simp [captureStart, endStreams]

@[simp] theorem signs_captureStop (s : State) : signs (captureStop s) = signs s := by
  simp [captureStop]

@[simp] theorem signs_seam (e : Eng) (prev : Option Eng) (cause : Nat) (cont : Bool) (q : BitVec 64) (s : State) :
    signs (seam e prev cause cont q s) = signs s := by
  simp [seam]

@[simp] theorem signs_takeWriter (e : Eng) (prev : Option Eng) (cause : Nat) (cont : Bool) (q : BitVec 64) (s : State) :
    signs (takeWriter e prev cause cont q s) = signs s := by
  unfold takeWriter; (repeat' split) <;> simp

@[simp] theorem signs_launch (m : Msg) (octets : List Byte) (s : State) : signs (launch m octets s) = signs s := by
  unfold launch; (repeat' split) <;> simp

@[simp] theorem signs_launchPending (keeper : Nat) (s : State) : signs (launchPending keeper s) = signs s := by
  unfold launchPending; (repeat' split) <;> simp

@[simp] theorem signs_queueMirror (s : State) : signs (queueMirror s) = signs s := by
  simp [queueMirror]

@[simp] theorem signs_mirrorTurn (s : State) : signs (mirrorTurn s) = signs s := by
  simp only [mirrorTurn]; split
  · split
    · simp
    · split
      · split <;> simp
      · simp
  · rfl

@[simp] theorem signs_queueAck (s : State) : signs (queueAck s) = signs s := by
  unfold queueAck; (repeat' split) <;> simp

@[simp] theorem signs_partnerTurn (keeper : Nat) (s : State) : signs (partnerTurn keeper s) = signs s := by
  simp [partnerTurn, queueTime]

@[simp] theorem signs_actOn (v : Verdict) (s : State) : signs (actOn v s) = signs s := by
  unfold actOn; (repeat' split) <;> simp

@[simp] theorem signs_assignCulprits (s : State) : signs (assignCulprits s) = signs s := by
  unfold assignCulprits
  simp only [signs_update]
  refine (signs_forEach _ _ (fun v t => signs_actOn v t) _).trans ?_
  refine (signs_forEach _ _ (fun e t => signs_setEngTally t e _) _).trans ?_
  refine signs_forEach _ _ (fun v t => ?_) _
  split <;> simp

/-! ### Engines -/

@[simp] theorem signs_makeTracking (e : Eng) (s : State) : signs (makeTracking e s) = signs s := by
  simp [makeTracking]

@[simp] theorem signs_together (s : State) : signs (together s) = signs s := by
  simp [together]

@[simp] theorem signs_grantTo (e : Eng) (prev : Option Eng) (cause : Nat) (cont : Bool) (q : BitVec 64) (s : State) :
    signs (grantTo e prev cause cont q s) = signs s := by
  simp [grantTo, giveIncumbency, startComputing, takePatterns, abortDeliveries, dropInbound]

@[simp] theorem signs_withdraw (s : State) : signs (withdraw s) = signs s := by
  unfold withdraw; (repeat' split) <;> simp

@[simp] theorem signs_firstGrant (s : State) : signs (firstGrant s) = signs s := by
  unfold firstGrant; (repeat' split) <;> simp

@[simp] theorem signs_copyPages (e : Eng) (s : State) : signs (copyPages e s) = signs s := by
  simp [copyPages]

@[simp] theorem signs_copyState (e : Eng) (s : State) : signs (copyState e s) = signs s := by
  simp [copyState]

@[simp] theorem signs_pagesArrive (e : Eng) (s : State) : signs (pagesArrive e s) = signs s := by
  unfold pagesArrive; (repeat' split) <;> simp

@[simp] theorem signs_stateFollows (e : Eng) (s : State) : signs (stateFollows e s) = signs s := by
  unfold stateFollows; (repeat' split) <;> simp

@[simp] theorem signs_join (e : Eng) (s : State) : signs (join e s) = signs s := by
  simp [join]

@[simp] theorem signs_beginCold (e : Eng) (t : Nat) (copied : Bool) (s : State) : signs (beginCold e t copied s) = signs s := by
  simp [beginCold, dropPages, reloadActive, resetState, restartPatterns]

@[simp] theorem signs_rejoinGoesOn (loading : Bool) (t : Nat) (e : Eng) (s : State) : signs (rejoinGoesOn loading t e s) = signs s := by
  unfold rejoinGoesOn; (repeat' split) <;> simp

@[simp] theorem signs_stepTwo (o : TurnObs) (hx hy : Nat) (s : State) : signs (stepTwo o hx hy s) = signs s := by
  simp [stepTwo, raiseHealth, scrub, rejoinSteps, rejoinBegins, dropPages, engineCare, leaveOff, unpower]

@[simp] theorem signs_restoreDies (s : State) : signs (restoreDies s) = signs s := by
  simp [restoreDies]

/-! ### Pages and keys -/

@[simp] theorem signs_setForce (n : Nat) (c : Copy) (s : State) : signs (setForce n c s) = signs s := by
  simp [setForce]

@[simp] theorem signs_startLoad (n : Nat) (toActive : Bool) (s : State) : signs (startLoad n toActive s) = signs s := by
  simp [startLoad, setShadows]

@[simp] theorem signs_makeRequest (n : Nat) (s : State) : signs (makeRequest n s) = signs s := by
  simp [makeRequest, State.flagImage, imageAlarm, setShadows]

@[simp] theorem signs_requestPage (rest : Bool) (n : Nat) (s : State) : signs (requestPage rest n s) = signs s := by
  simp [requestPage]

@[simp] theorem signs_retryRefused (s : State) : signs (retryRefused s) = signs s := by
  unfold retryRefused; (repeat' split) <;> simp

@[simp] theorem signs_portDown (p : Port) (s : State) : signs (portDown p s) = signs s := by
  simp [portDown, flushPort]

@[simp] theorem signs_stepThree (s : State) : signs (stepThree s) = signs s := by
  unfold stepThree; (repeat' split) <;> simp

@[simp] theorem signs_mirrorTakesEffect (s : State) : signs (mirrorTakesEffect s) = signs s := by
  simp only [mirrorTakesEffect]; (repeat' split) <;> simp [*]

@[simp] theorem signs_keepPage (s : State) : signs (keepPage s) = signs s := by
  simp [keepPage]

@[simp] theorem signs_makeHeld (s : State) : signs (makeHeld s) = signs s := by
  unfold makeHeld; (repeat' split) <;> simp

@[simp] theorem signs_makeDeferred (s : State) : signs (makeDeferred s) = signs s := by
  unfold makeDeferred; (repeat' split) <;> simp

@[simp] theorem signs_leaveProof (was : Mode) (s : State) : signs (leaveProof was s) = signs s := by
  unfold leaveProof; (repeat' split) <;> simp

@[simp] theorem signs_enterProof (was : Mode) (s : State) : signs (enterProof was s) = signs s := by
  unfold enterProof; (repeat' split) <;> simp

@[simp] theorem signs_patternCommand (old : Option (BitVec 4)) (s : State) : signs (patternCommand old s) = signs s := by
  unfold patternCommand; (repeat' split) <;> simp

@[simp] theorem signs_stepFour (krefOut : Bool) (s : State) : signs (stepFour krefOut s) = signs s := by
  simp [stepFour, reconcileAll, refreshPatterns, refreshPairs, freshPair, applyCommand, exercise, keysTurn, krefTurn, flagLive,
    State.flagUnassigned, pageKey, filterKey, modeKey, leaveRetention, restEngines, enterRetention]

@[simp] theorem signs_startTimers (s : State) : signs (startTimers s) = signs s := by
  simp [startTimers]

@[simp] theorem signs_loadCompares (n : Nat) (c : Copy) (s : State) : signs (loadCompares n c s) = signs s := by
  refine signs_forEach _ _ (fun i t => ?_) _
  split <;> simp

@[simp] theorem signs_takeAction (i : TimerId) (s : State) : signs (takeAction i s) = signs s := by
  simp only [takeAction]; (repeat' split) <;> simp [*]

@[simp] theorem signs_takeActions (s : State) : signs (takeActions s) = signs s := by
  simp [takeActions]

@[simp] theorem signs_stepFive (start : Bool) (swapped : Option (Nat × Copy)) (s : State) : signs (stepFive start swapped s) = signs s := by
  unfold stepFive; (repeat' split) <;> simp

@[simp] theorem signs_grantAll (s : State) : signs (grantAll s) = signs s := by
  refine signs_forEach _ _ (fun t s => ?_) _
  split <;> simp

@[simp] theorem signs_writeNext (s : State) : signs (writeNext s) = signs s := by
  unfold writeNext; (repeat' split) <;> simp

@[simp] theorem signs_startStream (s : State) : signs (startStream s) = signs s := by
  simp [startStream]

@[simp] theorem signs_turnFlags (s : State) : signs (turnFlags s) = signs s := by
  simp [turnFlags]

@[simp] theorem signs_updateReceivers (s : State) : signs (updateReceivers s) = signs s := by
  simp [updateReceivers]

/-! ### Frames and turns -/

@[simp] theorem signs_transferNotices (s : State) : signs (transferNotices s) = signs s := by
  simp [transferNotices]

@[simp] theorem signs_frameEnd (s : State) : signs (frameEnd s) = signs s := by
  simp [frameEnd, outputStages, latchFrames, endLatchAis, latchAlarm, pairFrames, pairFrame, endPairFrame, endEngFrames,
    endLendFrames, latchPages, readPorts]

@[simp] theorem signs_frameStart (o : FrameObs) (s : State) : signs (frameStart o s) = signs s := by
  simp [frameStart, frameUnits, readCaptures, launchProof, gridFrames, proofFrame, syncWords, beginEngFrames, findDie,
    forgetPackets, memoryFrame, countGoodFrames, readHinges, startEngines, powerEngines, buildInputs, buildInput, copiesArrive,
    startFound]

@[simp] theorem signs_noteLimits (s : State) : signs (noteLimits s) = signs s := by
  simp [noteLimits]

@[simp] theorem signs_endCycle (s : State) : signs (endCycle s) = signs s := by
  simp [endCycle, proofResult]

@[simp] theorem signs_followProof (s : State) : signs (followProof s) = signs s := by
  simp [followProof]

@[simp] theorem signs_openSecond (closed : Bool) (s : State) : signs (openSecond closed s) = signs s := by
  simp [openSecond]

@[simp] theorem signs_ridingTurn (s : State) : signs (ridingTurn s) = signs s := by
  simp [ridingTurn, reconcileAll, unclosed]

end Sys2Proof.Machine
end

section
/-! SUPPORT. Turns and frames (R24, R25, R42, R418, R464, R465, R476). -/

namespace Sys2Proof.Machine

/-! ### What a second boundary looks at -/

theorem clock_closing {s u : State} (h : clock u = clock s) :
    u.keeper.power = s.keeper.power ∧ u.image.inUse = s.image.inUse ∧ u.tally.seq = s.tally.seq := by
  simp only [clock, Prod.mk.injEq] at h
  obtain ⟨-, -, -, hpow, -, -, -, huse, hseq⟩ := h
  exact ⟨hpow, huse, hseq⟩

/-- What a turn boundary sets and its steps leave: position, the odometer, and a cold start not yet corrected. -/
theorem clock_progress {s u : State} (h : clock u = clock s) :
    u.pos = s.pos ∧ u.keeper.odometer = s.keeper.odometer ∧ u.keeper.coldDue = s.keeper.coldDue := by
  simp only [clock, Prod.mk.injEq] at h
  obtain ⟨hpos, -, -, -, hodo, -, hdue, -⟩ := h
  exact ⟨hpos, hodo, hdue⟩

theorem signs_start {s u : State} (h : signs u = signs s) :
    u.keeper.phase = s.keeper.phase ∧ u.pins.resetN = s.pins.resetN ∧ u.keeper.coldFound = s.keeper.coldFound := by
  simp only [signs, Prod.mk.injEq] at h
  obtain ⟨-, -, -, hphase, hreset, hfound⟩ := h
  exact ⟨hphase, hreset, hfound⟩

/-- GAP and COLD of the stamps. -/
def Timebase.flags (t : Timebase) : Bool × Bool := (t.gap, t.cold)

theorem signs_flags {s u : State} (h : signs u = signs s) : u.time.flags = s.time.flags := by
  simp only [signs, Prod.mk.injEq] at h
  obtain ⟨-, hgap, hcold, -⟩ := h
  simp only [Timebase.flags, hgap, hcold]

/-- Whether a record is closed hangs on the start, RESET_N, the image in use and the power state alone. -/
theorem closes_congr {s u : State}
    (hs : u.keeper.phase = s.keeper.phase ∧ u.pins.resetN = s.pins.resetN ∧ u.keeper.coldFound = s.keeper.coldFound)
    (hp : u.keeper.power = s.keeper.power) (hi : u.image.inUse = s.image.inUse) : closes u = closes s := by
  obtain ⟨hphase, hreset, -⟩ := hs
  simp only [closes, hphase, hreset, hp, hi]

/-! ### The end of the turn -/

theorem signs_countTurn (s : State) : signs (countTurn s) = signs s := by
  unfold countTurn
  split <;> rfl

theorem noteWrap_start (s : State) :
    (noteWrap s).keeper.phase = s.keeper.phase ∧ (noteWrap s).pins.resetN = s.pins.resetN ∧
      (noteWrap s).keeper.coldFound = s.keeper.coldFound := by
  unfold noteWrap
  split <;> exact ⟨rfl, rfl, rfl⟩

theorem signs_moved (s : State) (p : Pos) : signs { s with pos := p } = signs s := rfl

theorem endTurn_start (s : State) :
    (endTurn s).keeper.phase = s.keeper.phase ∧ (endTurn s).pins.resetN = s.pins.resetN ∧
      (endTurn s).keeper.coldFound = s.keeper.coldFound := by
  have ha : signs (settlePatterns (frameEnd (noteLimits s))) = signs s :=
    ((signs_settlePatterns _).trans (signs_frameEnd _)).trans (signs_noteLimits s)
  unfold endTurn
  dsimp only
  generalize settlePatterns (frameEnd (noteLimits s)) = a at *
  have hb := (signs_fabricTick { a with pos := a.pos.nextTurn }).trans (signs_moved a _)
  generalize fabricTick { a with pos := a.pos.nextTurn } = b at *
  obtain ⟨hphase, hreset, hfound⟩ := signs_start (hb.trans ha)
  obtain ⟨hcphase, hcreset, hcfound⟩ := signs_start (signs_countTurn (noteWrap b))
  obtain ⟨hwphase, hwreset, hwfound⟩ := noteWrap_start b
  exact ⟨hcphase.trans (hwphase.trans hphase), hcreset.trans (hwreset.trans hreset), hcfound.trans (hwfound.trans hfound)⟩

theorem countTurn_image (s : State) : (countTurn s).image = s.image := by
  unfold countTurn
  split <;> rfl

theorem endTurn_inUse (s : State) : (endTurn s).image.inUse = s.image.inUse := by
  obtain ⟨j, hj⟩ := clock_frameEnd (noteLimits s)
  have h1 := (clock_settlePatterns (frameEnd (noteLimits s))).trans hj
  unfold endTurn
  dsimp only
  generalize settlePatterns (frameEnd (noteLimits s)) = a at *
  obtain ⟨-, hb, -⟩ := clock_closing ((clock_noteWrap (fabricTick { a with pos := a.pos.nextTurn })).trans (clock_fabricTick _))
  obtain ⟨-, ha, -⟩ := clock_closing h1
  obtain ⟨-, hn, -⟩ := clock_closing (clock_noteLimits s)
  rw [countTurn_image, hb]
  exact ha.trans hn

theorem closes_endTurn (s : State) : closes (endTurn s) = closes s := by
  obtain ⟨-, -, hpow, -⟩ := endTurn_spec s
  exact closes_congr (endTurn_start s) hpow (endTurn_inUse s)

/-! ### The position engine and the stamps -/

theorem Timebase.lockTurn_flags (t : Timebase) (f : Int) (b : Bool) : (t.lockTurn f b).flags = t.flags := by
  unfold Timebase.lockTurn
  dsimp only
  split <;> rfl

theorem Timebase.lose_flags (t : Timebase) : t.lose.flags = t.flags := by
  unfold Timebase.lose
  (repeat' split) <;> rfl

theorem Timebase.drop_flags (t : Timebase) (c : RefCand) : (t.drop c).flags = t.flags := by cases c <;> rfl

theorem Timebase.newList_flags (t : Timebase) : t.newList.flags = t.flags := by
  unfold Timebase.newList
  split
  case h_1 => rfl
  case h_2 l _ =>
    dsimp only
    generalize h : (if (refRate l == refRate t.refLevel) = true then _ else _ : Timebase) = t1
    have h1 : t1.flags = t.flags := by
      rw [← h]
      split
      · rfl
      · exact Timebase.drop_flags _ _
    have hlose := (Timebase.lose_flags t1).trans h1
    split
    · exact h1
    · split
      · exact h1
      · split
        · exact h1
        · split
          · exact h1
          · split
            · exact h1
            · exact hlose

theorem Timebase.select_flags (t : Timebase) : t.select.flags = t.flags := by
  unfold Timebase.select
  dsimp only
  (repeat' split) <;> rfl

theorem Timebase.age_flags (t : Timebase) : t.age.flags = t.flags := by
  simp only [Timebase.flags, Timebase.age]

/-- The position engine's turn leaves the stamps' flags, and changes nothing else of the machine. -/
theorem referenceTurn_spec (f : Int) (b : Bool) (s : State) :
    ∃ tm : Timebase, referenceTurn f b s = { s with time := tm } ∧ tm.flags = s.time.flags := by
  unfold referenceTurn
  dsimp only
  refine ⟨_, rfl, ?_⟩
  rw [Timebase.age_flags, Timebase.select_flags]
  split
  · rw [Timebase.newList_flags, Timebase.lockTurn_flags]
  · exact Timebase.lockTurn_flags _ _ _

/-! ### The steps of a turn boundary -/

/-- A second boundary counts a record where it closes one, and otherwise leaves all that is followed here. -/
theorem secondClose_spec (s : State) :
    ((secondClose s).pos = s.pos ∧ (secondClose s).keeper.odometer = s.keeper.odometer ∧
      (secondClose s).keeper.coldDue = s.keeper.coldDue) ∧
    (closes s = true → (secondClose s).tally.seq = s.tally.seq + 1) ∧
    (closes s = false → signs (secondClose s) = signs s) := by
  have hc : ∀ m, closes { s with matrix := m } = closes s := fun _ => rfl
  unfold secondClose
  dsimp only
  rw [hc]
  cases closes s
  case false => exact ⟨⟨rfl, rfl, rfl⟩, (fun h => nomatch h), fun _ => rfl⟩
  case true =>
    rw [if_pos rfl]
    generalize s.matrix.chargeWaits s.now = m
    have hr := clock_restartCounts { s with matrix := m }
    generalize restartCounts { s with matrix := m } = a at *
    obtain ⟨hpos, hodo, hdue⟩ := clock_progress hr
    generalize Record.mk _ _ _ = r
    have hd := clock_recordDue r { a with tally := { a.tally with seq := s.tally.seq + 1, carry := none } }
    obtain ⟨dpos, dodo, ddue⟩ := clock_progress hd
    obtain ⟨-, -, dseq⟩ := clock_closing hd
    exact ⟨⟨dpos.trans hpos, dodo.trans hodo, ddue.trans hdue⟩, fun _ => dseq, (fun h => nomatch h)⟩

theorem stepOne_spec (s : State) :
    ((stepOne s).pos = s.pos ∧ (stepOne s).keeper.odometer = s.keeper.odometer ∧
      (stepOne s).keeper.coldDue = s.keeper.coldDue) ∧
    (closes s = true → (stepOne s).tally.seq = s.tally.seq + if isSecond s.pos.t.toNat then 1 else 0) ∧
    (closes s = false → signs (stepOne s) = signs s) := by
  unfold stepOne
  split
  case isFalse => exact ⟨⟨rfl, rfl, rfl⟩, fun _ => (BitVec.add_zero _).symm, fun _ => rfl⟩
  case isTrue =>
    have hk := clock_endCycle s
    have hs := signs_endCycle s
    generalize endCycle s = a at *
    obtain ⟨⟨hpos, hodo, hdue⟩, hseq, hsigns⟩ := secondClose_spec a
    obtain ⟨kpos, kodo, kdue⟩ := clock_progress hk
    obtain ⟨kpow, kuse, kseq⟩ := clock_closing hk
    have hcl := closes_congr (signs_start hs) kpow kuse
    exact ⟨⟨hpos.trans kpos, hodo.trans kodo, hdue.trans kdue⟩, fun h => by rw [hseq (hcl.trans h), kseq],
      fun h => (hsigns (hcl.trans h)).trans hs⟩

theorem signs_krefTurn (krefOut : Bool) (f : LiveKey → LiveKey) (s : State) : signs (krefTurn krefOut f s) = signs s := by
  simp [krefTurn]

theorem signs_unclosed (s : State) : signs (unclosed s) = signs s := by simp [unclosed]

theorem readyTurn_time (s : State) : (readyTurn s).time = s.time := rfl

theorem started_time (start : Bool) (s : State) :
    (if start then { s with keeper := { s.keeper with phase := .started } } else s : State).time = s.time := by
  split <;> rfl

theorem clock_fullTurn (o : TurnObs) (s : State) : clock (fullTurn o s) = clock (stepOne s) := by
  simp [fullTurn]

theorem fullTurn_flags (o : TurnObs) (s : State) : (fullTurn o s).time.flags = (stepOne s).time.flags := by
  unfold fullTurn
  dsimp only
  rw [signs_flags (signs_partnerTurn _ _), signs_flags (signs_startStream _), readyTurn_time, signs_flags (signs_captureTurn _),
    signs_flags (signs_openSecond _ _), started_time]
  exact signs_flags (by simp)

end Sys2Proof.Machine
end

section
/-! SUPPORT. TURN_BOUNDARY and FRAME_BOUNDARY as a whole. -/

namespace Sys2Proof.Machine

/-! ### The actions of a turn boundary -/

theorem closes_running {s : State} (h : closes s = true) :
    s.keeper.power = .main ∧ s.pins.resetN = true ∧ s.keeper.phase ≠ .waiting := by
  simp only [closes, Bool.and_eq_true, Bool.or_eq_true, beq_iff_eq] at h
  obtain ⟨⟨⟨hreset, -⟩, hphase⟩, hpow⟩ := h
  exact ⟨hpow, hreset, by rcases hphase with h | h <;> rw [h] <;> decide⟩

theorem closes_of_validated {s : State} (h : s.keeper.phase = .validated) : closes s = false := by
  simp [closes, h]

/-- What the turn boundary does after it has corrected position, by the state of the machine. -/
def turnSteps (o : TurnObs) (s : State) : State :=
  if s.keeper.power != .main then ridingTurn (krefTurn o.krefOut LiveKey.pass (tickTimers s))
  else if !s.pins.resetN || s.keeper.phase == .waiting then
    turnFlags (turnUnits (unclosed (krefTurn o.krefOut LiveKey.pass (tickTimers s))))
  else fullTurn o s

theorem turnActions_eq (o : TurnObs) (s : State) :
    turnActions o s =
      { turnSteps o (transferNotices (referenceTurn o.freqPpb o.inLock (correctTurn s))) with frameDue := true } := rfl

/-- The steps leave position, the odometer and a cold start; a second boundary that closes a record counts it, and where none is closed
GAP and COLD stay. -/
theorem turnSteps_spec (o : TurnObs) (s : State) :
    ((turnSteps o s).pos = s.pos ∧ (turnSteps o s).keeper.odometer = s.keeper.odometer ∧
      (turnSteps o s).keeper.coldDue = s.keeper.coldDue) ∧
    (closes s = true → (turnSteps o s).tally.seq = s.tally.seq + if isSecond s.pos.t.toNat then 1 else 0) ∧
    (closes s = false → (turnSteps o s).time.flags = s.time.flags) := by
  have hk : signs (krefTurn o.krefOut LiveKey.pass (tickTimers s)) = signs s :=
    (signs_krefTurn _ _ _).trans (signs_tickTimers s)
  have hc : clock (krefTurn o.krefOut LiveKey.pass (tickTimers s)) = clock s := by simp
  unfold turnSteps
  generalize krefTurn o.krefOut LiveKey.pass (tickTimers s) = a at *
  split
  next hp =>
    have hr := (clock_ridingTurn a).trans hc
    refine ⟨clock_progress hr, fun h => ?_, fun _ => signs_flags ((signs_ridingTurn a).trans hk)⟩
    exact absurd (closes_running h).1 (bne_iff_ne.mp hp)
  · split
    next hw =>
      have hr : clock (turnFlags (turnUnits (unclosed a))) = clock s := by simp [hc]
      have hs : signs (turnFlags (turnUnits (unclosed a))) = signs s := by
        rw [signs_turnFlags, signs_turnUnits, signs_unclosed, hk]
      refine ⟨clock_progress hr, fun h => ?_, fun _ => signs_flags hs⟩
      obtain ⟨-, hreset, hphase⟩ := closes_running h
      simp [hreset, hphase] at hw
    · obtain ⟨⟨hpos, hodo, hdue⟩, hseq, hsigns⟩ := stepOne_spec s
      have hf := clock_fullTurn o s
      obtain ⟨fpos, fodo, fdue⟩ := clock_progress hf
      obtain ⟨-, -, fseq⟩ := clock_closing hf
      exact ⟨⟨fpos.trans hpos, fodo.trans hodo, fdue.trans hdue⟩, fun h => fseq.trans (hseq h),
        fun h => (fullTurn_flags o s).trans (signs_flags (hsigns h))⟩

/-- What a turn boundary leaves of the corrected position, odometer and stamps. -/
theorem turnActions_spec (o : TurnObs) (s : State) :
    (turnActions o s).frameDue = true ∧
    ((turnActions o s).pos = (correctTurn s).pos ∧ (turnActions o s).keeper.odometer = (correctTurn s).keeper.odometer ∧
      (turnActions o s).keeper.coldDue = (correctTurn s).keeper.coldDue) ∧
    (closes (correctTurn s) = true → (turnActions o s).tally.seq =
      (correctTurn s).tally.seq + if isSecond (correctTurn s).pos.t.toNat then 1 else 0) ∧
    (closes (correctTurn s) = false → (turnActions o s).time.flags = (correctTurn s).time.flags) := by
  rw [turnActions_eq]
  generalize correctTurn s = c
  obtain ⟨tm, hr, hflags⟩ := referenceTurn_spec o.freqPpb o.inLock c
  rw [hr]
  have hk := clock_transferNotices { c with time := tm }
  have hs := signs_transferNotices { c with time := tm }
  generalize transferNotices { c with time := tm } = a at *
  obtain ⟨⟨hpos, hodo, hdue⟩, hseq, hfl⟩ := turnSteps_spec o a
  obtain ⟨kpos, kodo, kdue⟩ := clock_progress hk
  obtain ⟨kpow, kuse, kseq⟩ := clock_closing hk
  have hcl : closes a = closes c := closes_congr (s := { c with time := tm }) (signs_start hs) kpow kuse
  refine ⟨rfl, ⟨hpos.trans kpos, hodo.trans kodo, hdue.trans kdue⟩, fun h => ?_, fun h => ?_⟩
  · refine (hseq (hcl.trans h)).trans ?_
    rw [kseq, kpos]
  · exact (hfl (hcl.trans h)).trans ((signs_flags hs).trans hflags)

/-! ### The cold start's correction (R464, R465) -/

theorem correctTurn_of_not_due {s : State} (h : ¬(s.keeper.coldDue = true ∧ s.keeper.phase = .validated)) :
    correctTurn s = s := by
  unfold correctTurn
  rw [if_neg]
  simpa using h

/-- The newest record sets the turn and the odometer ahead. -/
def setFromRecord (m odo : Nat) (s : State) : State :=
  let j := if s.pos.t.toNat < m % 2 ^ 48 + 1 then jumpTo (m % 2 ^ 48 + 1) s else s
  { j with keeper := { j.keeper with odometer := j.keeper.odometer + BitVec.ofNat 64 (odo - s.words.odoAtCold.toNat) } }

theorem jumpTo_spec (t : Nat) (s : State) :
    (jumpTo t s).pos = { s.pos with t := BitVec.ofNat 48 t } ∧ (jumpTo t s).keeper.odometer = s.keeper.odometer ∧
      (jumpTo t s).keeper.phase = s.keeper.phase := by
  simp [jumpTo]

theorem setFromRecord_spec (m odo : Nat) (s : State) :
    (setFromRecord m odo s).pos =
      (if s.pos.t.toNat < m % 2 ^ 48 + 1 then { s.pos with t := BitVec.ofNat 48 (m % 2 ^ 48 + 1) } else s.pos) ∧
    (setFromRecord m odo s).keeper.odometer = s.keeper.odometer + BitVec.ofNat 64 (odo - s.words.odoAtCold.toNat) ∧
    (setFromRecord m odo s).keeper.phase = s.keeper.phase := by
  obtain ⟨hpos, hodo, hphase⟩ := jumpTo_spec (m % 2 ^ 48 + 1) s
  unfold setFromRecord
  dsimp only
  generalize jumpTo (m % 2 ^ 48 + 1) s = j at *
  split
  · exact ⟨hpos, by rw [hodo], hphase⟩
  · exact ⟨rfl, rfl, rfl⟩

/-- The state with the newest record, if there is one, taken into account. -/
def setFromRing (r : Option (Nat × Nat)) (s : State) : State :=
  match r with
  | some (m, odo) => setFromRecord m odo s
  | none => s

theorem setFromRing_none (s : State) : setFromRing none s = s := rfl

theorem setFromRing_some (m odo : Nat) (s : State) : setFromRing (some (m, odo)) s = setFromRecord m odo s := rfl

theorem setFromRing_phase (r : Option (Nat × Nat)) (s : State) : (setFromRing r s).keeper.phase = s.keeper.phase := by
  match r with
  | some (m, odo) => exact (setFromRecord_spec m odo s).2.2
  | none => rfl

theorem correctTurn_eq {s : State} (hd : s.keeper.coldDue = true) (hp : s.keeper.phase = .validated) :
    correctTurn s = { setFromRing (scanRing s).2 s with
      time := { (setFromRing (scanRing s).2 s).time with
        gap := s.keeper.coldFound || (scanRing s).2.isSome, cold := !(s.keeper.coldFound || (scanRing s).2.isSome) }
      keeper := { (setFromRing (scanRing s).2 s).keeper with
        coldDue := false, coldFound := s.keeper.coldFound || (scanRing s).2.isSome } } := by
  unfold correctTurn
  rw [if_pos (by simp [hd, hp])]
  rfl

/-! ### The two boundaries -/

theorem sameBytes_turnBoundary (o : TurnObs) (s : State) : SameBytes s (turnBoundary o s) := .of_kept (kept_turnBoundary o s)

theorem sameBytes_frameBoundary (o : FrameObs) (s : State) : SameBytes s (frameBoundary o s) := .of_kept (kept_frameBoundary o s)

theorem turnBoundary_counting (o : TurnObs) {s : State} (h : s.time.counting = true) :
    turnBoundary o s = turnActions o (endTurn s) := if_pos h

/-- The boundary that a turn boundary has brought: its frame begins where the machine stands. -/
theorem frameBoundary_due (o : FrameObs) {s : State} (hc : s.time.counting = true) (hd : s.frameDue = true) :
    (frameBoundary o s).pos = s.pos ∧ (frameBoundary o s).frameDue = false ∧ (frameBoundary o s).time.counting = true ∧
      (frameBoundary o s).keeper.odometer = s.keeper.odometer := by
  have he : frameBoundary o s = frameStart o { s with frameDue := false } := by simp [frameBoundary, hc, hd]
  have hk := clock_frameStart o { s with frameDue := false }
  have hs := signs_frameStart o { s with frameDue := false }
  rw [he]
  generalize frameStart o { s with frameDue := false } = u at *
  simp only [clock, signs, Prod.mk.injEq] at hk hs
  obtain ⟨hpos, hcount, -, -, hodo, -⟩ := hk
  exact ⟨hpos, hs.1, hcount.trans hc, hodo⟩

/-- The next boundary of the turn. -/
theorem frameBoundary_next (o : FrameObs) {s : State} (hc : s.time.counting = true) (hd : s.frameDue = false) (hf : s.pos.f ≠ 31#5) :
    (frameBoundary o s).pos = ⟨s.pos.t, s.pos.f + 1, 0⟩ ∧ (frameBoundary o s).time.counting = true ∧
      (frameBoundary o s).keeper.odometer = s.keeper.odometer := by
  have he : frameBoundary o s = frameStart o (moveTo (frameEnd s).pos.nextFrame (frameEnd s)) := by
    unfold frameBoundary
    rw [if_neg (by simp [hc]), if_neg (by simp [hd]), if_neg hf]
  obtain ⟨j, hj⟩ := clock_frameEnd s
  rw [he]
  generalize frameEnd s = a at *
  have hk := (clock_frameStart o (moveTo a.pos.nextFrame a)).trans (clock_move a _)
  generalize frameStart o (moveTo a.pos.nextFrame a) = u at *
  simp only [clock, Prod.mk.injEq] at hj hk
  obtain ⟨apos, acount, -, -, aodo, -⟩ := hj
  obtain ⟨hpos, hcount, -, -, hodo, -⟩ := hk
  refine ⟨?_, (hcount.trans acount).trans hc, hodo.trans aodo⟩
  rw [hpos, apos]
  exact if_neg hf

theorem frameBoundary_waits (o : FrameObs) {s : State} (hd : s.frameDue = false) (hf : s.pos.f = 31#5) : frameBoundary o s = s := by
  unfold frameBoundary
  rw [if_neg (by simp [hd] : ¬s.frameDue = true), if_pos hf, ite_self]

/-- A turn boundary with no cold start to correct. -/
theorem turnBoundary_plain (o : TurnObs) {s : State} (hc : s.time.counting = true)
    (hn : ¬(s.keeper.coldDue = true ∧ s.keeper.phase = .validated)) :
    (turnBoundary o s).pos = (endTurn s).pos ∧ (turnBoundary o s).keeper.odometer = (endTurn s).keeper.odometer ∧
      (turnBoundary o s).keeper.coldDue = s.keeper.coldDue ∧
      (closes s = true → (turnBoundary o s).tally.seq = s.tally.seq + if isSecond (s.pos.t + 1).toNat then 1 else 0) := by
  obtain ⟨hpos, -, -, hdue, hseq, -⟩ := endTurn_spec s
  obtain ⟨hphase, -⟩ := endTurn_start s
  have hc0 : correctTurn (endTurn s) = endTurn s := correctTurn_of_not_due (by rw [hdue, hphase]; exact hn)
  have hcl := closes_endTurn s
  obtain ⟨-, ⟨upos, uodo, ucold⟩, useq, -⟩ := turnActions_spec o (endTurn s)
  rw [turnBoundary_counting o hc]
  rw [hc0] at upos uodo ucold useq
  refine ⟨upos, uodo, ucold.trans hdue, fun h => ?_⟩
  rw [useq (hcl.trans h), hseq, hpos]

/-- The turn boundary at which a cold start is corrected. -/
theorem turnBoundary_corrects (o : TurnObs) {s : State} (hc : s.time.counting = true) (hd : s.keeper.coldDue = true)
    (hp : s.keeper.phase = .validated) :
    (turnBoundary o s).pos = (setFromRing (scanRing (endTurn s)).2 (endTurn s)).pos ∧
      (turnBoundary o s).keeper.odometer = (setFromRing (scanRing (endTurn s)).2 (endTurn s)).keeper.odometer ∧
      (turnBoundary o s).keeper.coldDue = false ∧
      (turnBoundary o s).time.gap = (s.keeper.coldFound || (scanRing (endTurn s)).2.isSome) ∧
      (turnBoundary o s).time.cold = !(turnBoundary o s).time.gap := by
  obtain ⟨-, -, -, hdue, -, -⟩ := endTurn_spec s
  obtain ⟨hphase, -, hfound⟩ := endTurn_start s
  obtain ⟨-, hprog, -, hflags⟩ := turnActions_spec o (endTurn s)
  rw [turnBoundary_counting o hc]
  generalize turnActions o (endTurn s) = u at *
  generalize endTurn s = b at *
  have hring := setFromRing_phase (scanRing b).2 b
  rw [correctTurn_eq (hdue.trans hd) (hphase.trans hp)] at hprog hflags
  generalize setFromRing (scanRing b).2 b = c at *
  obtain ⟨upos, uodo, ucold⟩ := hprog
  have hu := hflags (closes_of_validated (hring.trans (hphase.trans hp)))
  simp only [Timebase.flags, Prod.mk.injEq] at hu
  obtain ⟨ugap, ustamp⟩ := hu
  exact ⟨upos, uodo, ucold, by rw [ugap, hfound], by rw [ustamp, ugap]⟩

/-- Settles O60: the steps of a boundary keep position, the odometer and the stamps as the end of the turn and the correction of a cold
start have left them. -/
theorem turnsAndFrames : Obligations.TurnsAndFrames := by
  intro s
  obtain ⟨hpos, -, -, -, -, hodo⟩ := endTurn_spec s
  have hturn : ∀ o : TurnObs, s.time.counting = true → (turnBoundary o s).frameDue = true := fun o hc => by
    rw [turnBoundary_counting o hc]
    exact (turnActions_spec o (endTurn s)).1
  refine ⟨fun o hc hd => ?_, fun o hc hd => ⟨fun hf => ?_, fun hf => next_of_eq (frameBoundary_waits o hd hf)⟩, fun o hc hd => ?_,
    fun o b hc hd hb => ?_, fun hc => ?_⟩
  · obtain ⟨h1, h2, h3, h4⟩ := frameBoundary_due o hc hd
    exact ⟨_, rfl, h1, h2, h3, h4, sameBytes_frameBoundary o s⟩
  · obtain ⟨h1, h2, h3⟩ := frameBoundary_next o hc hd hf
    exact ⟨_, rfl, h1, h2, h3, sameBytes_frameBoundary o s⟩
  · obtain ⟨upos, uodo, -, useq⟩ := turnBoundary_plain o hc (by simp [hd])
    refine ⟨_, rfl, upos.trans hpos, hturn o hc, fun hm hz => ?_, fun hm => ?_, useq, sameBytes_turnBoundary o s⟩
    · rw [uodo, hodo, if_pos ⟨hm, hz⟩]
    · rw [uodo, hodo, if_neg (fun h => hm h.1)]
  · rw [hb]
    refine ⟨_, rfl, hturn o hc, sameBytes_turnBoundary o s, hpos, hodo, fun hp => ?_, fun hp => ?_⟩
    · obtain ⟨upos, uodo, ucold, -⟩ := turnBoundary_plain o hc (fun h => hp h.2)
      exact ⟨upos, uodo, ucold.trans hd⟩
    · obtain ⟨upos, uodo, ucold, ugap, ustamp⟩ := turnBoundary_corrects o hc hd hp
      refine ⟨ucold, ugap, ustamp, fun hr => ?_, fun m n hr => ?_⟩
      · rw [hr, setFromRing_none] at upos uodo
        exact ⟨upos, uodo⟩
      · rw [hr, setFromRing_some] at upos uodo
        obtain ⟨rpos, rodo, -⟩ := setFromRecord_spec m n (endTurn s)
        refine ⟨(upos.trans rpos).trans ?_, uodo.trans rodo⟩
        rw [hpos]
  · exact ⟨fun o => next_of_eq (by simp [frameBoundary, hc]), fun o => next_of_eq (by simp [turnBoundary, hc])⟩

end Sys2Proof.Machine
end
